-- ==== Sys2Proof/Word.lean ====
section
/-! DEFINITION. The word types of Camdon 3 and their plainest arithmetic (R4, R33). -/
namespace Sys2Proof

/-- A byte of memory. -/
abbrev Byte := BitVec 8
/-- A lane register or instruction word. -/
abbrev Word := BitVec 32
/-- A uniform register, a reference, a control register or a transfer word. -/
abbrev Dword := BitVec 64
/-- A wavelength packet: eight FP32 samples λ0–λ7 (R148). The list of a well-formed state has length 8. -/
abbrev Packet := List Word
/-- An operand field's 8-bit code (R68). -/
abbrev Code := BitVec 8

/-- Identity of a thread: the cell it belongs to, its squad's index there, and its lane (R19). -/
structure Tid where
  cell : Nat
  squad : Nat
  lane : Nat
  deriving DecidableEq, Repr

/-- Identity of a transfer-processor context: the cell and the context number 1–3; number 0 is XP0 serving that cell. -/
structure Xid where
  cell : Nat
  ctx : Nat
  deriving DecidableEq, Repr

end Sys2Proof
end

