-- ==== Sys2Proof/Syntax.lean ====
section
/-! DEFINITION. Every operation and event of the S9 (spec/opcode_table.json), one constructor per row: the base,
literal and extended instructions (R55–R75), the transfer words (R249, R250), and the device's events, queue
entries and driver commands, whose operands are what the event or command names. -/
namespace Sys2Proof

/-- Base word with destination and one source (R58, R59). -/
structure Base1 where
  d : Code
  a : Code
  deriving DecidableEq, Repr

/-- Base word with destination and two sources (R58, R59). -/
structure Base2 where
  d : Code
  a : Code
  b : Code
  deriving DecidableEq, Repr

/-- Base word whose B field is an 8-bit immediate (R59, R62). -/
structure BaseImm8 where
  d : Code
  a : Code
  imm : BitVec 8
  deriving DecidableEq, Repr

/-- Base shift whose count is B bits 5:0 (R60). -/
structure BaseShift where
  d : Code
  a : Code
  count : BitVec 6
  deriving DecidableEq, Repr

/-- MOVI and MOVHI: A holds immediate bits 15:8 and B bits 7:0 (R60). -/
structure BaseImm16 where
  d : Code
  imm : BitVec 16
  deriving DecidableEq, Repr

/-- Base BRA and CALL (R61). -/
structure BaseBranch where
  off : BitVec 19
  gn : Bool
  g : BitVec 4
  deriving DecidableEq, Repr

/-- Base word whose operand B is the 64-bit literal (R62). -/
structure BaseLit where
  d : Code
  a : Code
  lit : Dword
  deriving DecidableEq, Repr

/-- A source field of the extended format: operand code, lane pattern and pattern parameter (R63, R70). -/
structure Src where
  code : Code
  pat : BitVec 3
  par : BitVec 5
  deriving DecidableEq, Repr

/-- The guard of an extended instruction: predicate PG, negated when PGN (R65). -/
structure Guard where
  neg : Bool
  p : BitVec 4
  deriving DecidableEq, Repr

/-- The extended format of R63, with the literal of LEN 0b11 (R67). -/
structure Ext where
  fn : BitVec 4
  d : Code
  la : BitVec 4
  g : Guard
  a : Src
  b : Src
  c : Src
  imm : BitVec 16
  lit : Option Dword
  deriving DecidableEq, Repr

/-- The memory format of R212: w2 bits 31:8 hold DISP, SCALE and OPT, and C has no lane pattern. -/
structure Mem where
  fn : BitVec 4
  d : Code
  la : BitVec 4
  g : Guard
  a : Src
  b : Src
  c : Code
  disp : BitVec 16
  scale : BitVec 3
  opt : BitVec 5
  lit : Option Dword
  deriving DecidableEq, Repr

/-- The branch form of R66: a 48-bit signed byte offset, and A as the register operand of BRX and CALLX. -/
structure Branch where
  d : Code
  g : Guard
  a : Code
  off : BitVec 48
  lit : Option Dword
  deriving DecidableEq, Repr

/-- The sweep form of R140: COUNT and CVTSEL in w2, four steps in the literal. -/
structure Sweep where
  fn : BitVec 4
  d : Code
  la : BitVec 4
  g : Guard
  a : Code
  b : Code
  c : Code
  count : BitVec 12
  cvtsel : BitVec 12
  stepD : BitVec 16
  stepA : BitVec 16
  stepB : BitVec 16
  stepC : BitVec 16
  deriving DecidableEq, Repr

/-- The transfer word of R249 less its opcode. -/
structure Xp where
  d : BitVec 5
  a : BitVec 5
  b : BitVec 5
  sg : BitVec 3
  dg : BitVec 3
  fl : BitVec 3
  imm : Word
  deriving DecidableEq, Repr

/-- What a member of a collective tells its partners before data moves (R426). -/
structure CollOffer where
  kind : Nat
  dt : Nat
  op : Nat
  count : Nat
  nrank : Nat
  ranks : List Nat
  deriving DecidableEq, Repr

/-- What has come from the partners of a collective, named by its group and number (R425, R426): whether one of them has ended it, what they
say of it, the on-die sums t(g) that each sends (or, for all-gather, its shard), and who has acknowledged what this package sent; a partner
is named by its index in the group. -/
structure PeerShards where
  group : Nat
  seq : Nat
  failed : Bool
  offers : List (Nat × CollOffer)
  shards : List (Nat × List Dword)
  acks : List Nat
  deriving DecidableEq, Repr

/-- An active message (R419, R422): the packages and cells it goes between, its number in their sequence, and what it carries. -/
structure AmMessage where
  srcRank : Nat
  dest : Nat
  seq : Word
  pctx : Nat
  phidx : Nat
  cell : Nat
  reply : Bool
  srcCell : Nat
  srcTix : Nat
  nw : Nat
  payload : List Word
  deriving DecidableEq, Repr

/-- A message as it arrives (R410, R415, R422): the port of this package that receives it, the port it left its package by, and its tag. -/
structure AmPacket where
  via : Nat
  port : Nat
  tag : BitVec 12
  msg : AmMessage
  deriving DecidableEq, Repr

/-- A read, write or atomic that arrives from a peer package (R242, R406, R414, R415), an active message into its
window, or an atomic request of the link's own specification, which the device never sends (R410); a request's `key` is an atomic's order key (R231), its `port` the one it left its package by. -/
inductive PeerOp where
  | read (len : Nat)
  | write (data : List Byte)
  | atomic (op : BitVec 4) (wide : Bool) (operand : Dword)
  | cas (wide : Bool) (cmp new : Dword)
  | message (m : AmMessage)
  | foreign
  deriving DecidableEq, Repr

structure PeerRequest where
  src : Nat
  port : Nat
  tag : BitVec 12
  pctx : Nat
  pidx : Nat
  off : Nat
  op : PeerOp
  key : Nat
  deriving DecidableEq, Repr

/-- The answer to a request of this package (R415): the tag it names, the data of a read or the old value of an atomic,
or the cause code of the peer's page or owner check (R406). -/
structure PeerResponse where
  port : Nat
  tag : BitVec 12
  data : List Byte
  cause : Nat
  deriving DecidableEq, Repr

/-- What arrives from a peer, with the port of this package by which it comes (R412). -/
structure Arrived (α : Type) where
  via : Nat
  what : α
  deriving DecidableEq, Repr

/-- The pool that PG_POOL fills: a stack's, by a context that the command names (R399, R401). -/
structure StackPool where
  ctx : Nat
  stack : Nat
  deriving DecidableEq, Repr

/-- The registers that CSR_SET writes (R460, R98). -/
inductive SetCsr where
  | mxidle
  | reserve
  deriving DecidableEq, Repr

/-- The rows of spec/opcode_table.json. -/
inductive Instr where
  /-- NOP (R59). Base no-operation word 0x0000_0000; does nothing. -/
  | nop
  /-- MOV_BASE (R59). Base MOV copies operand A to D with the width of D. -/
  | movBase (f : Base1)
  /-- IADD_BASE (R59). Base IADD adds A and B into D with no guard and no lookahead. -/
  | iaddBase (f : Base2)
  /-- ISUB_BASE (R59). Base ISUB subtracts B from A into D. -/
  | isubBase (f : Base2)
  /-- IMUL_BASE (R59). Base IMUL writes the low half of A times B to D. -/
  | imulBase (f : Base2)
  /-- AND_BASE (R59). Base AND of A and B into D. -/
  | andBase (f : Base2)
  /-- OR_BASE (R59). Base OR of A and B into D. -/
  | orBase (f : Base2)
  /-- XOR_BASE (R59). Base XOR of A and B into D. -/
  | xorBase (f : Base2)
  /-- ANDN_BASE (R59). Base ANDN writes A and not B into D. -/
  | andnBase (f : Base2)
  /-- SHL_BASE (R59). Base SHL shifts A left by register count B. -/
  | shlBase (f : Base2)
  /-- SHR_N_BASE (R59). Base logical right shift of A by register count B. -/
  | shrNBase (f : Base2)
  /-- SHR_S_BASE (R59). Base arithmetic right shift of A by register count B. -/
  | shrSBase (f : Base2)
  /-- IMIN_S_BASE (R59). Base signed minimum of A and B. -/
  | iminSBase (f : Base2)
  /-- IMAX_S_BASE (R59). Base signed maximum of A and B. -/
  | imaxSBase (f : Base2)
  /-- IMIN_N_BASE (R59). Base unsigned minimum of A and B. -/
  | iminNBase (f : Base2)
  /-- IMAX_N_BASE (R59). Base unsigned maximum of A and B. -/
  | imaxNBase (f : Base2)
  /-- FADD_BASE (R59). Base FP32 add of A and B into a v register or z. -/
  | faddBase (f : Base2)
  /-- FSUB_BASE (R59). Base FP32 subtract of B from A. -/
  | fsubBase (f : Base2)
  /-- FMUL_BASE (R59). Base FP32 multiply of A and B. -/
  | fmulBase (f : Base2)
  /-- FMIN_BASE (R59). Base FP32 minimum of A and B. -/
  | fminBase (f : Base2)
  /-- FMAX_BASE (R59). Base FP32 maximum of A and B. -/
  | fmaxBase (f : Base2)
  /-- CLZ_BASE (R59). Base count of leading zeros of A. -/
  | clzBase (f : Base1)
  /-- CTZ_BASE (R59). Base count of trailing zeros of A. -/
  | ctzBase (f : Base1)
  /-- POPC_BASE (R59). Base population count of A. -/
  | popcBase (f : Base1)
  /-- BREV_BASE (R59). Base bit reversal of A. -/
  | brevBase (f : Base1)
  /-- ROL_BASE (R59). Base rotate left of A by B. -/
  | rolBase (f : Base2)
  /-- ROR_BASE (R59). Base rotate right of A by B. -/
  | rorBase (f : Base2)
  /-- IADD_BASE_IMM (R59). Base IADD of A and a signed 8-bit immediate. -/
  | iaddBaseImm (f : BaseImm8)
  /-- SHL_BASE_IMM (R60). Base SHL of A by a 6-bit immediate count. -/
  | shlBaseImm (f : BaseShift)
  /-- SHR_N_BASE_IMM (R60). Base logical right shift of A by a 6-bit immediate count. -/
  | shrNBaseImm (f : BaseShift)
  /-- SHR_S_BASE_IMM (R60). Base arithmetic right shift of A by a 6-bit immediate count. -/
  | shrSBaseImm (f : BaseShift)
  /-- AND_BASE_IMM (R59). Base AND of A with an unsigned 8-bit immediate. -/
  | andBaseImm (f : BaseImm8)
  /-- OR_BASE_IMM (R59). Base OR of A with an unsigned 8-bit immediate. -/
  | orBaseImm (f : BaseImm8)
  /-- XOR_BASE_IMM (R59). Base XOR of A with an unsigned 8-bit immediate. -/
  | xorBaseImm (f : BaseImm8)
  /-- MOVI (R60). Moves a sign-extended 16-bit immediate held in A:B into D. -/
  | movi (f : BaseImm16)
  /-- MOVHI (R59). Replaces bits 31:16 of D by a 16-bit immediate, keeping the rest. -/
  | movhi (f : BaseImm16)
  /-- BRA_BASE (R61). Base guarded branch by a signed 19-bit word offset. -/
  | braBase (f : BaseBranch)
  /-- CALL_BASE (R61). Base guarded call writing the link to v190 and branching by a 19-bit word offset. -/
  | callBase (f : BaseBranch)
  /-- RET_BASE (R61). Base return to bits 31:0 of the register named by A. -/
  | retBase (a : Code)
  /-- EXIT_BASE (R119). Base EXIT ends every thread of the bundle. -/
  | exitBase
  /-- IADD_BASE_LIT (R62). Base IADD with a 64-bit literal as operand B. -/
  | iaddBaseLit (f : BaseLit)
  /-- ISUB_BASE_LIT (R62). Base ISUB with a literal as operand B. -/
  | isubBaseLit (f : BaseLit)
  /-- IMUL_BASE_LIT (R62). Base IMUL with a literal as operand B. -/
  | imulBaseLit (f : BaseLit)
  /-- AND_BASE_LIT (R62). Base AND with a literal as operand B. -/
  | andBaseLit (f : BaseLit)
  /-- OR_BASE_LIT (R62). Base OR with a literal as operand B. -/
  | orBaseLit (f : BaseLit)
  /-- XOR_BASE_LIT (R62). Base XOR with a literal as operand B. -/
  | xorBaseLit (f : BaseLit)
  /-- ANDN_BASE_LIT (R62). Base ANDN with a literal as operand B. -/
  | andnBaseLit (f : BaseLit)
  /-- SHL_BASE_LIT (R62). Base SHL with a literal count. -/
  | shlBaseLit (f : BaseLit)
  /-- SHR_N_BASE_LIT (R62). Base logical right shift with a literal count. -/
  | shrNBaseLit (f : BaseLit)
  /-- SHR_S_BASE_LIT (R62). Base arithmetic right shift with a literal count. -/
  | shrSBaseLit (f : BaseLit)
  /-- IMIN_S_BASE_LIT (R62). Base signed minimum with a literal operand. -/
  | iminSBaseLit (f : BaseLit)
  /-- IMAX_S_BASE_LIT (R62). Base signed maximum with a literal operand. -/
  | imaxSBaseLit (f : BaseLit)
  /-- IMIN_N_BASE_LIT (R62). Base unsigned minimum with a literal operand. -/
  | iminNBaseLit (f : BaseLit)
  /-- IMAX_N_BASE_LIT (R62). Base unsigned maximum with a literal operand. -/
  | imaxNBaseLit (f : BaseLit)
  /-- FADD_BASE_LIT (R62). Base FP32 add with a literal operand. -/
  | faddBaseLit (f : BaseLit)
  /-- FSUB_BASE_LIT (R62). Base FP32 subtract with a literal operand. -/
  | fsubBaseLit (f : BaseLit)
  /-- FMUL_BASE_LIT (R62). Base FP32 multiply with a literal operand. -/
  | fmulBaseLit (f : BaseLit)
  /-- FMIN_BASE_LIT (R62). Base FP32 minimum with a literal operand. -/
  | fminBaseLit (f : BaseLit)
  /-- FMAX_BASE_LIT (R62). Base FP32 maximum with a literal operand. -/
  | fmaxBaseLit (f : BaseLit)
  /-- ROL_BASE_LIT (R62). Base rotate left with a literal count. -/
  | rolBaseLit (f : BaseLit)
  /-- ROR_BASE_LIT (R62). Base rotate right with a literal count. -/
  | rorBaseLit (f : BaseLit)
  /-- IADD (R103). Extended integer add, optionally saturating. -/
  | iadd (f : Ext)
  /-- ISUB (R103). Extended integer subtract, optionally saturating. -/
  | isub (f : Ext)
  /-- IMUL (R103). Extended integer multiply, low half. -/
  | imul (f : Ext)
  /-- IMULH (R103). Extended integer multiply, high half. -/
  | imulh (f : Ext)
  /-- IMAD (R103). Integer multiply-add A times B plus C, wrapping. -/
  | imad (f : Ext)
  /-- IMIN (R103). Integer minimum, signed or unsigned. -/
  | imin (f : Ext)
  /-- IMAX (R103). Integer maximum, signed or unsigned. -/
  | imax (f : Ext)
  /-- IABS (R103). Signed integer absolute value, optionally saturating. -/
  | iabs (f : Ext)
  /-- INEG (R103). Integer negation, optionally saturating. -/
  | ineg (f : Ext)
  /-- AND (R103). Extended bitwise AND. -/
  | and (f : Ext)
  /-- OR (R103). Extended bitwise OR. -/
  | or (f : Ext)
  /-- XOR (R103). Extended bitwise XOR. -/
  | xor (f : Ext)
  /-- ANDN (R103). Extended A and not B. -/
  | andn (f : Ext)
  /-- SHL (R103). Extended shift left. -/
  | shl (f : Ext)
  /-- SHR (R103). Extended shift right, logical or arithmetic. -/
  | shr (f : Ext)
  /-- ROL (R103). Extended rotate left. -/
  | rol (f : Ext)
  /-- ROR (R103). Extended rotate right. -/
  | ror (f : Ext)
  /-- CLZ (R103). Extended count leading zeros. -/
  | clz (f : Ext)
  /-- CTZ (R103). Extended count trailing zeros. -/
  | ctz (f : Ext)
  /-- POPC (R103). Extended population count. -/
  | popc (f : Ext)
  /-- BREV (R103). Extended bit reversal. -/
  | brev (f : Ext)
  /-- BFX (R104). Extracts a bit field of A named by the specifier in B. -/
  | bfx (f : Ext)
  /-- BFI (R104). Inserts the low bits of A into a field of C. -/
  | bfi (f : Ext)
  /-- BITIL (R105). Interleaves bits of two or three sources into a Morton code. -/
  | bitil (f : Ext)
  /-- BITDIL (R105). Extracts one field of an interleaved Morton code. -/
  | bitdil (f : Ext)
  /-- SEL (R106). Selects A or B by a per-thread predicate. -/
  | sel (f : Ext)
  /-- MOV (R106). Extended move of A into D at width W. -/
  | mov (f : Ext)
  /-- ISETP (R107). Integer compare into a predicate, combined with another predicate. -/
  | isetp (f : Ext)
  /-- PLOP (R108). Computes a predicate from three predicates by a truth table. -/
  | plop (f : Ext)
  /-- VOTE (R109). Collective vote of a squad-pure bundle: all, any, uni, ballot or lead. -/
  | vote (f : Ext)
  /-- CVT (R110). Converts between integer and float formats with an explicit rounding mode. -/
  | cvt (f : Ext)
  /-- PACK (R111). Forms a 32-bit word from bytes or two converted halves. -/
  | pack (f : Ext)
  /-- UNPACK (R111). Extracts and widens a half or byte of a word. -/
  | unpack (f : Ext)
  /-- REFMK (R112). Makes a reference from a buffer index and an offset. -/
  | refmk (f : Ext)
  /-- REFADD (R112). Adds a signed value to the offset of a reference. -/
  | refadd (f : Ext)
  /-- REFGET (R112). Reads the index or offset of a reference. -/
  | refget (f : Ext)
  /-- FADD (R129). Extended FP32 add, optionally saturated. -/
  | fadd (f : Ext)
  /-- FSUB (R129). Extended FP32 subtract. -/
  | fsub (f : Ext)
  /-- FMUL (R129). Extended FP32 multiply. -/
  | fmul (f : Ext)
  /-- FFMA (R129). FP32 fused multiply-add, optionally negated and saturated. -/
  | ffma (f : Ext)
  /-- FMIN (R130). Extended FP32 minimum with its NaN rules. -/
  | fmin (f : Ext)
  /-- FMAX (R130). Extended FP32 maximum with its NaN rules. -/
  | fmax (f : Ext)
  /-- FSETP (R131). FP32 compare into a predicate. -/
  | fsetp (f : Ext)
  /-- FRND (R132). Rounds FP32 to an integral value by a given mode. -/
  | frnd (f : Ext)
  /-- FCLASS (R133). Writes a one-hot class mask of an FP32, FP16 or BF16 value. -/
  | fclass (f : Ext)
  /-- FTWOSUM (R134). Writes the rounded sum and its exact error to a register pair. -/
  | ftwosum (f : Ext)
  /-- FTWOPROD (R134). Writes the rounded product and its fused error to a register pair. -/
  | ftwoprod (f : Ext)
  /-- FDIV_R (R135). Correctly rounded FP32 division. -/
  | fdivR (f : Ext)
  /-- FSQRT_R (R135). Correctly rounded FP32 square root. -/
  | fsqrtR (f : Ext)
  /-- RCP_F (R136). Fast FP32 reciprocal within 2 ulp. -/
  | rcpF (f : Ext)
  /-- RCP_R (R136). Correctly rounded FP32 reciprocal. -/
  | rcpR (f : Ext)
  /-- RSQ_F (R136). Fast reciprocal square root. -/
  | rsqF (f : Ext)
  /-- RSQ_R (R136). Correctly rounded reciprocal square root. -/
  | rsqR (f : Ext)
  /-- EXP2_F (R136). Fast base-2 exponential. -/
  | exp2F (f : Ext)
  /-- EXP2_R (R136). Correctly rounded base-2 exponential. -/
  | exp2R (f : Ext)
  /-- LOG2_F (R136). Fast base-2 logarithm. -/
  | log2F (f : Ext)
  /-- LOG2_R (R136). Correctly rounded base-2 logarithm. -/
  | log2R (f : Ext)
  /-- SINPI_F (R136). Fast sin(pi a). -/
  | sinpiF (f : Ext)
  /-- SINPI_R (R136). Correctly rounded sin(pi a). -/
  | sinpiR (f : Ext)
  /-- COSPI_F (R136). Fast cos(pi a). -/
  | cospiF (f : Ext)
  /-- COSPI_R (R136). Correctly rounded cos(pi a). -/
  | cospiR (f : Ext)
  /-- TANH_F (R136). Fast hyperbolic tangent within 4 ulp. -/
  | tanhF (f : Ext)
  /-- TANH_R (R136). Correctly rounded hyperbolic tangent. -/
  | tanhR (f : Ext)
  /-- HFMA2 (R138). Packed FP16 fused multiply-add on two halves. -/
  | hfma2 (f : Ext)
  /-- HADD2 (R138). Packed FP16 add on two halves. -/
  | hadd2 (f : Ext)
  /-- HMUL2 (R138). Packed FP16 multiply on two halves. -/
  | hmul2 (f : Ext)
  /-- BFMA2 (R138). Packed BF16 fused multiply-add on two halves. -/
  | bfma2 (f : Ext)
  /-- SW_FADD (R142). Sweep adding FP32 segments of scratch over COUNT iterations. -/
  | swFadd (f : Sweep)
  /-- SW_FMUL (R142). Sweep multiplying FP32 segments of scratch. -/
  | swFmul (f : Sweep)
  /-- SW_FFMA (R142). Sweep fused multiply-add over scratch segments. -/
  | swFfma (f : Sweep)
  /-- SW_FMAX (R142). Sweep FP32 maximum over scratch segments. -/
  | swFmax (f : Sweep)
  /-- SW_CVT (R144). Sweep converting scratch elements by CVTSEL. -/
  | swCvt (f : Sweep)
  /-- SW_COPY (R142). Sweep copying 4-byte elements in scratch. -/
  | swCopy (f : Sweep)
  /-- SW_SUM (R145). Lattice sum of COUNT scratch elements per thread into a lane register. -/
  | swSum (f : Sweep)
  /-- LD (R219). Global load, phased, immediate or consume class. -/
  | ld (f : Mem)
  /-- ST (R219). Global store, phased or immediate class. -/
  | st (f : Mem)
  /-- LDS (R219). Load from the cell's scratch. -/
  | lds (f : Mem)
  /-- STS (R219). Store to the cell's scratch. -/
  | sts (f : Mem)
  /-- LDW (R219). Loads a spectral packet or Stokes quad from memory or scratch. -/
  | ldw (f : Mem)
  /-- STW (R219). Stores a spectral packet or Stokes quad to memory or scratch. -/
  | stw (f : Mem)
  /-- ULD (R221). Uniform load into a k register, once per squad. -/
  | uld (f : Mem)
  /-- UST (R221). Uniform store from k registers, once per squad. -/
  | ust (f : Mem)
  /-- PREF (R222). Prefetches a block into L1 or the home slice, never faulting. -/
  | pref (f : Mem)
  /-- FENCE (R223). Acquire, release or both at a scope; retires when established. -/
  | fence (f : Mem)
  /-- ATOM (R224). Fetch-and-operate at the home slice returning the old value. -/
  | atom (f : Mem)
  /-- ATOMB (R232). Contributes one term of an ordered batch and awaits its lattice prefix. -/
  | atomb (f : Mem)
  /-- CAS (R225). Compare-and-swap at the home slice. -/
  | cas (f : Mem)
  /-- RED (R224). Fetch-and-operate at the home slice with no returned value. -/
  | red (f : Mem)
  /-- FILMADD (R238). Compensated FP32 addition into a film pixel pair at its home slice. -/
  | filmadd (f : Mem)
  /-- MONARM (R240). Arms a monitor on a 64-byte block. -/
  | monarm (f : Mem)
  /-- MONWAIT (R241). Sleeps until the thread's monitor fires or a timeout. -/
  | monwait (f : Mem)
  /-- WADD (R152). Per-sample add of wavelength packets. -/
  | wadd (f : Ext)
  /-- WSUB (R152). Per-sample subtract of packets. -/
  | wsub (f : Ext)
  /-- WMUL (R152). Per-sample multiply of packets. -/
  | wmul (f : Ext)
  /-- WFMA (R152). Per-sample fused multiply-add of packets. -/
  | wfma (f : Ext)
  /-- WMIN (R152). Per-sample minimum of packets. -/
  | wmin (f : Ext)
  /-- WMAX (R152). Per-sample maximum of packets. -/
  | wmax (f : Ext)
  /-- WSEL (R154). Selects samples of two packets by a mask. -/
  | wsel (f : Ext)
  /-- WMOV (R155). Copies a packet or broadcasts a word to all samples. -/
  | wmov (f : Ext)
  /-- WEXT (R155). Extracts one sample of a packet to a lane register. -/
  | wext (f : Ext)
  /-- WINS (R155). Inserts a word into one sample of a packet. -/
  | wins (f : Ext)
  /-- WLAMBDA (R157). Builds a hero-wavelength packet, and optionally its PDF packet. -/
  | wlambda (f : Ext)
  /-- WSUM (R158). Lattice sum of the eight samples into a lane register. -/
  | wsum (f : Ext)
  /-- WXYZ (R159). Integrates a radiance packet against the colour-matching table into X, Y, Z. -/
  | wxyz (f : Ext)
  /-- WMUELLER (R160). Applies a Mueller operand to a Stokes quad per wavelength. -/
  | wmueller (f : Ext)
  /-- WRCP_F (R153). Fast per-sample reciprocal. -/
  | wrcpF (f : Ext)
  /-- WRCP_R (R153). Correctly rounded per-sample reciprocal. -/
  | wrcpR (f : Ext)
  /-- WEXP2_F (R153). Fast per-sample base-2 exponential. -/
  | wexp2F (f : Ext)
  /-- WEXP2_R (R153). Correctly rounded per-sample base-2 exponential. -/
  | wexp2R (f : Ext)
  /-- WSETP (R154). Per-sample compare into a mask or reduced predicate. -/
  | wsetp (f : Ext)
  /-- WCVT (R156). Packs a packet to a compact format or unpacks it. -/
  | wcvt (f : Ext)
  /-- SAMPLEW (R167). Filters a texture once per wavelength of a packet. -/
  | samplew (f : Ext)
  /-- SAMPLE (R168). Filters a texture into four lambda channels. -/
  | sample (f : Ext)
  /-- TEXLD (R169). Fetches texel elements unfiltered. -/
  | texld (f : Ext)
  /-- SPECUP (R170). Upsamples an RGB triple to a spectral packet. -/
  | specup (f : Ext)
  /-- TRACE (R183). Starts or resumes the hierarchy walk of a traversal record. -/
  | trace (f : Ext)
  /-- TRCONT (R184). Applies a user intersection result to a suspended record and walks on. -/
  | trcont (f : Ext)
  /-- TRGET (R185). Reads hit or pending fields of a traversal record. -/
  | trget (f : Ext)
  /-- MXBLD (R199). Loads a rind panel from scratch columns. -/
  | mxbld (f : Ext)
  /-- MXM_E4M3 (R201). Matrix multiply-accumulate of e4m3 MX operands into a tile. -/
  | mxmE4m3 (f : Ext)
  /-- MXM_E5M2 (R201). Matrix multiply-accumulate of e5m2 MX operands. -/
  | mxmE5m2 (f : Ext)
  /-- MXM_E2M1 (R201). Matrix multiply-accumulate of e2m1 MX operands. -/
  | mxmE2m1 (f : Ext)
  /-- MXM_I8G (R201). Matrix multiply-accumulate of grouped 8-bit integers. -/
  | mxmI8g (f : Ext)
  /-- MXM_I4G (R201). Matrix multiply-accumulate of grouped 4-bit integers. -/
  | mxmI4g (f : Ext)
  /-- MXM_BF16 (R201). Matrix multiply-accumulate of BF16 operands. -/
  | mxmBf16 (f : Ext)
  /-- MXM_F16 (R201). Matrix multiply-accumulate of FP16 operands. -/
  | mxmF16 (f : Ext)
  /-- MXMV (R203). Collective multiply of lane rows by a panel into a tile. -/
  | mxmv (f : Ext)
  /-- MXZ (R204). Clears a tile and sets its mode. -/
  | mxz (f : Ext)
  /-- MXRD (R205). Reads tile columns into participants' lane registers. -/
  | mxrd (f : Ext)
  /-- MXWR (R205). Writes lane registers into tile columns. -/
  | mxwr (f : Ext)
  /-- MXST (R206). Stores a whole tile to scratch, converted. -/
  | mxst (f : Ext)
  /-- MXQRY (R207). Queries the array, a tile or a panel; the tile form fences the array queue. -/
  | mxqry (f : Ext)
  /-- BARINIT (R377). Arms a barrier slot for an expected arrival count. -/
  | barinit (f : Ext)
  /-- BARARV (R378). Arrives on a barrier slot, optionally adding pending bytes, and returns a token. -/
  | bararv (f : Ext)
  /-- BARWAIT (R379). Waits on the phase named by a token and returns closer and status. -/
  | barwait (f : Ext)
  /-- BARTEST (R380). Tests a token, blocking in strict mode. -/
  | bartest (f : Ext)
  /-- BARINV (R381). Frees a barrier slot, waking its waiters with false status. -/
  | barinv (f : Ext)
  /-- BARQRY (R382). Reads a slot's state or pending bytes. -/
  | barqry (f : Ext)
  /-- SYNC (R385). Joins the squad threads named by a lane mask. -/
  | sync (f : Ext)
  /-- PHASE (R386). Arrives at the gang's superstep barrier and waits. -/
  | phase (f : Ext)
  /-- XPRUN_START (R272). Starts a transfer-processor context at a word index with an argument. -/
  | xprunStart (f : Ext)
  /-- XPRUN_RESUME (R268). Resumes a stopped transfer-processor context. -/
  | xprunResume (f : Ext)
  /-- XPRUN_QRY (R272). Reads the XSTAT of a transfer-processor context. -/
  | xprunQry (f : Ext)
  /-- XPRUN_KILL (R270). Kills a running, waiting or stopped transfer-processor context. -/
  | xprunKill (f : Ext)
  /-- TCOPY (R273). Asks XP0 to copy one tensor box between memory and scratch. -/
  | tcopy (f : Ext)
  /-- QMAP_BIND (R275). Binds queue-mapped registers to a transfer-processor context. -/
  | qmapBind (f : Ext)
  /-- QMAP_UNBIND (R275). Releases queue-mapped registers, discarding their entries. -/
  | qmapUnbind (f : Ext)
  /-- AMSEND (R419). Sends an active message request or reply to a peer cell. -/
  | amsend (f : Ext)
  /-- BRA (R116). Extended branch by a 48-bit byte offset. -/
  | bra (f : Branch)
  /-- BRX (R116). Indirect branch to a register plus offset. -/
  | brx (f : Branch)
  /-- CALL (R117). Extended call writing the link into a named register. -/
  | call (f : Branch)
  /-- CALLX (R117). Indirect call writing the link into a named register. -/
  | callx (f : Branch)
  /-- RET (R117). Extended return to a register's target. -/
  | ret (f : Ext)
  /-- EXIT (R119). Ends each thread whose guard holds. -/
  | exit (f : Ext)
  /-- YIELD (R339). Safe point that zeroes dead registers and yields when pre-emption is requested. -/
  | yield (f : Ext)
  /-- TRAP (R361). Raises TRAP_SOFT with an immediate. -/
  | trap (f : Ext)
  /-- TRET (R362). Leaves the trap handler when every live thread has reached it. -/
  | tret (f : Ext)
  /-- BRK (R361). Raises BREAKPOINT with an immediate. -/
  | brk (f : Ext)
  /-- CSRR (R120). Reads a control or status register. -/
  | csrr (f : Ext)
  /-- CSRW (R121). Writes, sets or clears bits of a squad control register. -/
  | csrw (f : Ext)
  /-- CLK (R122). Reads the core clock count. -/
  | clk (f : Ext)
  /-- PTPNOW (R123). Reads one sample of the package 1588 time unit. -/
  | ptpnow (f : Ext)
  /-- XNOP (R250). Transfer word doing nothing. -/
  | xnop (f : Xp)
  /-- XLI (R251). Loads an immediate, or its high half, into an x register. -/
  | xli (f : Xp)
  /-- XADD (R251). Adds two x registers. -/
  | xadd (f : Xp)
  /-- XADDI (R251). Adds an immediate to an x register. -/
  | xaddi (f : Xp)
  /-- XSUB (R251). Subtracts two x registers. -/
  | xsub (f : Xp)
  /-- XMUL (R251). Multiplies two x registers, low 64 bits. -/
  | xmul (f : Xp)
  /-- XAND (R251). Bitwise AND of x registers. -/
  | xand (f : Xp)
  /-- XIOR (R251). Bitwise OR of x registers. -/
  | xior (f : Xp)
  /-- XXOR (R251). Bitwise XOR of x registers. -/
  | xxor (f : Xp)
  /-- XSHL (R251). Shifts an x register left. -/
  | xshl (f : Xp)
  /-- XSHR (R251). Shifts an x register right, logical or arithmetic. -/
  | xshr (f : Xp)
  /-- XB (R252). Unconditional transfer-processor branch. -/
  | xb (f : Xp)
  /-- XBEQ (R252). Branches when two x registers are equal. -/
  | xbeq (f : Xp)
  /-- XBNE (R252). Branches when two x registers differ. -/
  | xbne (f : Xp)
  /-- XBLT (R252). Branches when x(A) is less than x(B). -/
  | xblt (f : Xp)
  /-- XBGE (R252). Branches when x(A) is not less than x(B). -/
  | xbge (f : Xp)
  /-- XLOOP (R253). Opens a counted loop level. -/
  | xloop (f : Xp)
  /-- XLEND (R253). Ends a loop body, repeating or closing the level. -/
  | xlend (f : Xp)
  /-- XLD (R254). Loads memory or scratch into an x register. -/
  | xld (f : Xp)
  /-- XST (R254). Stores an x register to memory or scratch. -/
  | xst (f : Xp)
  /-- XGSET (R255). Loads a tensor address generator from a layout record. -/
  | xgset (f : Xp)
  /-- XGPOS (R255). Sets a generator's indices from x registers. -/
  | xgpos (f : Xp)
  /-- XGSTEP (R255). Advances a generator and reports wrap. -/
  | xgstep (f : Xp)
  /-- XCOPY (R256). Copies elements between generators, optionally counted on a slot. -/
  | xcopy (f : Xp)
  /-- XGATH (R257). Gathers elements through an index list. -/
  | xgath (f : Xp)
  /-- XMCAST (R261). Copies elements into the scratch of several gang cells. -/
  | xmcast (f : Xp)
  /-- XQPUSH (R262). Pushes a 128-byte segment into a squad's operand queue. -/
  | xqpush (f : Xp)
  /-- XCONV (R256). Copies elements converting them as SW.CVT does. -/
  | xconv (f : Xp)
  /-- XBARV (R260). Adds expected bytes to a slot and arrives once. -/
  | xbarv (f : Xp)
  /-- XBWAIT (R260). Holds the context until a slot phase completes. -/
  | xbwait (f : Xp)
  /-- XMXM (R263). Hands the array one operation from a descriptor, optionally waiting on a slot. -/
  | xmxm (f : Xp)
  /-- XSTAMP (R254). Stores an immediate-class stamp after all earlier landings. -/
  | xstamp (f : Xp)
  /-- XQFENCE (R264). Waits for own landings and the named engine queues. -/
  | xqfence (f : Xp)
  /-- XWAIT (R264). Waits for every earlier transfer and XMXM of the context. -/
  | xwait (f : Xp)
  /-- XTRAP (R266). Stops the context with TRAP_SOFT. -/
  | xtrap (f : Xp)
  /-- XEXIT (R266). Ends the context once transfers land and PENDMX drains. -/
  | xexit (f : Xp)
  /-- LONG_LATENCY_RETIRE (R72). A long-latency instruction's result arrives and its registers are written. -/
  | longLatencyRetire (t : Tid)
  /-- CURDLE (R333). Every 4 clk the vat snapshots READY threads and forms bundles. -/
  | curdle (core : Nat)
  /-- ARRAY_OP_PERFORM (R192). The array queue performs its next operation on tiles, panels and scratch. -/
  | arrayOpPerform (core : Nat)
  /-- SUBARRAY_GATE (R196). A sub-array idle for csr.mxidle clocks is power-gated. -/
  | subarrayGate (core : Nat)
  /-- TRANSFER_LAND (R258). A run of a transfer lands, and its bytes are subtracted from its counting slot. -/
  | transferLand (x : Xid) (run : Nat)
  /-- SLOT_WAKE (R374). A COMPLETING slot wakes its waiters and contexts and returns to ARMED. -/
  | slotWake (cell slot : Nat)
  /-- PHASE_COMPLETE (R387). The gang's phase completes after tagged transfers drain, publishing and waking members. -/
  | phaseComplete (gang : Nat)
  /-- XMXM_ENTRY (R263). A held XMXM operation enters the array queue once its slot phase completes. -/
  | xmxmEntry (x : Xid)
  /-- XP_WAIT_END (R246). A WAITING transfer-processor context resumes once its condition clears. -/
  | xpWaitEnd (x : Xid)
  /-- TCOPY_SERVICE (R273). XP0 takes the next TCOPY request and moves its box. -/
  | tcopyService (core : Nat)
  /-- COMBINE_TIMEOUT (R230). A request waiting csr.combwin clocks at a combining point goes on alone. -/
  | combineTimeout (req : Nat)
  /-- ATOMIC_PERFORM (R224). An atomic request arrives at its home slice and is performed indivisibly. -/
  | atomicPerform (req : Nat)
  /-- REPLY_SPLIT (R231). A reply passing a combining point is split between the combined halves. -/
  | replySplit (reply : Nat)
  /-- MONWAIT_TIMEOUT (R241). A MONWAIT's timeout expires and it returns 0. -/
  | monwaitTimeout (t : Tid)
  /-- BATCH_TERM_ARRIVAL (R233). An ATOMB term reaches its home slice batch table. -/
  | batchTermArrival (term : Nat)
  /-- BATCH_TIMEOUT (R234). csr.batchto clocks without a term abort the batch. -/
  | batchTimeout (batch : Nat)
  /-- BATCH_REPLY (R235). An ATOMB reply arrives and writes D and the guard predicate. -/
  | batchReply (reply : Nat)
  /-- TRAP_DELIVERY (R349). A stopped squad enters its handler after writing the fault record. -/
  | trapDelivery (cell squad : Nat)
  /-- PLACEMENT (R324). A ready gang is given cores and resources and started whole. -/
  | placement
  /-- RESERVATION (R325). A gang waiting csr.reserve clocks reserves a scope unit. -/
  | reservation (kernel : Nat)
  /-- RECALL (R345). An evicted squad is recalled to its core when its phase completes. -/
  | recall (cell squad : Nat)
  /-- CELL_EXIT (R346). The last squad retiring drains, publishes and frees the cell. -/
  | cellExit (cell : Nat)
  /-- COOPERATIVE_SAVE (R341). When every cell of the gang is safe, the gang is saved. -/
  | cooperativeSave (gang : Nat)
  /-- FORCED_SAVE (R342). The pre-emption deadline expires and the gang is saved by force. -/
  | forcedSave (gang : Nat)
  /-- CTX_CREATE (R282). Checks a context descriptor and makes the context BUILT. -/
  | ctxCreate (desc : List Byte)
  /-- CTX_BIND (R282). Binds a context to device partitions. -/
  | ctxBind (ctx : Nat) (pset : BitVec 24)
  /-- CTX_UNBIND (R282). Returns a BOUND context to BUILT. -/
  | ctxUnbind (ctx : Nat)
  /-- CTX_SWAP (R283). Requests pre-emption on a device partition to exchange with the cave. -/
  | ctxSwap (part : Nat)
  /-- CAVE_EXCHANGE (R283). Once cores halt, the resident set and cave are exchanged and incoming cells restart. -/
  | caveExchange (part : Nat)
  /-- CTX_PARK (R285). Copies a context's saved cells into its park area. -/
  | ctxPark (ctx : Nat)
  /-- CTX_UNPARK (R285). Restores a parked context's gangs whole. -/
  | ctxUnpark (ctx : Nat)
  /-- CTX_KILL (R288). Starts teardown of a context. -/
  | ctxKill (ctx : Nat)
  /-- TEARDOWN_COMPLETE (R288). Teardown finishes and the context becomes DEAD. -/
  | teardownComplete (ctx : Nat)
  /-- CTX_FREE (R282). Frees a DEAD context id. -/
  | ctxFree (ctx : Nat)
  /-- Q_CREATE (R295). Creates a queue from its shadow half. -/
  | qCreate (shadow : List Byte)
  /-- Q_RESET (R295). Returns a queue from ERROR, optionally skipping its head. -/
  | qReset (qid : Nat) (skip : Bool)
  /-- Q_DESTROY (R295). Destroys a queue. -/
  | qDestroy (qid : Nat)
  /-- QUEUE_WAKE (R296). A launch processor's monitor fires and it reloads the user half. -/
  | queueWake (qid : Nat)
  /-- NOP_ENTRY (R301). A NOP queue entry is issued and completes. -/
  | nopEntry (qid : Nat)
  /-- LAUNCH (R303). A LAUNCH entry checks a kernel and makes it PENDING. -/
  | launch (qid : Nat)
  /-- LAUNCH_IND (R304). A LAUNCH_IND entry runs a prologue then acts on its disposition. -/
  | launchInd (qid : Nat)
  /-- PROLOGUE_BUDGET (R307). A prologue exceeding 4,096 clk ends its entry. -/
  | prologueBudget (lp : Nat)
  /-- XPLAUNCH (R308). Launches a grid of transfer-only cells. -/
  | xplaunch (qid : Nat)
  /-- COPY (R309). Starts a byte copy on the sector's data engine. -/
  | copy (qid : Nat)
  /-- COPY_COMPLETE (R309). A COPY's last byte lands or it ends with COPY_FAULT. -/
  | copyComplete (copy : Nat)
  /-- QFENCE (R310). A QFENCE entry becomes head and holds on named queues. -/
  | qfence (qid : Nat)
  /-- QFENCE_RELEASE (R310). The named entries complete and the QFENCE releases with a system acquire. -/
  | qfenceRelease (qid : Nat)
  /-- SIGNAL (R311). Releases at system scope and writes a stamp. -/
  | signal (qid : Nat)
  /-- WAIT (R312). Arms a monitor on a stamp and holds the queue. -/
  | wait (qid : Nat)
  /-- WAIT_RELEASE (R312). A woken WAIT re-reads its stamp and releases when its condition holds. -/
  | waitRelease (qid : Nat)
  /-- WAIT_TIMEOUT (R312). A WAIT's timeout expires and the queue goes to ERROR. -/
  | waitTimeout (qid : Nat)
  /-- TIMED (R313). A TIMED entry checks RELREF and holds until its time. -/
  | timed (qid : Nat)
  /-- TIMED_RELEASE (R313). The time unit reaches the entry's time; it releases and writes its sample. -/
  | timedRelease (qid : Nat)
  /-- COLLECTIVE (R424). Hands a collective descriptor to the collective engine. -/
  | collective (qid : Nat)
  /-- COLLECTIVE_COMPLETE (R426). The collective's output lands and peers acknowledge. -/
  | collectiveComplete (peers : PeerShards)
  /-- HELD_RELEASE (R302). A HELD queue's condition clears and it becomes READY. -/
  | heldRelease (qid : Nat)
  /-- BT_SET (R401). Writes a buffer table entry after invalidating cached copies. -/
  | btSet (ctx index : Nat) (entry : List Byte)
  /-- PG_MAP (R398). Maps a frame to an unmapped page. -/
  | pgMap (ctx index page : Nat) (frame : Nat) (zero : Bool)
  /-- PG_UNMAP (R400). Unmaps a page after invalidating translations. -/
  | pgUnmap (ctx index page : Nat)
  /-- PG_BRINE (R398). Starts compressing a resident page into the brine region. -/
  | pgBrine (ctx index page : Nat)
  /-- BRINE_DONE (R398). The compressed copy ends and the page becomes BRINED. -/
  | brineDone (root page : Nat)
  /-- PG_MIGRATE (R398). Starts copying a resident page to a new frame. -/
  | pgMigrate (ctx index page : Nat) (frame : Nat)
  /-- MIGRATE_DONE (R398). The copy ends and the page is RESIDENT in its new frame. -/
  | migrateDone (root page : Nat)
  /-- PG_POOL (R399). Adds frames to a stack's free pool. -/
  | pgPool (pool : StackPool) (frames : List Nat)
  /-- PG_SCAN (R403). Returns, and optionally clears, DIRTY and ACCESSED bits. -/
  | pgScan (ctx index first count : Nat) (clear : Bool)
  /-- CKPT (R404). Copies a page set to a UALink memory pool. -/
  | ckpt (ctx : Nat) (buffers : List Nat) (target : Dword) (full : Bool)
  /-- EXPANSION_DONE (R398). An expansion restores the page to RESIDENT and waiting accesses proceed. -/
  | expansionDone (root page : Nat)
  /-- WIN_SET (R408). Writes a host device-window entry. -/
  | winSet (seg : Nat) (entry : List Byte)
  /-- HOST_READ (R408). A host read through the device window is performed at the home slice. -/
  | hostRead (off len : Nat)
  /-- HOST_WRITE (R408). A host write through the device window is performed at the home slice. -/
  | hostWrite (off : Nat) (data : List Byte)
  /-- HOST_ATOMICOP (R407). An arriving PCIe AtomicOp is answered with Unsupported Request. -/
  | hostAtomicop (off : Nat)
  /-- LINK_CFG (R411). Gives the package its rank. -/
  | linkCfg (rank : Nat)
  /-- LINK_ROUTE (R411). Fills the routing table for peer ranks. -/
  | linkRoute (rank : Nat) (ports : BitVec 8)
  /-- LINK_ENABLE (R413). Starts training a DOWN port. -/
  | linkEnable (port : Nat)
  /-- TRAINING_DONE (R413). Training ends with good lanes and the port is UP or DEGRADED. -/
  | trainingDone (port lanes : Nat)
  /-- TRAINING_TIMEOUT (R413). Training fails for 100 ms and the port goes DOWN. -/
  | trainingTimeout (port : Nat)
  /-- LINK_ERROR (R413). Replay exhaustion or an uncorrectable flit error starts retraining. -/
  | linkError (port : Nat)
  /-- RETRAINING_DONE (R413). Retraining ends and kept flits are replayed. -/
  | retrainingDone (port lanes : Nat)
  /-- RETRAINING_TIMEOUT (R413). Retraining fails for 10 ms and the port goes DOWN. -/
  | retrainingTimeout (port : Nat)
  /-- LINK_FENCE (R413). Fences a port, rerouting its requests. -/
  | linkFence (port : Nat)
  /-- LINK_UNFENCE (R413). Returns a fenced port to service. -/
  | linkUnfence (port : Nat)
  /-- LINK_DISABLE (R413). Takes a port DOWN. -/
  | linkDisable (port : Nat)
  /-- ISOLATE (R413). The apex core isolates a port electrically. -/
  | isolate (port : Nat)
  /-- RELEASE (R413). The apex core returns an isolated port to DOWN. -/
  | release (port : Nat)
  /-- LINK_QRY (R414). Returns a port's counters. -/
  | linkQry (port : Nat)
  /-- REMOTE_REQUEST_ARRIVAL (R242). A remote request arrives at the peer, checked against the replay filter and performed once. -/
  | remoteRequestArrival (r : Arrived PeerRequest)
  /-- REMOTE_RESPONSE (R415). A response to a remote request arrives at the sender. -/
  | remoteResponse (r : Arrived PeerResponse)
  /-- REMOTE_RETRANSMIT (R415). A request unanswered for 50 µs is retransmitted with its tag. -/
  | remoteRetransmit (req : Nat)
  /-- AM_ARRIVAL (R420). An active message is accepted into the receiving message window. -/
  | amArrival (m : AmPacket)
  /-- AM_BATCH_TIMEOUT (R420). The oldest waiting message reaching 64 clk forms a handler squad. -/
  | amBatchTimeout (cell hidx : Nat)
  /-- HANDLER_SQUAD_START (R420). A formed handler squad starts when a slot and registers are free. -/
  | handlerSquadStart (cell hidx : Nat)
  /-- CREDIT_RETURN (R421). A reply credit returns to the sending package. -/
  | creditReturn
  /-- POWER_GOOD (R450). The apex core boots the package in its fixed order. -/
  | powerGood
  /-- HEARTBEAT (R457). A firmware block writes its heartbeat to the apex core. -/
  | heartbeat (block : Nat)
  /-- HEARTBEAT_TIMEOUT (R457). A block missing heartbeats for 10 ms is reloaded or its sector reset. -/
  | heartbeatTimeout (block : Nat)
  /-- FW_RELOAD (R458). Re-measures and restarts a block's firmware. -/
  | fwReload (block : Nat)
  /-- SECTOR_RESET (R458). Stops a sector, faults its contexts and clears its slices. -/
  | sectorReset (sector : Nat)
  /-- ATTEST (R456). Returns a signed attestation report for a nonce. -/
  | attest (nonce : List Byte)
  /-- CSR_SET (R460). The driver sets a register set only by command, such as csr.mxidle. -/
  | csrSet (csr : SetCsr) (value : Nat)
  /-- PWR_QRY (R459). Returns each sector's stretch count and board power. -/
  | pwrQry
  /-- DROOP_DETECT (R459). Sector supply falling VDROOP below nominal stretches its clock. -/
  | droopDetect (sector : Nat)
  /-- DROOP_RECOVER (R459). After 64 clk above threshold the clock returns to 1.0 ns. -/
  | droopRecover (sector : Nat)
  /-- SCRUB (R461). Each memory port scrubs its stack once per 24 hours. -/
  | scrub (stack : Nat)
  /-- PPS_INPUT (R6). A pulse from the host's 1588 time source reaches the time unit. -/
  | ppsInput (sec : Nat) (nsec : Nat)
  /-- PREQ_CLEAR (R340). The scheduler clears csr.preq before the save begins, and YIELDED threads go on. -/
  | preqClear (gang : Nat)
  /-- REPLAY_FILTER_EXPIRY (R242). A completed tag's 100 µs hold in the home replay filter ends, freeing its entry and letting a withheld egress port issue atomics again. -/
  | replayFilterExpiry (entry : Nat)
  /-- CKPT_PAGE_READ (R404). A checkpointed page's 128 KiB have been read into the link switch, and the page returns from MIGRATING to its state. -/
  | ckptPageRead
  /-- CKPT_COMPLETE (R404). The transfer of a checkpoint's pages to the memory pool ends and the command returns its result. -/
  | ckptComplete
  /-- PARK_COPY_DONE (R285). The copying of a context's cell images into its park area ends, and the context becomes PARKED and its caves are free. -/
  | parkCopyDone (ctx : Nat)
  /-- HOST_CONFIG_REQUEST (R450). A PCI Express configuration request arrives at the host port and is answered with Configuration Request Retry Status until boot step 7. -/
  | hostConfigRequest
  /-- ERROR_LOG_READ (R371). The driver reads device error-log records through a launch-processor command, advancing its read index and freeing log room. -/
  | errorLogRead
  deriving DecidableEq, Repr

end Sys2Proof
end

