-- ==== Sys2Proof/Machine/Forms.lean ====
section
/-! DEFINITION. The encoding tables of Camdon 3: which opcode and fields each instruction has (R55–R75, R249, R250), how
each field is used by its entry (R102, R124, R126, R140, R150, R182, R197, R213, R271, R339, R360, R376, R418), and
the encoding rules whose breach raises ILLEGAL_INSTR or stops with XP_ILLEGAL (R58–R67, R249). -/
namespace Sys2Proof.Machine
open Sys2Proof

/-! ## How a field is used -/

/-- The use an entry makes of an operand field. `n` counts registers, `al` is the alignment of a group. -/
inductive FK where
  /-- Unused: code 0x00 with no pattern (R64). -/
  | none
  /-- Predicate namespace (R68). -/
  | p
  /-- v-namespace source; with n = 2 a 64-bit value in an even pair, a k register, lit or an extended special (R101). -/
  | v (n : Nat)
  /-- A group of lane registers only. -/
  | vg (n al : Nat)
  /-- A group of lane registers read through the array's row paths, so that a pattern is illegal (R198). -/
  | vx (n : Nat)
  /-- A group of lane registers, or z (R184). -/
  | vz (n : Nat)
  /-- z alone (AMSEND with NW = 0, R418). -/
  | z
  /-- A 64-bit reference: k register, even pair or lit (R213). -/
  | ref
  /-- A 32-bit scratch offset: k register, v register, lit or z (R213). -/
  | off
  /-- A 64-bit value in an even pair or a k register (R213, ATOMB). -/
  | vk
  /-- An even pair, a k register or lit (R418). -/
  | vkl
  /-- k register, lit or z (R121, R271); with `z` clear, k register or lit (R213, ULD). -/
  | u (z : Bool)
  /-- A scratch operand, which names a k register; a pattern is illegal (R140, R197). -/
  | k
  /-- Spectral registers, a group aligned to its size (R85). -/
  | w (n : Nat)
  | tile
  | panel
  /-- Destination in the v namespace: n registers aligned to al, whether a k register and z are admitted. -/
  | dv (n al : Nat) (k z : Bool)
  /-- Destination k register only (ULD). -/
  | dk
  /-- PTPNOW's destination (R123). -/
  | dptp
  deriving DecidableEq, Repr

/-- The use of the four operand fields. -/
structure Fields where
  d : FK
  a : FK
  b : FK
  c : FK
  deriving DecidableEq, Repr

def isK (c : Code) : Bool := decide (0xC0 ≤ c.toNat ∧ c.toNat ≤ 0xFB)
def isV (c : Code) : Bool := decide (c.toNat < 0xC0)
def cZ : Code := 0xFC
def cLane : Code := 0xFD
def cTix : Code := 0xFE
def cLit : Code := 0xFF

/-- The long-latency class (R76). -/
def longLatency (op : Nat) : Bool :=
  (0x70 ≤ op && op ≤ 0x76) || (0x4B ≤ op && op ≤ 0x5A) || (0x80 ≤ op && op ≤ 0x90) || (0xA0 ≤ op && op ≤ 0xBA)
    || (0xC0 ≤ op && op ≤ 0xCD)

/-- The register numbers of R98 and R99. -/
def csrListed (n : Nat) : Bool :=
  [0x001, 0x002, 0x010, 0x011, 0x012, 0x013, 0x020, 0x021, 0x030, 0x031, 0x032, 0x033, 0x040, 0x041, 0x042, 0x043, 0x050,
    0x051, 0x060, 0x061, 0x062].contains n || (0x800 ≤ n && n ≤ 0x80B)

/-- The registers marked RW in R98. -/
def csrWritable (n : Nat) : Bool := [0x001, 0x002, 0x010, 0x011, 0x012, 0x020, 0x021].contains n

/-- Format codes of R110 that SW.CVT and XCONV admit (R144). -/
def sweepFormat (c : Nat) : Bool := c ≤ 5 || (8 ≤ c && c ≤ 12)

/-- CVTSEL of R144. -/
def cvtselOk (c : Nat) : Bool := sweepFormat (c % 16) && sweepFormat (c / 16 % 16) && c < 2048

/-- Registers of a 32- or 64-bit operand by W. -/
def wreg (w : Bool) : Nat := if w then 2 else 1

/-- Integer destination of width W (R101). -/
def dInt (w : Bool) : FK := .dv (wreg w) (wreg w) true true

/-- Registers a width code of R214 takes. -/
def groupRegs (w : Nat) : Nat := if w = 4 then 4 else if w = 3 then 2 else 1

/-- Bit i of a number. -/
def tb (x i : Nat) : Bool := x / 2 ^ i % 2 == 1

/-- NG of R202 is not known before issue: the least set, SREG alone, stands in the fields, and the meaning checks the rest. -/
def matrixFields (op fn imm : Nat) : Option Fields :=
  let kg := imm % 32
  if op = 0xC0 then
    let fmt := imm % 16
    let gsz := imm / 16 % 4
    if fn = 0 && imm < 64 && fmt ≤ 6 && gsz ≤ 2 && (gsz == 0 || fmt == 3 || fmt == 4) then some ⟨.panel, .k, .k, .none⟩ else none
  else if op ≤ 0xC7 then
    let grouped := op = 0xC4 || op = 0xC5
    if fn = 0 && 1 ≤ kg && kg ≤ 24 && imm < 16384 && (grouped || imm < 32) then some ⟨.tile, .k, .panel, .k⟩ else none
  else if op = 0xC8 then
    if fn ≤ 2 && imm < 8 && 1 ≤ imm && imm ≤ 4 then some ⟨.tile, .vx (4 * imm), .panel, .none⟩ else none
  else if op = 0xC9 then
    if fn ≤ 1 && imm = 0 then some ⟨.tile, .none, .none, .none⟩ else none
  else if op = 0xCA then
    let cols := (imm / 64 % 16 + 1) * (if fn = 1 || fn = 2 then 2 else 1)
    if fn ≤ 3 && imm < 2048 && imm % 64 + cols ≤ 64 then some ⟨.dv (imm / 64 % 16 + 1) 1 false false, .tile, .none, .none⟩ else none
  else if op = 0xCB then
    if (fn = 0 || fn = 3) && imm < 1024 && imm % 64 + imm / 64 % 16 + 1 ≤ 64 then some ⟨.tile, .vx (imm / 64 % 16 + 1), .none, .none⟩ else none
  else if op = 0xCC then
    if fn ≤ 3 && (imm = 0 || imm = 1024) then some ⟨.none, .tile, .k, .k⟩ else none
  else if op = 0xCD then
    if imm ≠ 0 then none
    else if fn = 0 then some ⟨.dv 1 1 false true, .none, .none, .none⟩
    else if fn = 1 then some ⟨.dv 1 1 false true, .tile, .none, .none⟩
    else if fn = 2 then some ⟨.dv 1 1 false true, .panel, .none, .none⟩
    else none
  else none

/-- Integer, predicate and conversion entries (R102, R105, R107–R111). -/
def integerFields (op fn imm : Nat) : Option Fields :=
  let w := tb fn 0
  let v := FK.v (wreg w)
  let d := dInt w
  let ok (b : Bool) (f : Fields) : Option Fields := if b then some f else none
  if op = 0x00 || op = 0x01 then ok (fn < 8 && imm = 0) ⟨d, v, v, .none⟩
  else if op = 0x04 then ok (fn < 4 && imm = 0) ⟨d, v, v, v⟩
  else if op ≤ 0x06 then ok (fn < 4 && imm = 0) ⟨d, v, v, .none⟩
  else if op = 0x07 then ok (fn < 8 && tb fn 1 && imm = 0) ⟨d, v, .none, .none⟩
  else if op = 0x08 then ok (fn < 8 && imm = 0) ⟨d, v, .none, .none⟩
  else if op ≤ 0x10 then ok (fn < 4 && imm = 0) ⟨d, v, v, .none⟩
  else if op ≤ 0x14 then ok (fn < 4 && imm = 0) ⟨d, v, .none, .none⟩
  else if op = 0x15 then ok (fn < 4 && imm = 0) ⟨d, v, v, .none⟩
  else if op = 0x16 then ok (fn < 4 && imm = 0) ⟨d, v, v, v⟩
  else if op = 0x17 then
    ok ((fn = 0 || fn = 4) && imm = 0) ⟨dInt false, .v 1, .v 1, if fn = 0 then .v 1 else .none⟩
  else if op = 0x18 then
    ok ((fn = 0 && imm ≤ 2) || (fn = 4 && imm ≤ 1)) ⟨dInt false, .v 1, .none, .none⟩
  else if op = 0x19 then ok (fn < 2 && imm = 0) ⟨.dv (wreg w) (wreg w) false true, v, v, .p⟩
  else if op = 0x1A then ok (fn < 4 && imm = 0) ⟨d, v, .none, .none⟩
  else if op = 0x1B then ok (fn < 12 && imm < 128) ⟨.p, v, v, .none⟩
  else if op = 0x1C then ok (fn = 0 && imm < 256) ⟨.p, .p, .p, .p⟩
  else if op = 0x1D then
    ok (fn ≤ 4 && imm = 0) ⟨if fn = 3 then .dv 1 1 false true else .p, .p, .none, .none⟩
  else if op = 0x1E then
    let s := imm % 16
    let t := imm / 16 % 16
    ok (fn = 0 && imm < 2048 && s ≤ 0xD && t ≤ 0xD) ⟨dInt (t = 6 || t = 7), .v (wreg (s = 6 || s = 7)), .none, .none⟩
  else if op = 0x1F then
    ok ((fn = 0 && [0, 1, 2, 3].all (fun j => imm / 16 ^ j % 16 ≤ 8)) || ((fn = 1 || fn = 2) && imm = 0)) ⟨dInt false, .v 1, .v 1, .none⟩
  else if op = 0x20 then
    ok ((fn = 0 && imm < 4) || (fn = 1 && imm < 8) || ((fn = 2 || fn = 3) && imm < 2)) ⟨dInt false, .v 1, .none, .none⟩
  else if op = 0x21 then ok (fn = 0 && imm = 0) ⟨dInt true, .v 1, .v 2, .none⟩
  else if op = 0x22 then ok (fn < 2 && imm = 0) ⟨dInt true, .v 2, v, .none⟩
  else if op = 0x23 then ok (fn < 2 && imm = 0) ⟨dInt w, .v 2, .none, .none⟩
  else none

/-- Floating-point entries (R126, R131–R134). -/
def floatFields (op fn imm : Nat) : Option Fields :=
  let d := FK.dv 1 1 false true
  let ok (b : Bool) (f : Fields) : Option Fields := if b then some f else none
  if op ≤ 0x42 then ok (fn < 2 && imm = 0) ⟨d, .v 1, .v 1, .none⟩
  else if op = 0x43 then ok (fn < 4 && imm = 0) ⟨d, .v 1, .v 1, .v 1⟩
  else if op ≤ 0x45 then ok (fn = 0 && imm = 0) ⟨d, .v 1, .v 1, .none⟩
  else if op = 0x46 then ok (fn < 12 && fn % 2 = 0 && imm < 128) ⟨.p, .v 1, .v 1, .none⟩
  else if op = 0x47 then ok (fn < 4 && imm = 0) ⟨d, .v 1, .none, .none⟩
  else if op = 0x48 then ok (fn < 3 && imm = 0) ⟨d, .v 1, .none, .none⟩
  else if op ≤ 0x4A then ok (fn = 0 && imm = 0) ⟨.dv 2 2 false false, .v 1, .v 1, .none⟩
  else if op = 0x4B then ok (fn = 0 && imm = 0) ⟨d, .v 1, .v 1, .none⟩
  else if op ≤ 0x5A then ok (fn = 0 && imm = 0) ⟨d, .v 1, .none, .none⟩
  else if op = 0x5B || op = 0x5E then ok (fn < 2 && imm = 0) ⟨d, .v 1, .v 1, .v 1⟩
  else if op ≤ 0x5D then ok (fn < 2 && imm = 0) ⟨d, .v 1, .v 1, .none⟩
  else none

/-- Spectral, texture and traversal entries (R150, R154–R157, R169, R182). -/
def spectralFields (op fn imm : Nat) : Option Fields :=
  let ok (b : Bool) (f : Fields) : Option Fields := if b then some f else none
  let bw := if tb fn 1 then FK.v 1 else FK.w 1
  let d1 := FK.dv 1 1 false true
  if op ≤ 0xA2 then ok (fn < 4 && imm = 0) ⟨.w 1, .w 1, bw, .none⟩
  else if op = 0xA3 then ok (fn < 8 && imm = 0) ⟨.w 1, .w 1, bw, .w 1⟩
  else if op ≤ 0xA5 then ok ((fn = 0 || fn = 2) && imm = 0) ⟨.w 1, .w 1, bw, .none⟩
  else if op = 0xA6 then ok (fn = 0 && imm = 0) ⟨.w 1, .w 1, .w 1, .v 1⟩
  else if op = 0xA7 then ok (fn < 2 && imm = 0) ⟨.w 1, if fn = 0 then .w 1 else .v 1, .none, .none⟩
  else if op = 0xA8 then
    ok ((fn = 0 && imm < 8) || (fn = 1 && imm = 0)) ⟨d1, .w 1, if fn = 0 then .none else .v 1, .none⟩
  else if op = 0xA9 then
    ok ((fn = 0 && imm < 8) || (fn = 1 && imm = 0)) ⟨.w 1, .v 1, if fn = 0 then .none else .v 1, .none⟩
  else if op = 0xAA then ok (fn < 2 && imm = 0) ⟨.w 1, .v 1, .none, .none⟩
  else if op = 0xAB then ok (fn = 0 && imm = 0) ⟨d1, .w 1, .none, .none⟩
  else if op = 0xAC then ok (fn = 0 && imm = 0) ⟨.dv 3 1 false false, .w 1, .w 1, .w 1⟩
  else if op = 0xAD then ok (fn = 0 && imm = 0) ⟨.w 4, .w 16, .w 4, .none⟩
  else if op ≤ 0xB1 then ok (fn = 0 && imm = 0) ⟨.w 1, .w 1, .none, .none⟩
  else if op = 0xB2 then
    ok (fn < 12 && imm < 3) ⟨if imm = 0 then d1 else .p, .w 1, if tb fn 0 then .v 1 else .w 1, .none⟩
  else if op = 0xB3 then
    let fmt := imm % 16
    let n := if fmt = 8 || fmt = 9 then 4 else 2
    let fok := fmt = 8 || fmt = 9 || fmt = 0xB || fmt = 0xC
    if fn = 0 then ok (fok && imm < 2048 && imm / 16 % 16 = 0) ⟨.dv n 1 false false, .w 1, .none, .none⟩
    else ok (fn = 1 && fok && imm < 16) ⟨.w 1, .vg n 1, .none, .none⟩
  else if op = 0xB4 then ok (fn = 0 && imm = 0) ⟨.w 1, .ref, .vg 4 1, .w 1⟩
  else if op = 0xB5 then ok (fn = 0 && imm = 0) ⟨.dv 4 1 false false, .ref, .vg 4 1, .none⟩
  else if op = 0xB6 then ok (fn = 0 && imm < 4096) ⟨.dv 4 1 false false, .ref, .vg 4 1, .none⟩
  else if op = 0xB7 then ok (fn = 0 && imm = 0) ⟨.w 1, .vg 3 1, .ref, .w 1⟩
  else if op = 0xB8 then ok (fn = 0) ⟨d1, .v 1, .none, .none⟩
  else if op = 0xB9 then
    ok (fn < 2) ⟨d1, .v 1, if fn = 1 then .v 1 else .none, if fn = 1 then .vz 2 else .none⟩
  else if op = 0xBA then ok (fn < 2 && imm = 0) ⟨.dv 4 1 false false, .v 1, .none, .none⟩
  else none

/-- Barrier, transfer, message, control and trap entries (R124, R271, R339, R360, R376, R418); z is no D of CLK with FN 0, of CSRR.64 and of
PTPNOW, which have a pair or a k register (DESIGN CHOICE, log entry 116). -/
def controlFields (op fn imm : Nat) (dK : Bool) : Option Fields :=
  let ok (b : Bool) (f : Fields) : Option Fields := if b then some f else none
  let n := FK.none
  if op = 0xD0 then ok (fn = 0 && imm = 0) ⟨n, .off, .v 1, n⟩
  else if op = 0xD1 then
    ok (fn ≤ 2 && imm = 0) ⟨.p, .off, if fn = 0 then n else if fn = 1 then .v 1 else .vg 2 2, n⟩
  else if op = 0xD2 then ok (fn ≤ 1 && imm = 0) ⟨.p, .off, .p, .p⟩
  else if op = 0xD3 then ok (fn = 0 && imm = 0) ⟨.p, .off, .p, n⟩
  else if op = 0xD4 then ok (fn = 0 && imm = 0) ⟨n, .off, n, n⟩
  else if op = 0xD5 then ok (fn ≤ 1 && imm = 0) ⟨.dv 1 1 false true, .off, n, n⟩
  else if op = 0xD6 then ok (fn = 0 && imm = 0) ⟨n, .v 1, n, n⟩
  else if op = 0xD7 then ok (fn = 0 && imm = 0) ⟨.p, n, n, n⟩
  else if op = 0xD8 then
    if fn = 0 then ok (imm = 0) ⟨n, .v 1, .v 1, .v 2⟩
    else if fn = 2 then ok (imm = 0) ⟨.dv 2 2 true false, .v 1, n, n⟩
    else ok ((fn = 1 || fn = 3) && imm = 0) ⟨n, .v 1, n, n⟩
  else if op = 0xD9 then ok (fn ≤ 1 && imm < 128) ⟨n, .v 2, .vg 5 1, .v 1⟩
  else if op = 0xDA then
    ok (fn ≤ 1 && imm = 0) ⟨n, .u true, if fn = 0 then .u true else .z, n⟩
  else if op = 0xDB then
    let nw := imm / 256 % 16
    ok (fn ≤ 1 && imm < 4096 && nw ≤ 8) ⟨n, if fn = 0 then .vkl else n, if nw = 0 then .z else .vg nw 1, n⟩
  else if op = 0xE4 then ok (fn = 0 && imm = 0) ⟨n, .v 1, n, n⟩
  else if op = 0xE5 then ok (fn = 0 && imm = 0) ⟨n, n, n, n⟩
  else if op = 0xE6 then ok (fn = 0 && imm < 32768 && imm % 256 ≤ 192 && imm / 256 ≤ 64) ⟨n, n, n, n⟩
  else if op = 0xE7 || op = 0xE9 then ok (fn = 0) ⟨n, n, n, n⟩
  else if op = 0xE8 then ok (fn ≤ 2 && imm = 0) ⟨n, if fn = 2 then .v 1 else n, n, n⟩
  else if op = 0xEA then
    ok (fn ≤ 1 && csrListed imm && !(fn = 1 && dK)) ⟨if fn = 0 then .dv 1 1 true true else .dv 2 2 false false, n, n, n⟩
  else if op = 0xEB then ok (fn ≤ 2 && csrWritable imm) ⟨n, .u true, n, n⟩
  else if op = 0xEC then
    ok (fn ≤ 1 && imm = 0) ⟨if fn = 0 then .dv 2 2 true false else .dv 1 1 true true, n, n, n⟩
  else if op = 0xED then ok (fn = 0 && imm = 0) ⟨.dptp, n, n, n⟩
  else none

/-- The fields of an extended opcode in the format of R63, or none when FN, IMM16 or the opcode is not defined (R64). -/
def extFields (op : Nat) (f : Ext) : Option Fields :=
  let fn := f.fn.toNat
  let imm := f.imm.toNat
  if op ≤ 0x23 then integerFields op fn imm
  else if op < 0x40 then none
  else if op ≤ 0x5E then floatFields op fn imm
  else if op < 0xA0 then none
  else if op ≤ 0xBA then spectralFields op fn imm
  else if op < 0xC0 then none
  else if op ≤ 0xCD then matrixFields op fn imm
  else if op < 0xD0 then none
  else if op ≤ 0xED then controlFields op fn imm (isK f.d)
  else none

/-- The fields of the memory opcodes (R213, R214). -/
def memFields (op : Nat) (f : Mem) : Option Fields :=
  let fn := f.fn.toNat
  let opt := f.opt.toNat
  let w := tb opt 0
  let sc := opt / 2 % 8
  let width := fn % 8
  let noAddr := f.disp = 0 && f.scale = 0
  let idxOk := f.scale.toNat ≤ 4 && (f.scale = 0 || f.b ≠ ⟨cZ, 0, 0⟩)
  let ok (b : Bool) (x : Fields) : Option Fields := if b then some x else none
  let grp := groupRegs width
  let signOk := !(tb fn 3) || width ≤ 1
  if op = 0x80 then ok (width ≤ 4 && signOk && opt ≤ 2 && idxOk) ⟨.dv grp grp false true, .ref, .v 1, .none⟩
  else if op = 0x81 then ok (fn ≤ 4 && opt ≤ 1 && idxOk) ⟨.none, .ref, .v 1, if grp = 1 then .vx 1 else .vg grp grp⟩
  else if op = 0x82 then ok (width ≤ 4 && signOk && opt = 0 && idxOk) ⟨.dv grp grp false true, .off, .v 1, .none⟩
  else if op = 0x83 then ok (fn ≤ 4 && opt = 0 && idxOk) ⟨.none, .off, .v 1, if grp = 1 then .vx 1 else .vg grp grp⟩
  else if op = 0x84 then ok (fn ≤ 3 && opt = 0 && idxOk) ⟨.w (if tb fn 0 then 4 else 1), if tb fn 1 then .off else .ref, .v 1, .none⟩
  else if op = 0x85 then ok (fn ≤ 3 && opt = 0 && idxOk) ⟨.none, if tb fn 1 then .off else .ref, .v 1, .w (if tb fn 0 then 4 else 1)⟩
  else if op = 0x86 then ok (width ≤ 3 && signOk && opt = 0 && idxOk) ⟨.dk, .u false, .u true, .none⟩
  else if op = 0x87 then ok (fn ≤ 3 && opt = 0 && idxOk) ⟨.none, .u false, .u true, .u true⟩
  else if op = 0x88 then ok (fn ≤ 1 && opt = 0 && idxOk) ⟨.none, .ref, .v 1, .none⟩
  else if op = 0x89 then ok (1 ≤ fn && fn ≤ 3 && opt % 2 = 0 && sc ≤ 6 && opt / 2 < 8 && noAddr && opt < 16) ⟨.none, .none, .none, .none⟩
  else if op = 0x8A then
    ok (fn ≤ 9 && !(fn = 9 && w) && opt < 16 && 1 ≤ sc && sc ≤ 6 && idxOk) ⟨.dv (wreg w) (wreg w) false false, .ref, .v 1, .v (wreg w)⟩
  else if op = 0x8B then
    ok (fn ≤ 1 && !(fn = 1 && w) && opt ≤ 1 && f.scale = 0) ⟨.dv (wreg w) (wreg w) false true, .ref, .vk, .v (wreg w)⟩
  else if op = 0x8C then
    ok (fn = 0 && opt < 16 && 1 ≤ sc && sc ≤ 6 && idxOk) ⟨.dv (wreg w) (wreg w) false false, .ref, .v 1, .vg (2 * wreg w) (wreg w)⟩
  else if op = 0x8D then
    ok (fn ≤ 9 && !(fn = 9 && w) && opt < 16 && 1 ≤ sc && sc ≤ 6 && idxOk) ⟨.none, .ref, .v 1, .v (wreg w)⟩
  else if op = 0x8E then ok (fn = 0 && opt = 0 && idxOk) ⟨.none, .ref, .v 1, .v 1⟩
  else if op = 0x8F then ok (fn = 0 && opt = 0 && idxOk) ⟨.dv 1 1 false false, .ref, .v 1, .none⟩
  else if op = 0x90 then ok (fn = 0 && opt = 0 && noAddr) ⟨.dv 1 1 false false, .none, .none, .v 1⟩
  else none

/-- The fields of a sweep (R140). -/
def sweepFields (op : Nat) (f : Sweep) : Option Fields :=
  let fn := f.fn.toNat
  let ok (b : Bool) (x : Fields) : Option Fields := if b then some x else none
  let cnt := f.count ≠ 0
  let nocvt := f.cvtsel = 0
  if op = 0x70 || op = 0x71 then ok (fn ≤ 1 && cnt && nocvt && f.stepC = 0) ⟨.k, .k, .k, .none⟩
  else if op = 0x72 then ok (fn ≤ 1 && cnt && nocvt) ⟨.k, .k, .k, .k⟩
  else if op = 0x73 then ok (fn = 0 && cnt && nocvt && f.stepC = 0) ⟨.k, .k, .k, .none⟩
  else if op = 0x74 then ok (fn = 0 && cnt && cvtselOk f.cvtsel.toNat && f.stepB = 0 && f.stepC = 0) ⟨.k, .k, .none, .none⟩
  else if op = 0x75 then ok (fn = 0 && cnt && nocvt && f.stepB = 0 && f.stepC = 0) ⟨.k, .k, .none, .none⟩
  else if op = 0x76 then ok (fn = 0 && cnt && nocvt && f.stepD = 0 && f.stepB = 0 && f.stepC = 0) ⟨.dv 1 1 false false, .k, .none, .none⟩
  else none

/-! ## The encoding rules -/

/-- Whether a non-identity pattern may stand on a field of this use with this code (R70): v and w sources only. -/
def patternAllowed (u : FK) (c : Code) : Bool :=
  match u with
  | .v _ | .vg _ _ | .vz _ | .ref | .off | .vk | .vkl | .u _ => isV c
  | .w _ => true
  | _ => false

/-- The encoding rules of a source field (R64, R67, R70), with `lit` the presence of a literal. -/
def srcOk (u : FK) (s : Src) (lit : Bool) : Bool :=
  if u = .none then s = ⟨0, 0, 0⟩
  else
    (s.pat.toNat ≤ 5) && (s.pat ≠ 0 || s.par = 0) && (s.pat = 0 || patternAllowed u s.code)
      && (s.code ≠ cLit || lit)

/-- The encoding rules of a destination field (R64, R67, R68): 0xFF never, lane and tix never in the v namespace. -/
def dstOk (u : FK) (c : Code) : Bool :=
  match u with
  | .none => c = 0
  | .dv _ _ _ _ | .dk | .dptp => c ≠ cLit && c ≠ cLane && c ≠ cTix
  | _ => c ≠ cLit

/-- Guard "always" (R65). -/
def Guard.always (g : Guard) : Bool := !g.neg && g.p = 0

/-- Whether an instruction is a uniform step by its opcode and destination (R69, R113). -/
def isUniform (op : Nat) (u : FK) (d : Code) : Bool :=
  op = 0xEB || op = 0xDA || op = 0x86 || op = 0x87 ||
    (match u with
     | .dv _ _ kOk _ => kOk && isK d
     | .dptp => isK d
     | _ => false)

/-- The encoding rules of the extended format (R64, R65, R67, R386, R362). -/
def extOk (op : Nat) (f : Ext) : Bool :=
  match extFields op f with
  | none => false
  | some u =>
    (f.la = 0 || longLatency op) && dstOk u.d f.d && srcOk u.a f.a f.lit.isSome && srcOk u.b f.b f.lit.isSome
      && srcOk u.c f.c f.lit.isSome
      && (Guard.always f.g || !(isUniform op u.d f.d || op = 0xD7 || op = 0xE8))

/-- The encoding rules of the memory format (R213, R223, R232). -/
def memOk (op : Nat) (f : Mem) : Bool :=
  match memFields op f with
  | none => false
  | some u =>
    dstOk u.d f.d && srcOk u.a f.a f.lit.isSome && srcOk u.b f.b f.lit.isSome && srcOk u.c ⟨f.c, 0, 0⟩ f.lit.isSome
      && (Guard.always f.g || !(isUniform op u.d f.d))
      && (op ≠ 0x89 || f.la = 0) && (op ≠ 0x8B || (!f.g.neg && f.g.p ≠ 0))

/-- The encoding rules of a branch (R66, R116): BRA has no D, A belongs to BRX and CALLX. -/
def branchOk (op : Nat) (f : Branch) : Bool :=
  f.off.toNat % 4 = 0
    && (if op = 0xE0 || op = 0xE1 then f.d = 0 else dstOk (.dv 1 1 false true) f.d)
    && (if op = 0xE1 || op = 0xE3 then f.a ≠ cLit || f.lit.isSome else f.a = 0)

/-- The encoding rules of a sweep (R140). -/
def sweepOk (op : Nat) (f : Sweep) : Bool :=
  match sweepFields op f with
  | none => false
  | some u =>
    dstOk u.d f.d && (if u.a = .none then f.a = 0 else f.a ≠ cLit) && (if u.b = .none then f.b = 0 else f.b ≠ cLit)
      && (if u.c = .none then f.c = 0 else f.c ≠ cLit)

/-- The encoding rules of the base words (R58–R62). `dv` tells the v-namespace code rules of D. -/
def baseDst (c : Code) : Bool := dstOk (.dv 1 1 true true) c
def baseSrc (c : Code) : Bool := c ≠ cLit

/-- Use of the fields of a transfer word (R250): true where a field is used. -/
structure XpUse where
  d : Bool
  a : Bool
  b : Bool
  sg : Bool
  dg : Bool
  fl : Nat → Bool
  imm : Bool

/-- The table of R250. -/
def xpUse (op : Nat) : Option XpUse :=
  let z : Nat → Bool := fun n => n = 0
  let b0 : Nat → Bool := fun n => n ≤ 1
  if op = 0x00 then some ⟨false, false, false, false, false, z, false⟩
  else if op = 0x01 then some ⟨true, false, false, false, false, b0, true⟩
  else if op = 0x03 then some ⟨true, true, false, false, false, z, true⟩
  else if op ≤ 0x09 then some ⟨true, true, true, false, false, z, false⟩
  else if op = 0x0A then some ⟨true, true, true, false, false, b0, false⟩
  else if op = 0x0B then some ⟨false, false, false, false, false, z, true⟩
  else if op = 0x0C || op = 0x0D then some ⟨false, true, true, false, false, z, true⟩
  else if op = 0x0E || op = 0x0F then some ⟨false, true, true, false, false, b0, true⟩
  else if op = 0x10 then some ⟨false, true, false, false, false, z, true⟩
  else if op = 0x11 then some ⟨false, false, false, false, false, z, false⟩
  else if op = 0x12 then some ⟨true, true, false, false, false, fun n => n % 4 ≠ 3, true⟩
  else if op = 0x13 then some ⟨false, true, true, false, false, fun n => n % 4 ≠ 3, true⟩
  else if op = 0x14 then some ⟨false, true, false, false, true, fun n => n = 0 || n = 4, true⟩
  else if op = 0x15 then some ⟨false, true, false, false, true, z, false⟩
  else if op = 0x16 then some ⟨true, true, false, false, true, b0, true⟩
  else if op = 0x17 then some ⟨true, true, false, true, true, z, true⟩
  else if op = 0x18 || op = 0x19 then some ⟨true, true, true, true, true, z, true⟩
  else if op = 0x1A then some ⟨true, true, false, true, false, z, false⟩
  else if op = 0x1B then some ⟨true, true, false, true, true, z, true⟩
  else if op = 0x1C then some ⟨false, true, true, false, false, z, true⟩
  else if op = 0x1D then some ⟨false, true, false, false, false, z, false⟩
  else if op = 0x1E then some ⟨false, true, true, false, false, b0, false⟩
  else if op = 0x1F then some ⟨false, true, true, false, false, fun n => n = 0 || n = 4, true⟩
  else if op = 0x20 then some ⟨false, false, false, false, false, z, true⟩
  else if op = 0x22 then some ⟨false, false, false, false, false, z, true⟩
  else if op ≤ 0x23 then some ⟨false, false, false, false, false, z, false⟩
  else none

/-- The encoding rules of a transfer word (R249, R250, R144, R262, R264). -/
def xpOk (op : Nat) (f : Xp) : Bool :=
  match xpUse op with
  | none => false
  | some u =>
    (u.d || f.d = 0) && (u.a || f.a = 0) && (u.b || f.b = 0) && (u.sg || f.sg = 0) && (u.dg || f.dg = 0) && u.fl f.fl.toNat
      && (u.imm || f.imm = 0)
      && (!(op = 0x16 || op = 0x17 || op = 0x18 || op = 0x19) || f.a = 0 || f.imm = 0)
      && (op ≠ 0x1B || cvtselOk f.imm.toNat)
      && (op ≠ 0x1A || f.d.toNat ≤ 15)
      && (op ≠ 0x20 || f.imm.toNat < 32)

/-! ## The opcode maps -/

/-- The form of an instruction's words. -/
inductive Form where
  | baseNone (op : Nat)
  | base1 (op : Nat) (f : Base1)
  | base2 (op : Nat) (f : Base2)
  | imm8 (op : Nat) (f : BaseImm8)
  | shift (op : Nat) (f : BaseShift)
  | imm16 (op : Nat) (f : BaseImm16)
  | baseBr (op : Nat) (f : BaseBranch)
  | baseRet (a : Code)
  | baseLit (op : Nat) (f : BaseLit)
  | ext (op : Nat) (f : Ext)
  | mem (op : Nat) (f : Mem)
  | br (op : Nat) (f : Branch)
  | sweep (op : Nat) (f : Sweep)
  | xp (op : Nat) (f : Xp)
  | event
  deriving DecidableEq, Repr

/-- The form of an instruction: its opcode in the maps of R59, R61, R75 and R250 and its fields; a device event has no words. -/
def formOf : Instr → Form
  | .nop => .baseNone 0
  | .movBase f => .base1 0x01 f
  | .iaddBase f => .base2 0x02 f
  | .isubBase f => .base2 0x03 f
  | .imulBase f => .base2 0x04 f
  | .andBase f => .base2 0x05 f
  | .orBase f => .base2 0x06 f
  | .xorBase f => .base2 0x07 f
  | .andnBase f => .base2 0x08 f
  | .shlBase f => .base2 0x09 f
  | .shrNBase f => .base2 0x0A f
  | .shrSBase f => .base2 0x0B f
  | .iminSBase f => .base2 0x0C f
  | .imaxSBase f => .base2 0x0D f
  | .iminNBase f => .base2 0x0E f
  | .imaxNBase f => .base2 0x0F f
  | .faddBase f => .base2 0x10 f
  | .fsubBase f => .base2 0x11 f
  | .fmulBase f => .base2 0x12 f
  | .fminBase f => .base2 0x13 f
  | .fmaxBase f => .base2 0x14 f
  | .clzBase f => .base1 0x15 f
  | .ctzBase f => .base1 0x16 f
  | .popcBase f => .base1 0x17 f
  | .brevBase f => .base1 0x18 f
  | .rolBase f => .base2 0x19 f
  | .rorBase f => .base2 0x1A f
  | .iaddBaseImm f => .imm8 0x1B f
  | .shlBaseImm f => .shift 0x1C f
  | .shrNBaseImm f => .shift 0x1D f
  | .shrSBaseImm f => .shift 0x1E f
  | .andBaseImm f => .imm8 0x1F f
  | .orBaseImm f => .imm8 0x20 f
  | .xorBaseImm f => .imm8 0x21 f
  | .movi f => .imm16 0x22 f
  | .movhi f => .imm16 0x23 f
  | .braBase f => .baseBr 0x3C f
  | .callBase f => .baseBr 0x3D f
  | .retBase a => .baseRet a
  | .exitBase => .baseNone 63
  | .iaddBaseLit f => .baseLit 0x02 f
  | .isubBaseLit f => .baseLit 0x03 f
  | .imulBaseLit f => .baseLit 0x04 f
  | .andBaseLit f => .baseLit 0x05 f
  | .orBaseLit f => .baseLit 0x06 f
  | .xorBaseLit f => .baseLit 0x07 f
  | .andnBaseLit f => .baseLit 0x08 f
  | .shlBaseLit f => .baseLit 0x09 f
  | .shrNBaseLit f => .baseLit 0x0A f
  | .shrSBaseLit f => .baseLit 0x0B f
  | .iminSBaseLit f => .baseLit 0x0C f
  | .imaxSBaseLit f => .baseLit 0x0D f
  | .iminNBaseLit f => .baseLit 0x0E f
  | .imaxNBaseLit f => .baseLit 0x0F f
  | .faddBaseLit f => .baseLit 0x10 f
  | .fsubBaseLit f => .baseLit 0x11 f
  | .fmulBaseLit f => .baseLit 0x12 f
  | .fminBaseLit f => .baseLit 0x13 f
  | .fmaxBaseLit f => .baseLit 0x14 f
  | .rolBaseLit f => .baseLit 0x19 f
  | .rorBaseLit f => .baseLit 0x1A f
  | .iadd f => .ext 0x00 f
  | .isub f => .ext 0x01 f
  | .imul f => .ext 0x02 f
  | .imulh f => .ext 0x03 f
  | .imad f => .ext 0x04 f
  | .imin f => .ext 0x05 f
  | .imax f => .ext 0x06 f
  | .iabs f => .ext 0x07 f
  | .ineg f => .ext 0x08 f
  | .and f => .ext 0x09 f
  | .or f => .ext 0x0A f
  | .xor f => .ext 0x0B f
  | .andn f => .ext 0x0C f
  | .shl f => .ext 0x0D f
  | .shr f => .ext 0x0E f
  | .rol f => .ext 0x0F f
  | .ror f => .ext 0x10 f
  | .clz f => .ext 0x11 f
  | .ctz f => .ext 0x12 f
  | .popc f => .ext 0x13 f
  | .brev f => .ext 0x14 f
  | .bfx f => .ext 0x15 f
  | .bfi f => .ext 0x16 f
  | .bitil f => .ext 0x17 f
  | .bitdil f => .ext 0x18 f
  | .sel f => .ext 0x19 f
  | .mov f => .ext 0x1A f
  | .isetp f => .ext 0x1B f
  | .plop f => .ext 0x1C f
  | .vote f => .ext 0x1D f
  | .cvt f => .ext 0x1E f
  | .pack f => .ext 0x1F f
  | .unpack f => .ext 0x20 f
  | .refmk f => .ext 0x21 f
  | .refadd f => .ext 0x22 f
  | .refget f => .ext 0x23 f
  | .fadd f => .ext 0x40 f
  | .fsub f => .ext 0x41 f
  | .fmul f => .ext 0x42 f
  | .ffma f => .ext 0x43 f
  | .fmin f => .ext 0x44 f
  | .fmax f => .ext 0x45 f
  | .fsetp f => .ext 0x46 f
  | .frnd f => .ext 0x47 f
  | .fclass f => .ext 0x48 f
  | .ftwosum f => .ext 0x49 f
  | .ftwoprod f => .ext 0x4A f
  | .fdivR f => .ext 0x4B f
  | .fsqrtR f => .ext 0x4C f
  | .rcpF f => .ext 0x4D f
  | .rcpR f => .ext 0x4E f
  | .rsqF f => .ext 0x4F f
  | .rsqR f => .ext 0x50 f
  | .exp2F f => .ext 0x51 f
  | .exp2R f => .ext 0x52 f
  | .log2F f => .ext 0x53 f
  | .log2R f => .ext 0x54 f
  | .sinpiF f => .ext 0x55 f
  | .sinpiR f => .ext 0x56 f
  | .cospiF f => .ext 0x57 f
  | .cospiR f => .ext 0x58 f
  | .tanhF f => .ext 0x59 f
  | .tanhR f => .ext 0x5A f
  | .hfma2 f => .ext 0x5B f
  | .hadd2 f => .ext 0x5C f
  | .hmul2 f => .ext 0x5D f
  | .bfma2 f => .ext 0x5E f
  | .swFadd f => .sweep 0x70 f
  | .swFmul f => .sweep 0x71 f
  | .swFfma f => .sweep 0x72 f
  | .swFmax f => .sweep 0x73 f
  | .swCvt f => .sweep 0x74 f
  | .swCopy f => .sweep 0x75 f
  | .swSum f => .sweep 0x76 f
  | .ld f => .mem 0x80 f
  | .st f => .mem 0x81 f
  | .lds f => .mem 0x82 f
  | .sts f => .mem 0x83 f
  | .ldw f => .mem 0x84 f
  | .stw f => .mem 0x85 f
  | .uld f => .mem 0x86 f
  | .ust f => .mem 0x87 f
  | .pref f => .mem 0x88 f
  | .fence f => .mem 0x89 f
  | .atom f => .mem 0x8A f
  | .atomb f => .mem 0x8B f
  | .cas f => .mem 0x8C f
  | .red f => .mem 0x8D f
  | .filmadd f => .mem 0x8E f
  | .monarm f => .mem 0x8F f
  | .monwait f => .mem 0x90 f
  | .wadd f => .ext 0xA0 f
  | .wsub f => .ext 0xA1 f
  | .wmul f => .ext 0xA2 f
  | .wfma f => .ext 0xA3 f
  | .wmin f => .ext 0xA4 f
  | .wmax f => .ext 0xA5 f
  | .wsel f => .ext 0xA6 f
  | .wmov f => .ext 0xA7 f
  | .wext f => .ext 0xA8 f
  | .wins f => .ext 0xA9 f
  | .wlambda f => .ext 0xAA f
  | .wsum f => .ext 0xAB f
  | .wxyz f => .ext 0xAC f
  | .wmueller f => .ext 0xAD f
  | .wrcpF f => .ext 0xAE f
  | .wrcpR f => .ext 0xAF f
  | .wexp2F f => .ext 0xB0 f
  | .wexp2R f => .ext 0xB1 f
  | .wsetp f => .ext 0xB2 f
  | .wcvt f => .ext 0xB3 f
  | .samplew f => .ext 0xB4 f
  | .sample f => .ext 0xB5 f
  | .texld f => .ext 0xB6 f
  | .specup f => .ext 0xB7 f
  | .trace f => .ext 0xB8 f
  | .trcont f => .ext 0xB9 f
  | .trget f => .ext 0xBA f
  | .mxbld f => .ext 0xC0 f
  | .mxmE4m3 f => .ext 0xC1 f
  | .mxmE5m2 f => .ext 0xC2 f
  | .mxmE2m1 f => .ext 0xC3 f
  | .mxmI8g f => .ext 0xC4 f
  | .mxmI4g f => .ext 0xC5 f
  | .mxmBf16 f => .ext 0xC6 f
  | .mxmF16 f => .ext 0xC7 f
  | .mxmv f => .ext 0xC8 f
  | .mxz f => .ext 0xC9 f
  | .mxrd f => .ext 0xCA f
  | .mxwr f => .ext 0xCB f
  | .mxst f => .ext 0xCC f
  | .mxqry f => .ext 0xCD f
  | .barinit f => .ext 0xD0 f
  | .bararv f => .ext 0xD1 f
  | .barwait f => .ext 0xD2 f
  | .bartest f => .ext 0xD3 f
  | .barinv f => .ext 0xD4 f
  | .barqry f => .ext 0xD5 f
  | .sync f => .ext 0xD6 f
  | .phase f => .ext 0xD7 f
  | .xprunStart f => .ext 0xD8 f
  | .xprunResume f => .ext 0xD8 f
  | .xprunQry f => .ext 0xD8 f
  | .xprunKill f => .ext 0xD8 f
  | .tcopy f => .ext 0xD9 f
  | .qmapBind f => .ext 0xDA f
  | .qmapUnbind f => .ext 0xDA f
  | .amsend f => .ext 0xDB f
  | .bra f => .br 0xE0 f
  | .brx f => .br 0xE1 f
  | .call f => .br 0xE2 f
  | .callx f => .br 0xE3 f
  | .ret f => .ext 0xE4 f
  | .exit f => .ext 0xE5 f
  | .yield f => .ext 0xE6 f
  | .trap f => .ext 0xE7 f
  | .tret f => .ext 0xE8 f
  | .brk f => .ext 0xE9 f
  | .csrr f => .ext 0xEA f
  | .csrw f => .ext 0xEB f
  | .clk f => .ext 0xEC f
  | .ptpnow f => .ext 0xED f
  | .xnop f => .xp 0x00 f
  | .xli f => .xp 0x01 f
  | .xadd f => .xp 0x02 f
  | .xaddi f => .xp 0x03 f
  | .xsub f => .xp 0x04 f
  | .xmul f => .xp 0x05 f
  | .xand f => .xp 0x06 f
  | .xior f => .xp 0x07 f
  | .xxor f => .xp 0x08 f
  | .xshl f => .xp 0x09 f
  | .xshr f => .xp 0x0A f
  | .xb f => .xp 0x0B f
  | .xbeq f => .xp 0x0C f
  | .xbne f => .xp 0x0D f
  | .xblt f => .xp 0x0E f
  | .xbge f => .xp 0x0F f
  | .xloop f => .xp 0x10 f
  | .xlend f => .xp 0x11 f
  | .xld f => .xp 0x12 f
  | .xst f => .xp 0x13 f
  | .xgset f => .xp 0x14 f
  | .xgpos f => .xp 0x15 f
  | .xgstep f => .xp 0x16 f
  | .xcopy f => .xp 0x17 f
  | .xgath f => .xp 0x18 f
  | .xmcast f => .xp 0x19 f
  | .xqpush f => .xp 0x1A f
  | .xconv f => .xp 0x1B f
  | .xbarv f => .xp 0x1C f
  | .xbwait f => .xp 0x1D f
  | .xmxm f => .xp 0x1E f
  | .xstamp f => .xp 0x1F f
  | .xqfence f => .xp 0x20 f
  | .xwait f => .xp 0x21 f
  | .xtrap f => .xp 0x22 f
  | .xexit f => .xp 0x23 f
  | _ => .event

/-- The instruction of an opcode: base words of one source (R59). -/
def base1Instr (op : Nat) (f : Base1) : Option Instr :=
  match op with
  | 0x01 => some (.movBase f)
  | 0x15 => some (.clzBase f)
  | 0x16 => some (.ctzBase f)
  | 0x17 => some (.popcBase f)
  | 0x18 => some (.brevBase f)
  | _ => none

/-- The instruction of an opcode: base words of two sources (R59). -/
def base2Instr (op : Nat) (f : Base2) : Option Instr :=
  match op with
  | 0x02 => some (.iaddBase f)
  | 0x03 => some (.isubBase f)
  | 0x04 => some (.imulBase f)
  | 0x05 => some (.andBase f)
  | 0x06 => some (.orBase f)
  | 0x07 => some (.xorBase f)
  | 0x08 => some (.andnBase f)
  | 0x09 => some (.shlBase f)
  | 0x0A => some (.shrNBase f)
  | 0x0B => some (.shrSBase f)
  | 0x0C => some (.iminSBase f)
  | 0x0D => some (.imaxSBase f)
  | 0x0E => some (.iminNBase f)
  | 0x0F => some (.imaxNBase f)
  | 0x10 => some (.faddBase f)
  | 0x11 => some (.fsubBase f)
  | 0x12 => some (.fmulBase f)
  | 0x13 => some (.fminBase f)
  | 0x14 => some (.fmaxBase f)
  | 0x19 => some (.rolBase f)
  | 0x1A => some (.rorBase f)
  | _ => none

/-- The instruction of an opcode: base words with an 8-bit immediate (R59). -/
def imm8Instr (op : Nat) (f : BaseImm8) : Option Instr :=
  match op with
  | 0x1B => some (.iaddBaseImm f)
  | 0x1F => some (.andBaseImm f)
  | 0x20 => some (.orBaseImm f)
  | 0x21 => some (.xorBaseImm f)
  | _ => none

/-- The instruction of an opcode: base shifts by an immediate (R60). -/
def shiftInstr (op : Nat) (f : BaseShift) : Option Instr :=
  match op with
  | 0x1C => some (.shlBaseImm f)
  | 0x1D => some (.shrNBaseImm f)
  | 0x1E => some (.shrSBaseImm f)
  | _ => none

/-- The instruction of an opcode: MOVI and MOVHI (R60). -/
def imm16Instr (op : Nat) (f : BaseImm16) : Option Instr :=
  match op with
  | 0x22 => some (.movi f)
  | 0x23 => some (.movhi f)
  | _ => none

/-- The instruction of an opcode: base BRA and CALL (R61). -/
def baseBrInstr (op : Nat) (f : BaseBranch) : Option Instr :=
  match op with
  | 0x3C => some (.braBase f)
  | 0x3D => some (.callBase f)
  | _ => none

/-- The instruction of an opcode: base words with a literal (R62). -/
def baseLitInstr (op : Nat) (f : BaseLit) : Option Instr :=
  match op with
  | 0x02 => some (.iaddBaseLit f)
  | 0x03 => some (.isubBaseLit f)
  | 0x04 => some (.imulBaseLit f)
  | 0x05 => some (.andBaseLit f)
  | 0x06 => some (.orBaseLit f)
  | 0x07 => some (.xorBaseLit f)
  | 0x08 => some (.andnBaseLit f)
  | 0x09 => some (.shlBaseLit f)
  | 0x0A => some (.shrNBaseLit f)
  | 0x0B => some (.shrSBaseLit f)
  | 0x0C => some (.iminSBaseLit f)
  | 0x0D => some (.imaxSBaseLit f)
  | 0x0E => some (.iminNBaseLit f)
  | 0x0F => some (.imaxNBaseLit f)
  | 0x10 => some (.faddBaseLit f)
  | 0x11 => some (.fsubBaseLit f)
  | 0x12 => some (.fmulBaseLit f)
  | 0x13 => some (.fminBaseLit f)
  | 0x14 => some (.fmaxBaseLit f)
  | 0x19 => some (.rolBaseLit f)
  | 0x1A => some (.rorBaseLit f)
  | _ => none

/-- The instruction of an opcode: memory format (R212). -/
def memInstr (op : Nat) (f : Mem) : Option Instr :=
  match op with
  | 0x80 => some (.ld f)
  | 0x81 => some (.st f)
  | 0x82 => some (.lds f)
  | 0x83 => some (.sts f)
  | 0x84 => some (.ldw f)
  | 0x85 => some (.stw f)
  | 0x86 => some (.uld f)
  | 0x87 => some (.ust f)
  | 0x88 => some (.pref f)
  | 0x89 => some (.fence f)
  | 0x8A => some (.atom f)
  | 0x8B => some (.atomb f)
  | 0x8C => some (.cas f)
  | 0x8D => some (.red f)
  | 0x8E => some (.filmadd f)
  | 0x8F => some (.monarm f)
  | 0x90 => some (.monwait f)
  | _ => none

/-- The instruction of an opcode: branch form (R66). -/
def brInstr (op : Nat) (f : Branch) : Option Instr :=
  match op with
  | 0xE0 => some (.bra f)
  | 0xE1 => some (.brx f)
  | 0xE2 => some (.call f)
  | 0xE3 => some (.callx f)
  | _ => none

/-- The instruction of an opcode: sweep form (R140). -/
def sweepInstr (op : Nat) (f : Sweep) : Option Instr :=
  match op with
  | 0x70 => some (.swFadd f)
  | 0x71 => some (.swFmul f)
  | 0x72 => some (.swFfma f)
  | 0x73 => some (.swFmax f)
  | 0x74 => some (.swCvt f)
  | 0x75 => some (.swCopy f)
  | 0x76 => some (.swSum f)
  | _ => none

/-- The instruction of an opcode: transfer words (R250). Noncomputable because the compiler has no tag for a constructor this far down a list of 370
(PRESUMED, log entry 85). -/
noncomputable def xpInstr (op : Nat) (f : Xp) : Option Instr :=
  match op with
  | 0x00 => some (.xnop f)
  | 0x01 => some (.xli f)
  | 0x02 => some (.xadd f)
  | 0x03 => some (.xaddi f)
  | 0x04 => some (.xsub f)
  | 0x05 => some (.xmul f)
  | 0x06 => some (.xand f)
  | 0x07 => some (.xior f)
  | 0x08 => some (.xxor f)
  | 0x09 => some (.xshl f)
  | 0x0A => some (.xshr f)
  | 0x0B => some (.xb f)
  | 0x0C => some (.xbeq f)
  | 0x0D => some (.xbne f)
  | 0x0E => some (.xblt f)
  | 0x0F => some (.xbge f)
  | 0x10 => some (.xloop f)
  | 0x11 => some (.xlend f)
  | 0x12 => some (.xld f)
  | 0x13 => some (.xst f)
  | 0x14 => some (.xgset f)
  | 0x15 => some (.xgpos f)
  | 0x16 => some (.xgstep f)
  | 0x17 => some (.xcopy f)
  | 0x18 => some (.xgath f)
  | 0x19 => some (.xmcast f)
  | 0x1A => some (.xqpush f)
  | 0x1B => some (.xconv f)
  | 0x1C => some (.xbarv f)
  | 0x1D => some (.xbwait f)
  | 0x1E => some (.xmxm f)
  | 0x1F => some (.xstamp f)
  | 0x20 => some (.xqfence f)
  | 0x21 => some (.xwait f)
  | 0x22 => some (.xtrap f)
  | 0x23 => some (.xexit f)
  | _ => none

/-- The instruction of an extended opcode in the format of R63; XPRUN and QMAP are told apart by FN (R271). -/
def extInstr (op : Nat) (f : Ext) : Option Instr :=
  match op with
  | 0x00 => some (.iadd f)
  | 0x01 => some (.isub f)
  | 0x02 => some (.imul f)
  | 0x03 => some (.imulh f)
  | 0x04 => some (.imad f)
  | 0x05 => some (.imin f)
  | 0x06 => some (.imax f)
  | 0x07 => some (.iabs f)
  | 0x08 => some (.ineg f)
  | 0x09 => some (.and f)
  | 0x0A => some (.or f)
  | 0x0B => some (.xor f)
  | 0x0C => some (.andn f)
  | 0x0D => some (.shl f)
  | 0x0E => some (.shr f)
  | 0x0F => some (.rol f)
  | 0x10 => some (.ror f)
  | 0x11 => some (.clz f)
  | 0x12 => some (.ctz f)
  | 0x13 => some (.popc f)
  | 0x14 => some (.brev f)
  | 0x15 => some (.bfx f)
  | 0x16 => some (.bfi f)
  | 0x17 => some (.bitil f)
  | 0x18 => some (.bitdil f)
  | 0x19 => some (.sel f)
  | 0x1A => some (.mov f)
  | 0x1B => some (.isetp f)
  | 0x1C => some (.plop f)
  | 0x1D => some (.vote f)
  | 0x1E => some (.cvt f)
  | 0x1F => some (.pack f)
  | 0x20 => some (.unpack f)
  | 0x21 => some (.refmk f)
  | 0x22 => some (.refadd f)
  | 0x23 => some (.refget f)
  | 0x40 => some (.fadd f)
  | 0x41 => some (.fsub f)
  | 0x42 => some (.fmul f)
  | 0x43 => some (.ffma f)
  | 0x44 => some (.fmin f)
  | 0x45 => some (.fmax f)
  | 0x46 => some (.fsetp f)
  | 0x47 => some (.frnd f)
  | 0x48 => some (.fclass f)
  | 0x49 => some (.ftwosum f)
  | 0x4A => some (.ftwoprod f)
  | 0x4B => some (.fdivR f)
  | 0x4C => some (.fsqrtR f)
  | 0x4D => some (.rcpF f)
  | 0x4E => some (.rcpR f)
  | 0x4F => some (.rsqF f)
  | 0x50 => some (.rsqR f)
  | 0x51 => some (.exp2F f)
  | 0x52 => some (.exp2R f)
  | 0x53 => some (.log2F f)
  | 0x54 => some (.log2R f)
  | 0x55 => some (.sinpiF f)
  | 0x56 => some (.sinpiR f)
  | 0x57 => some (.cospiF f)
  | 0x58 => some (.cospiR f)
  | 0x59 => some (.tanhF f)
  | 0x5A => some (.tanhR f)
  | 0x5B => some (.hfma2 f)
  | 0x5C => some (.hadd2 f)
  | 0x5D => some (.hmul2 f)
  | 0x5E => some (.bfma2 f)
  | 0xA0 => some (.wadd f)
  | 0xA1 => some (.wsub f)
  | 0xA2 => some (.wmul f)
  | 0xA3 => some (.wfma f)
  | 0xA4 => some (.wmin f)
  | 0xA5 => some (.wmax f)
  | 0xA6 => some (.wsel f)
  | 0xA7 => some (.wmov f)
  | 0xA8 => some (.wext f)
  | 0xA9 => some (.wins f)
  | 0xAA => some (.wlambda f)
  | 0xAB => some (.wsum f)
  | 0xAC => some (.wxyz f)
  | 0xAD => some (.wmueller f)
  | 0xAE => some (.wrcpF f)
  | 0xAF => some (.wrcpR f)
  | 0xB0 => some (.wexp2F f)
  | 0xB1 => some (.wexp2R f)
  | 0xB2 => some (.wsetp f)
  | 0xB3 => some (.wcvt f)
  | 0xB4 => some (.samplew f)
  | 0xB5 => some (.sample f)
  | 0xB6 => some (.texld f)
  | 0xB7 => some (.specup f)
  | 0xB8 => some (.trace f)
  | 0xB9 => some (.trcont f)
  | 0xBA => some (.trget f)
  | 0xC0 => some (.mxbld f)
  | 0xC1 => some (.mxmE4m3 f)
  | 0xC2 => some (.mxmE5m2 f)
  | 0xC3 => some (.mxmE2m1 f)
  | 0xC4 => some (.mxmI8g f)
  | 0xC5 => some (.mxmI4g f)
  | 0xC6 => some (.mxmBf16 f)
  | 0xC7 => some (.mxmF16 f)
  | 0xC8 => some (.mxmv f)
  | 0xC9 => some (.mxz f)
  | 0xCA => some (.mxrd f)
  | 0xCB => some (.mxwr f)
  | 0xCC => some (.mxst f)
  | 0xCD => some (.mxqry f)
  | 0xD0 => some (.barinit f)
  | 0xD1 => some (.bararv f)
  | 0xD2 => some (.barwait f)
  | 0xD3 => some (.bartest f)
  | 0xD4 => some (.barinv f)
  | 0xD5 => some (.barqry f)
  | 0xD6 => some (.sync f)
  | 0xD7 => some (.phase f)
  | 0xD9 => some (.tcopy f)
  | 0xDB => some (.amsend f)
  | 0xE4 => some (.ret f)
  | 0xE5 => some (.exit f)
  | 0xE6 => some (.yield f)
  | 0xE7 => some (.trap f)
  | 0xE8 => some (.tret f)
  | 0xE9 => some (.brk f)
  | 0xEA => some (.csrr f)
  | 0xEB => some (.csrw f)
  | 0xEC => some (.clk f)
  | 0xED => some (.ptpnow f)
  | 0xD8 =>
    match f.fn.toNat with
    | 0 => some (.xprunStart f)
    | 1 => some (.xprunResume f)
    | 2 => some (.xprunQry f)
    | 3 => some (.xprunKill f)
    | _ => none
  | 0xDA =>
    match f.fn.toNat with
    | 0 => some (.qmapBind f)
    | 1 => some (.qmapUnbind f)
    | _ => none
  | _ => none
/-- Whether XPRUN's and QMAP's FN names the constructor's own form (R271). -/
def fnNamed (i : Instr) : Bool :=
  match i with
  | .xprunStart f => f.fn = 0
  | .xprunResume f => f.fn = 1
  | .xprunQry f => f.fn = 2
  | .xprunKill f => f.fn = 3
  | .qmapBind f => f.fn = 0
  | .qmapUnbind f => f.fn = 1
  | _ => true

/-- The encoding rules of a form. An event has no encoding and breaks none. -/
def formOk : Form → Bool
  | .baseNone _ => true
  | .base1 _ f => baseDst f.d && baseSrc f.a
  | .base2 _ f => baseDst f.d && baseSrc f.a && baseSrc f.b
  | .imm8 _ f => baseDst f.d && baseSrc f.a
  | .shift _ f => baseDst f.d && baseSrc f.a
  | .imm16 _ f => baseDst f.d
  | .baseBr _ _ => true
  | .baseRet a => baseSrc a
  | .baseLit _ f => baseDst f.d && baseSrc f.a
  | .ext op f => extOk op f
  | .mem op f => memOk op f
  | .br op f => branchOk op f
  | .sweep op f => sweepOk op f
  | .xp op f => xpOk op f
  | .event => true

/-- The use of the fields of any fetched instruction, for the checks made at issue (R68, R74) (DEDUCED, log entry 89). -/
def fieldsOf : Form → Fields
  | .base1 op f => ⟨if op ≤ 0x01 then .dv 1 1 true true else .dv 1 1 true true, .v (if isK f.d then 2 else 1), .none, .none⟩
  | .base2 op f =>
    let n := if isK f.d then 2 else 1
    ⟨.dv 1 1 (decide (op < 0x10 ∨ op > 0x14)) true, .v n, .v n, .none⟩
  | .imm8 _ f => ⟨.dv 1 1 true true, .v (if isK f.d then 2 else 1), .none, .none⟩
  | .shift _ f => ⟨.dv 1 1 true true, .v (if isK f.d then 2 else 1), .none, .none⟩
  | .imm16 _ _ => ⟨.dv 1 1 true true, .none, .none, .none⟩
  | .baseLit op f => ⟨.dv 1 1 (decide (op < 0x10 ∨ op > 0x14)) true, .v (if isK f.d then 2 else 1), .none, .none⟩
  | .baseRet _ => ⟨.none, .v 1, .none, .none⟩
  | .ext op f => (extFields op f).getD ⟨.none, .none, .none, .none⟩
  | .mem op f => (memFields op f).getD ⟨.none, .none, .none, .none⟩
  | .br op _ =>
    ⟨if op = 0xE2 || op = 0xE3 then .dv 1 1 false true else .none, if op = 0xE1 || op = 0xE3 then .v 1 else .none, .none, .none⟩
  | .sweep op f => (sweepFields op f).getD ⟨.none, .none, .none, .none⟩
  | _ => ⟨.none, .none, .none, .none⟩

end Sys2Proof.Machine
end

