-- ==== Sys2Proof/WellFormed.lean ====
section
/-! DEFINITION. Which instructions the encodings of Camdon 3 can write: no ILLEGAL_INSTR or XP_ILLEGAL by the words alone. -/
namespace Sys2Proof

/-- The instruction breaks no encoding rule (R58–R67, R249). A device event, which has no words, is well-formed. -/
def Instr.wellFormed (i : Instr) : Bool := Machine.formOk (Machine.formOf i) && Machine.fnNamed i

/-- The instruction has words: it is fetched, not an event of the device. -/
def Instr.fetched (i : Instr) : Bool := Machine.formOf i ≠ .event

end Sys2Proof
end

