-- ==== Sys2Proof/Decode.lean ====
section
/-! DEFINITION. Decoding and encoding: instruction words (R55–R67, R140, R212) and transfer words (R249). Both are written
from the layout tables of the spec. Decoding is total on any words and rejects by name. -/
namespace Sys2Proof
open Machine

/-- Why words decode to no instruction. -/
inductive DecodeError where
  /-- The words end before the instruction that LEN announces does (R55). -/
  | truncated
  /-- An encoding that raises ILLEGAL_INSTR (R58–R67), or stops a transfer context with XP_ILLEGAL (R249). -/
  | illegal
  deriving DecidableEq, Repr

/-- Bits hi:lo of a word. -/
def fld (w : Word) (hi lo : Nat) : Nat := w.toNat / 2 ^ lo % 2 ^ (hi + 1 - lo)

/-- How many words an instruction takes, by its first word's LEN (R55). -/
def lenWords (w0 : Word) : Nat :=
  match fld w0 1 0 with
  | 0 => 1
  | 3 => 5
  | _ => 3

/-- The A, B and C source fields of words w1 and w2 (R63). -/
def srcA (w1 : Word) : Src := ⟨.ofNat 8 (fld w1 7 0), .ofNat 3 (fld w1 10 8), .ofNat 5 (fld w1 15 11)⟩
def srcB (w1 : Word) : Src := ⟨.ofNat 8 (fld w1 23 16), .ofNat 3 (fld w1 26 24), .ofNat 5 (fld w1 31 27)⟩

/-- The guard of w0 (R63). -/
def guardOf (w0 : Word) : Guard := ⟨fld w0 14 14 == 1, .ofNat 4 (fld w0 13 10)⟩

/-- A base word (R58–R61), LEN 0b00. -/
def decodeBase (w : Word) : Option Instr :=
  let op := fld w 7 2
  let d : Code := .ofNat 8 (fld w 15 8)
  let a : Code := .ofNat 8 (fld w 23 16)
  let b : Code := .ofNat 8 (fld w 31 24)
  if op = 0 then if w = 0 then some .nop else none
  else if op = 0x3F then if fld w 31 8 = 0 then some .exitBase else none
  else if op = 0x3E then if d = 0 && b = 0 then some (.retBase a) else none
  else if op = 0x3C || op = 0x3D then
    baseBrInstr op ⟨.ofNat 19 (fld w 31 13), fld w 12 12 == 1, .ofNat 4 (fld w 11 8)⟩
  else if op = 0x22 || op = 0x23 then imm16Instr op ⟨d, a ++ b⟩
  else if op = 0x1B || op = 0x1F || op = 0x20 || op = 0x21 then imm8Instr op ⟨d, a, b⟩
  else if op = 0x1C || op = 0x1D || op = 0x1E then
    if fld w 31 30 = 0 then shiftInstr op ⟨d, a, .ofNat 6 (fld w 29 24)⟩ else none
  else if op = 0x01 || (0x15 ≤ op && op ≤ 0x18) then if b = 0 then base1Instr op ⟨d, a⟩ else none
  else base2Instr op ⟨d, a, b⟩

/-- A base word with a literal (R62), LEN 0b01. -/
def decodeBaseLit (w w1 w2 : Word) : Option Instr :=
  if fld w 31 24 = 0xFF then
    baseLitInstr (fld w 7 2) ⟨.ofNat 8 (fld w 15 8), .ofNat 8 (fld w 23 16), w2 ++ w1⟩
  else none

/-- An extended instruction (R63, R66, R140, R212), LEN 0b10 or 0b11. -/
def decodeExt (w0 w1 w2 : Word) (lit : Option Dword) : Option Instr :=
  let op := fld w0 9 2
  let fn : BitVec 4 := .ofNat 4 (fld w0 31 28)
  let d : Code := .ofNat 8 (fld w0 27 20)
  let la : BitVec 4 := .ofNat 4 (fld w0 19 16)
  let g := guardOf w0
  let c : Code := .ofNat 8 (fld w2 7 0)
  if fld w0 15 15 ≠ 0 then none
  else if 0x80 ≤ op && op ≤ 0x90 then
    memInstr op ⟨fn, d, la, g, srcA w1, srcB w1, c, .ofNat 16 (fld w2 31 16), .ofNat 3 (fld w2 15 13), .ofNat 5 (fld w2 12 8), lit⟩
  else if 0x70 ≤ op && op ≤ 0x76 then
    match lit with
    | none => none
    | some l =>
      if (srcA w1).pat ≠ 0 || (srcA w1).par ≠ 0 || (srcB w1).pat ≠ 0 || (srcB w1).par ≠ 0 then none
      else
        sweepInstr op ⟨fn, d, la, g, (srcA w1).code, (srcB w1).code, c, .ofNat 12 (fld w2 31 20), .ofNat 12 (fld w2 19 8),
          l.extractLsb' 0 16, l.extractLsb' 16 16, l.extractLsb' 32 16, l.extractLsb' 48 16⟩
  else if 0xE0 ≤ op && op ≤ 0xE3 then
    if fn = 0 && la = 0 && c = 0 then
      brInstr op ⟨d, g, (srcA w1).code, (w2.extractLsb' 8 24) ++ (w1.extractLsb' 8 24), lit⟩
    else none
  else
    extInstr op ⟨fn, d, la, g, srcA w1, srcB w1, ⟨c, .ofNat 3 (fld w2 10 8), .ofNat 5 (fld w2 15 11)⟩, .ofNat 16 (fld w2 31 16), lit⟩

/-- An instruction that keeps the encoding rules, or none. -/
def checked (o : Option Instr) : Except DecodeError Instr :=
  match o with
  | some i => if i.wellFormed then .ok i else .error .illegal
  | none => .error .illegal

/-- The instruction at the head of a list of words and the words that follow it (R55). -/
def decode (ws : List Word) : Except DecodeError (Instr × List Word) :=
  match ws with
  | [] => .error .truncated
  | w0 :: rest =>
    match fld w0 1 0, rest with
    | 0, _ => (checked (decodeBase w0)).map (·, rest)
    | 1, w1 :: w2 :: rest' => (checked (decodeBaseLit w0 w1 w2)).map (·, rest')
    | 2, w1 :: w2 :: rest' => (checked (decodeExt w0 w1 w2 none)).map (·, rest')
    | 3, w1 :: w2 :: w3 :: w4 :: rest' => (checked (decodeExt w0 w1 w2 (some (w4 ++ w3)))).map (·, rest')
    | _, _ => .error .truncated

/-- The transfer instruction of a 64-bit transfer word (R249). -/
noncomputable def decodeXp (x : Dword) : Except DecodeError Instr :=
  let n := x.toNat
  checked (xpInstr (n % 256)
    ⟨.ofNat 5 (n / 2 ^ 8 % 32), .ofNat 5 (n / 2 ^ 13 % 32), .ofNat 5 (n / 2 ^ 18 % 32), .ofNat 3 (n / 2 ^ 23 % 8),
      .ofNat 3 (n / 2 ^ 26 % 8), .ofNat 3 (n / 2 ^ 29 % 8), x.extractLsb' 32 32⟩)

/-! ## Encoding -/

/-- A base word from its fields (R58). -/
def baseWord (op : Nat) (lit : Bool) (d a b : Code) : Word :=
  .ofNat 32 (b.toNat * 2 ^ 24 + a.toNat * 2 ^ 16 + d.toNat * 2 ^ 8 + op * 4 + (if lit then 1 else 0))

/-- Word w0 of the extended format (R63). -/
def extWord0 (fn : BitVec 4) (d : Code) (la : BitVec 4) (g : Guard) (op : Nat) (lit : Bool) : Word :=
  .ofNat 32 (fn.toNat * 2 ^ 28 + d.toNat * 2 ^ 20 + la.toNat * 2 ^ 16 + (if g.neg then 2 ^ 14 else 0) + g.p.toNat * 2 ^ 10
    + op * 4 + (if lit then 3 else 2))

/-- Word w1 of the extended format (R63). -/
def extWord1 (a b : Src) : Word :=
  .ofNat 32 (b.par.toNat * 2 ^ 27 + b.pat.toNat * 2 ^ 24 + b.code.toNat * 2 ^ 16 + a.par.toNat * 2 ^ 11 + a.pat.toNat * 2 ^ 8
    + a.code.toNat)

/-- The literal's two words, low word first (R55). -/
def litWords (l : Option Dword) : List Word :=
  match l with
  | none => []
  | some l => [l.extractLsb' 0 32, l.extractLsb' 32 32]

/-- The words of a form; an event has none. A transfer word is its low half and its high half (R249). -/
def encodeForm : Form → List Word
  | .baseNone op => [baseWord op false 0 0 0]
  | .base1 op f => [baseWord op false f.d f.a 0]
  | .base2 op f => [baseWord op false f.d f.a f.b]
  | .imm8 op f => [baseWord op false f.d f.a f.imm]
  | .shift op f => [baseWord op false f.d f.a (.ofNat 8 f.count.toNat)]
  | .imm16 op f => [baseWord op false f.d (f.imm.extractLsb' 8 8) (f.imm.extractLsb' 0 8)]
  | .baseBr op f =>
    [.ofNat 32 (f.off.toNat * 2 ^ 13 + (if f.gn then 2 ^ 12 else 0) + f.g.toNat * 2 ^ 8 + op * 4)]
  | .baseRet a => [baseWord 0x3E false 0 a 0]
  | .baseLit op f => baseWord op true f.d f.a 0xFF :: litWords (some f.lit)
  | .ext op f =>
    [extWord0 f.fn f.d f.la f.g op f.lit.isSome, extWord1 f.a f.b,
      .ofNat 32 (f.imm.toNat * 2 ^ 16 + f.c.par.toNat * 2 ^ 11 + f.c.pat.toNat * 2 ^ 8 + f.c.code.toNat)] ++ litWords f.lit
  | .mem op f =>
    [extWord0 f.fn f.d f.la f.g op f.lit.isSome, extWord1 f.a f.b,
      .ofNat 32 (f.disp.toNat * 2 ^ 16 + f.scale.toNat * 2 ^ 13 + f.opt.toNat * 2 ^ 8 + f.c.toNat)] ++ litWords f.lit
  | .br op f =>
    [extWord0 0 f.d 0 f.g op f.lit.isSome, f.off.extractLsb' 0 24 ++ f.a, f.off.extractLsb' 24 24 ++ (0 : BitVec 8)]
      ++ litWords f.lit
  | .sweep op f =>
    [extWord0 f.fn f.d f.la f.g op true, extWord1 ⟨f.a, 0, 0⟩ ⟨f.b, 0, 0⟩,
      .ofNat 32 (f.count.toNat * 2 ^ 20 + f.cvtsel.toNat * 2 ^ 8 + f.c.toNat)]
      ++ litWords (some (f.stepC ++ f.stepB ++ f.stepA ++ f.stepD))
  | .xp op f =>
    [.ofNat 32 (f.fl.toNat * 2 ^ 29 + f.dg.toNat * 2 ^ 26 + f.sg.toNat * 2 ^ 23 + f.b.toNat * 2 ^ 18 + f.a.toNat * 2 ^ 13
      + f.d.toNat * 2 ^ 8 + op), f.imm]
  | .event => []

/-- The words of an instruction (R55–R67, R140, R212, R249). -/
def encode (i : Instr) : List Word := encodeForm (formOf i)

/-- A transfer word as 64 bits from its two words. -/
def xpWord (ws : List Word) : Dword :=
  match ws with
  | [lo, hi] => hi ++ lo
  | _ => 0

/-! ## The opcode table's words -/

/-- The words of an instruction whose bits are w, first word lowest, with zeros above: the longest instruction takes five. -/
def tableWords (w : Nat) : List Word := (List.range 5).map (fun i => BitVec.ofNat 32 (w / 2 ^ (32 * i)))

/-- The instruction that the decoder reads from bits numbered as the opcode table numbers them. Rows of 64 bits are transfer
words (R249); every other row is a word of the squads' instructions. -/
noncomputable def decodeTableWord (nbits w : Nat) : Option Instr :=
  if nbits = 64 then (decodeXp (.ofNat 64 w)).toOption
  else ((decode (tableWords w)).map (·.1)).toOption

end Sys2Proof
end

