-- ==== Sys2Proof/Config.lean ====
section
/-! DEFINITION. The free values: what the spec leaves to the part or gives no value for. Each is a constant without a
body, so nothing can be proved of its value (notes/assumptions). -/
namespace Sys2Proof.Config

/-- Free 64-bit values, numbered by the state's counter `free` (unspecified results). -/
opaque freeDword : Nat → BitVec 64
/-- Free choices, numbered by the state's counter `free` and an index within the step (a choice the spec leaves to arrival
order or caching: R439, R430). -/
opaque freeBool : Nat → Nat → Bool
/-- The value a .f transcendental of this part returns, before the bound of R52 is imposed: function number, operand. -/
opaque approx : Nat → BitVec 32 → BitVec 32
/-- A correctly rounded transcendental whose rounding the interval evaluation of this model cannot settle (R52): function
number and operand. -/
opaque unsettled : Nat → BitVec 32 → BitVec 32
/-- Helpor's image key, held in the apex ROM (R451): a P-384 public key. -/
opaque imageKey : Nat × Nat
/-- The fields of an image's header, whose layout is not given (R451): TYPE, VERSION and LENGTH. -/
opaque imageHeader : List (BitVec 8) → Nat × BitVec 32 × Nat
/-- The 256-bit response of the unclonable function as helper data reconstructs it, or none on failure (R454, R455). -/
opaque pufResponse : List (BitVec 8) → Option (BitVec 256)
/-- The fixed input data of the key derivation, label and context, which are not given (R454). -/
opaque kdfInput : List (BitVec 8)
/-- Board power in mW (R459), numbered. -/
opaque boardPower : Nat → Nat
/-- How many extra core clocks a step takes beyond one, numbered by the state's issue counter (R5, R122). -/
opaque extraClocks : Nat → Nat
/-- How long the home of an immediate access leaves it unperformed (R440), in turns of the device's own events, by the access's number
(DESIGN CHOICE, log entry 143). -/
opaque homeDelay : Nat → Nat
/-- How far a sample of the 1588 time lies from the time unit, before it is bounded to 20 ns (R123), numbered. -/
opaque ptpJitter : Nat → Nat

end Sys2Proof.Config
end

