-- ==== Sys2Proof/Machine/Float.lean ====
section
/-! DEFINITION. Number formats, exact values, rounding and the lattice order ("Number formats and the lattice order"). -/
namespace Sys2Proof.Machine
open Sys2Proof

/-- How a format ends at the top (R29): infinities and NaNs, the e4m3 NaN only, or neither. -/
inductive FmtTop where
  | ieee | e4m3 | e2m1
  deriving DecidableEq, Repr

/-- A floating-point format (R29): exponent and fraction widths, bias, and the top codes. -/
structure Fmt where
  eb : Nat
  fb : Nat
  bias : Int
  top : FmtTop
  deriving DecidableEq, Repr

def fp32 : Fmt := ⟨8, 23, 127, .ieee⟩
def fp16 : Fmt := ⟨5, 10, 15, .ieee⟩
def bf16 : Fmt := ⟨8, 7, 127, .ieee⟩
def e5m2 : Fmt := ⟨5, 2, 15, .ieee⟩
def e4m3 : Fmt := ⟨4, 3, 7, .e4m3⟩
def e2m1 : Fmt := ⟨2, 1, 1, .e2m1⟩
def acc56 : Fmt := ⟨10, 45, 511, .ieee⟩

/-- Total width in bits. -/
def Fmt.width (f : Fmt) : Nat := 1 + f.eb + f.fb
/-- The exponent of the smallest normal value. -/
def Fmt.emin (f : Fmt) : Int := 1 - f.bias
/-- The bit pattern of the largest finite magnitude (R29). -/
def Fmt.maxBits (f : Fmt) : Nat :=
  match f.top with
  | .ieee => (2 ^ f.eb - 1) * 2 ^ f.fb - 1
  | .e4m3 => 2 ^ (f.eb + f.fb) - 2
  | .e2m1 => 2 ^ (f.eb + f.fb) - 1
def Fmt.signBit (f : Fmt) : Nat := 2 ^ (f.eb + f.fb)
/-- The canonical quiet NaN (R32); e2m1 has none and delivers +0 (R40). -/
def Fmt.nan (f : Fmt) : Nat :=
  match f.top with
  | .ieee => (2 ^ f.eb - 1) * 2 ^ f.fb + 2 ^ (f.fb - 1)
  | .e4m3 => 2 ^ (f.eb + f.fb) - 1
  | .e2m1 => 0
def Fmt.inf (f : Fmt) : Nat := (2 ^ f.eb - 1) * 2 ^ f.fb

/-- An unpacked value: NaN, infinity, or (−1)^neg · m · 2^e exactly. -/
inductive FVal where
  | nan (signalling : Bool)
  | inf (neg : Bool)
  | fin (neg : Bool) (m : Nat) (e : Int)
  deriving DecidableEq, Repr

/-- The value of a bit pattern (R29, R31, R32). -/
def unpack (f : Fmt) (b : Nat) : FVal :=
  let neg := (b / f.signBit) % 2 == 1
  let E := (b / 2 ^ f.fb) % 2 ^ f.eb
  let F := b % 2 ^ f.fb
  let normal := FVal.fin neg (2 ^ f.fb + F) ((E : Int) - f.bias - f.fb)
  if E = 0 then .fin neg F (f.emin - f.fb)
  else if E = 2 ^ f.eb - 1 then
    match f.top with
    | .ieee => if F = 0 then .inf neg else .nan (F < 2 ^ (f.fb - 1))
    | .e4m3 => if F = 2 ^ f.fb - 1 then .nan false else normal
    | .e2m1 => normal
  else normal

/-- The flags of R41. -/
abbrev Flags := BitVec 6
def fNV : Flags := 1
def fDZ : Flags := 2
def fOF : Flags := 4
def fUF : Flags := 8
def fNX : Flags := 16
def fSAT : Flags := 32

/-- Rounding modes (R39). -/
inductive RMode where
  | rne | rz | rp | rm
  deriving DecidableEq, Repr

def RMode.ofCode (c : Nat) : RMode :=
  if c % 4 = 0 then .rne else if c % 4 = 1 then .rz else if c % 4 = 2 then .rp else .rm

/-- Whether the magnitude n + rem/2^shift is rounded up to n + 1 (R39). -/
def roundsUp (mode : RMode) (neg : Bool) (n rem shift : Nat) : Bool :=
  match mode with
  | .rz => false
  | .rp => !neg && rem != 0
  | .rm => neg && rem != 0
  | .rne =>
    let half := 2 ^ (shift - 1)
    if shift = 0 then false else rem > half || (rem == half && n % 2 == 1)

/-- m · 2^(−shift) rounded to an integer, and whether it was inexact. A negative shift is exact. -/
def roundShift (mode : RMode) (neg : Bool) (m : Nat) (shift : Int) : Nat × Bool :=
  match shift with
  | .ofNat s =>
    let n := m / 2 ^ s
    let rem := m % 2 ^ s
    (if roundsUp mode neg n rem s then n + 1 else n, rem != 0)
  | .negSucc s => (m * 2 ^ (s + 1), false)

/-- The exponent of the leading bit of m · 2^e, m > 0. -/
def leadExp (m : Nat) (e : Int) : Int := e + (Nat.log2 m : Int)

/-- The bit pattern of n · 2^q, n ≤ 2^(fb+1), q ≥ emin − fb, not above the largest finite magnitude. -/
def encodeMag (f : Fmt) (n : Nat) (q : Int) : Nat :=
  if n < 2 ^ f.fb then n
  else if n < 2 ^ (f.fb + 1) then ((q + f.fb + f.bias).toNat) * 2 ^ f.fb + (n - 2 ^ f.fb)
  else ((q + 1 + f.fb + f.bias).toNat) * 2 ^ f.fb + (n / 2 - 2 ^ f.fb)

/-- What an overflow delivers and flags (R40). -/
def overflowResult (f : Fmt) (mode : RMode) (sat neg : Bool) : Nat × Flags :=
  let s := if neg then f.signBit else 0
  match f.top with
  | .e2m1 => (s + f.maxBits, fOF ||| fNX ||| fSAT)
  | .e4m3 => if sat then (s + f.maxBits, fOF ||| fNX ||| fSAT) else (f.nan, fOF ||| fNX)
  | .ieee =>
    if sat then (s + f.maxBits, fOF ||| fNX ||| fSAT)
    else
      let toInf := match mode with
        | .rne => true
        | .rz => false
        | .rp => !neg
        | .rm => neg
      (s + (if toInf then f.inf else f.maxBits), fOF ||| fNX)

/-- The finite value (−1)^neg · m · 2^e rounded into a format with the flags of R40 and R41: UF is judged after rounding
with unbounded exponent. -/
def roundFin (f : Fmt) (mode : RMode) (sat : Bool) (neg : Bool) (m : Nat) (e : Int) : Nat × Flags :=
  let s := if neg then f.signBit else 0
  if m = 0 then (s, 0)
  else
    let E := leadExp m e
    let q := (max E f.emin) - f.fb
    let (n, inexact) := roundShift mode neg m (q - e)
    let limit := unpack f f.maxBits
    let exceeds : Bool := match limit with
      | .fin _ lm le => if q ≥ le then n * 2 ^ (q - le).toNat > lm else n > lm * 2 ^ (le - q).toNat
      | _ => false
    if exceeds then overflowResult f mode sat neg
    else
      let bits := encodeMag f n q
      let tiny :=
        if E < f.emin then
          let (n', _) := roundShift mode neg m (E - f.fb - e)
          E < f.emin - 1 || n' < 2 ^ (f.fb + 1)
        else false
      (s + bits, (if inexact then fNX else 0) ||| (if tiny && inexact then fUF else 0))

/-- A value known to lie strictly between m and m + 1 units of 2^e when `sticky`, else exactly m · 2^e. -/
def roundSticky (f : Fmt) (mode : RMode) (neg : Bool) (m : Nat) (e : Int) (sticky : Bool) : Nat × Flags :=
  if sticky then roundFin f mode false neg (2 * m + 1) (e - 1) else roundFin f mode false neg m e

/-- A signed exact value as sign, magnitude and exponent; an exact zero takes the given sign. -/
def roundInt (f : Fmt) (mode : RMode) (zeroNeg : Bool) (m : Int) (e : Int) : Nat × Flags :=
  if m = 0 then (if zeroNeg then f.signBit else 0, 0)
  else roundFin f mode false (m < 0) m.natAbs e

def sgn (neg : Bool) (m : Nat) : Int := if neg then -(m : Int) else m

/-- Exact sum of two dyadics over their smaller exponent. -/
def dyAdd (m1 : Int) (e1 : Int) (m2 : Int) (e2 : Int) : Int × Int :=
  let e := min e1 e2
  (m1 * 2 ^ (e1 - e).toNat + m2 * 2 ^ (e2 - e).toNat, e)

def isSNaN : FVal → Bool
  | .nan s => s
  | _ => false
def isNaN : FVal → Bool
  | .nan _ => true
  | _ => false
def isZero : FVal → Bool
  | .fin _ m _ => m == 0
  | _ => false
def isNeg : FVal → Bool
  | .fin n _ _ => n
  | .inf n => n
  | .nan _ => false

/-- NV when an operand is a signalling NaN (R32). -/
def snanFlag (l : List FVal) : Flags := if l.any isSNaN then fNV else 0

/-- Negation, which is exact (R128). -/
def fneg : FVal → FVal
  | .fin n m e => .fin (!n) m e
  | .inf n => .inf (!n)
  | .nan s => .nan s

/-- rne(a + b) in a format (R129, R45). -/
def faddV (f : Fmt) (a b : FVal) : Nat × Flags :=
  if isNaN a || isNaN b then (f.nan, snanFlag [a, b])
  else match a, b with
    | .inf n, .inf n' => if n = n' then ((if n then f.signBit else 0) + f.inf, 0) else (f.nan, fNV)
    | .inf n, _ => ((if n then f.signBit else 0) + f.inf, 0)
    | _, .inf n => ((if n then f.signBit else 0) + f.inf, 0)
    | .fin n m e, .fin n' m' e' =>
      let (s, es) := dyAdd (sgn n m) e (sgn n' m') e'
      roundInt f .rne (n && n' && m == 0 && m' == 0) s es
    | _, _ => (f.nan, 0)

/-- rne(a · b) in a format (R129). -/
def fmulV (f : Fmt) (a b : FVal) : Nat × Flags :=
  if isNaN a || isNaN b then (f.nan, snanFlag [a, b])
  else match a, b with
    | .fin n m e, .fin n' m' e' => roundFin f .rne false (n != n') (m * m') (e + e')
    | x, y =>
      if isZero x || isZero y then (f.nan, fNV)
      else ((if isNeg x != isNeg y then f.signBit else 0) + f.inf, 0)

/-- rne(a · b + c), one rounding (R129): 0 × ∞ is NaN with NV even when c is a quiet NaN. -/
def ffmaV (f : Fmt) (a b c : FVal) : Nat × Flags :=
  let badProduct := match a, b with
    | .inf _, y => isZero y
    | x, .inf _ => isZero x
    | _, _ => false
  if badProduct then (f.nan, fNV)
  else if isNaN a || isNaN b || isNaN c then (f.nan, snanFlag [a, b, c])
  else match a, b, c with
    | .fin n m e, .fin n' m' e', .fin n'' m'' e'' =>
      let (s, es) := dyAdd (sgn (n != n') (m * m')) (e + e') (sgn n'' m'') e''
      roundInt f .rne ((n != n') && n'' && m * m' == 0 && m'' == 0) s es
    | .fin _ _ _, .fin _ _ _, .inf n => ((if n then f.signBit else 0) + f.inf, 0)
    | x, y, .inf n =>
      if (isNeg x != isNeg y) = n then ((if n then f.signBit else 0) + f.inf, 0) else (f.nan, fNV)
    | x, y, _ => ((if isNeg x != isNeg y then f.signBit else 0) + f.inf, 0)

/-- rne(a / b) (R135). -/
def fdivV (f : Fmt) (a b : FVal) : Nat × Flags :=
  let s := if isNeg a != isNeg b then f.signBit else 0
  if isNaN a || isNaN b then (f.nan, snanFlag [a, b])
  else match a, b with
    | .inf _, .inf _ => (f.nan, fNV)
    | .inf _, _ => (s + f.inf, 0)
    | _, .inf _ => (s, 0)
    | .fin _ m e, .fin _ m' e' =>
      if m' = 0 then (if m = 0 then (f.nan, fNV) else (s + f.inf, fDZ))
      else if m = 0 then (s, 0)
      else
        let k := f.fb + 4 + Nat.log2 m' - Nat.log2 m
        let k := if Nat.log2 m > f.fb + 4 + Nat.log2 m' then 0 else k
        let n := m * 2 ^ k
        roundSticky f .rne (isNeg a != isNeg b) (n / m') (e - e' - k) (n % m' != 0)
    | _, _ => (f.nan, 0)

/-- The integer square root of n below 2^(2·bits), bit by bit from the top. -/
def isqrt (n : Nat) : Nat → Nat → Nat
  | 0, r => r
  | bits + 1, r =>
    let r' := r + 2 ^ bits
    if r' * r' ≤ n then isqrt n bits r' else isqrt n bits r

/-- rne(√a) (R135). -/
def fsqrtV (f : Fmt) (a : FVal) : Nat × Flags :=
  match a with
  | .nan s => (f.nan, if s then fNV else 0)
  | .inf n => if n then (f.nan, fNV) else (f.inf, 0)
  | .fin n m e =>
    if m = 0 then ((if n then f.signBit else 0), 0)
    else if n then (f.nan, fNV)
    else
      let k := 2 * (f.fb + 4)
      let k := if (e - k) % 2 = 0 then k else k + 1
      let x := m * 2 ^ k
      let r := isqrt x (Nat.log2 x / 2 + 1) 0
      roundSticky f .rne false r ((e - k) / 2) (r * r != x)

/-- Ordered comparison of two values neither of which is a NaN: a < b, with ±0 equal. -/
def fltV (a b : FVal) : Bool :=
  match a, b with
  | .nan _, _ => false
  | _, .nan _ => false
  | .inf n, .inf n' => n && !n'
  | .inf n, _ => n
  | _, .inf n => !n
  | .fin n m e, .fin n' m' e' =>
    let e0 := min e e'
    sgn n m * 2 ^ (e - e0).toNat < sgn n' m' * 2 ^ (e' - e0).toNat

def feqV (a b : FVal) : Bool :=
  match a, b with
  | .nan _, _ => false
  | _, .nan _ => false
  | x, y => !fltV x y && !fltV y x

/-- The order of FMIN and FMAX, in which −0 is less than +0 (R130). -/
def fltTotal (a b : FVal) : Bool := fltV a b || (feqV a b && isNeg a && !isNeg b)

/-- FMIN and FMAX on bit patterns (R130): an operand's bits, or the canonical NaN; NV for a signalling operand. -/
def fminmaxBits (f : Fmt) (isMax : Bool) (a b : Nat) : Nat × Flags :=
  let x := unpack f a
  let y := unpack f b
  let fl := snanFlag [x, y]
  if isNaN x && isNaN y then (f.nan, fl)
  else if isNaN x then (b, fl)
  else if isNaN y then (a, fl)
  else if isMax then (if fltTotal x y then b else a, fl)
  else (if fltTotal y x then b else a, fl)

/-- A value converted into a float format under R40. -/
def convV (f : Fmt) (mode : RMode) (sat : Bool) (v : FVal) : Nat × Flags :=
  match v with
  | .nan s =>
    match f.top with
    | .e2m1 => (0, fNV)
    | _ => (f.nan, if s then fNV else 0)
  | .inf n =>
    let s := if n then f.signBit else 0
    match f.top with
    | .e2m1 => (s + f.maxBits, fSAT ||| fNX)
    | .e4m3 => if sat then (s + f.maxBits, fSAT ||| fNX) else (f.nan, fNV)
    | .ieee => if sat then (s + f.maxBits, fSAT ||| fNX) else (s + f.inf, 0)
  | .fin n m e => roundFin f mode sat n m e

/-- A finite value rounded to an integer by the mode, and whether it was inexact. -/
def roundToInt (mode : RMode) (neg : Bool) (m : Nat) (e : Int) : Int × Bool :=
  let (n, inexact) := roundShift mode neg m (-e)
  (sgn neg n, inexact)

/-- Range of an integer format. -/
def intLo (signed : Bool) (w : Nat) : Int := if signed then -(2 ^ (w - 1) : Nat) else 0
def intHi (signed : Bool) (w : Nat) : Int := if signed then (2 ^ (w - 1) : Nat) - 1 else (2 ^ w : Nat) - 1

/-- A value converted into an integer format under R40: NV only for NaN, infinity and overflow. -/
def convToInt (signed : Bool) (w : Nat) (mode : RMode) (v : FVal) : Int × Flags :=
  match v with
  | .nan _ => (0, fNV)
  | .inf n => (if n then intLo signed w else intHi signed w, fNV)
  | .fin n m e =>
    let (i, inexact) := roundToInt mode n m e
    if i < intLo signed w then (intLo signed w, fNV)
    else if i > intHi signed w then (intHi signed w, fNV)
    else (i, if inexact then fNX else 0)

/-- Rounding to an integral value of the same format, keeping the sign (R132); NX is never set. -/
def frndV (f : Fmt) (mode : RMode) (v : FVal) (bits : Nat) : Nat × Flags :=
  match v with
  | .nan s => (f.nan, if s then fNV else 0)
  | .inf _ => (bits, 0)
  | .fin n m e =>
    let (i, _) := roundToInt mode n m e
    ((roundFin f .rne false n i.natAbs 0).1, 0)

/-- The value a finite integer has as a float operand. -/
def ofInt (i : Int) : FVal := .fin (i < 0) i.natAbs 0

/-- FP32 bit patterns as words. -/
def f32 (w : Word) : FVal := unpack fp32 w.toNat
def w32 (r : Nat × Flags) : Word × Flags := (BitVec.ofNat 32 r.1, r.2)

/-! ## The lattice order (R45, R46) -/

/-- One level of the lattice: neighbours combined, an odd survivor carried. -/
def latticeLevel {α : Type} (f : α → α → α) : List α → List α
  | a :: b :: rest => f a b :: latticeLevel f rest
  | l => l

/-- The lattice fold of a list, `zero` when it is empty; the fuel is its length. -/
def latticeFold {α : Type} (f : α → α → α) (zero : α) : Nat → List α → α
  | _, [] => zero
  | _, [a] => a
  | 0, a :: _ => a
  | n + 1, l => latticeFold f zero n (latticeLevel f l)

/-- lattice_sum with an arbitrary node operation. -/
def lattice {α : Type} (f : α → α → α) (zero : α) (l : List α) : α := latticeFold f zero l.length l

/-- The lattice tree of R45 with each node's sum, over logical indices. -/
inductive LTree (α : Type) where
  | leaf (count : Nat) (s : α)
  | node (count : Nat) (s : α) (l r : LTree α)

def LTree.count {α : Type} : LTree α → Nat
  | .leaf c _ => c
  | .node c _ _ _ => c
def LTree.sum {α : Type} : LTree α → α
  | .leaf _ s => s
  | .node _ s _ _ => s

def latticeTree {α : Type} (f : α → α → α) (zero : α) (l : List α) : LTree α :=
  lattice (fun a b => .node (a.count + b.count) (f a.sum b.sum) a b) (.leaf 0 zero) (l.map (LTree.leaf 1))

/-- lattice_prefix: the value of the terms below k, folded from the root down (R46). -/
def latticePrefixOf {α : Type} (f : α → α → α) : LTree α → Nat → α → α
  | .leaf _ _, _, p => p
  | .node _ _ l r, k, p => if k < l.count then latticePrefixOf f l k p else latticePrefixOf f r (k - l.count) (f p l.sum)

def latticePrefix {α : Type} (f : α → α → α) (zero : α) (l : List α) (k : Nat) : α :=
  latticePrefixOf f (latticeTree f zero l) k zero

/-- A lattice node that adds in a format, ORing flags (R45). -/
def addNode (f : Fmt) (a b : Nat × Flags) : Nat × Flags :=
  let r := faddV f (unpack f a.1) (unpack f b.1)
  (r.1, a.2 ||| b.2 ||| r.2)

/-- lattice_sum in a format with the flags of its nodes (R45). -/
def latticeSum (f : Fmt) (l : List Nat) : Nat × Flags := lattice (addNode f) (0, 0) (l.map (fun x => (x, 0)))

/-! ## Error-free transforms (R53, R54) -/

/-- An exact signed dyadic rounded to FP32. -/
def rne32 (m e : Int) : Nat := (roundInt fp32 .rne false m e).1

def ftwosum (a b : Word) : (Word × Word) × Flags :=
  let x := f32 a
  let y := f32 b
  let (s, fl) := faddV fp32 x y
  let e := match unpack fp32 s, x, y with
    | .nan _, _, _ => fp32.nan
    | .inf _, _, _ => 0
    | .fin n m e, .fin n1 m1 e1, .fin n2 m2 e2 =>
      let (t, et) := dyAdd (sgn n1 m1) e1 (sgn n2 m2) e2
      let (d, ed) := dyAdd t et (-(sgn n m)) e
      rne32 d ed
    | _, _, _ => 0
  ((BitVec.ofNat 32 s, BitVec.ofNat 32 e), fl)

def ftwoprod (a b : Word) : (Word × Word) × Flags :=
  let x := f32 a
  let y := f32 b
  let (p, fl) := fmulV fp32 x y
  let e := match unpack fp32 p, x, y with
    | .nan _, _, _ => fp32.nan
    | .inf _, _, _ => 0
    | .fin n m e, .fin n1 m1 e1, .fin n2 m2 e2 =>
      let (d, ed) := dyAdd (sgn (n1 != n2) (m1 * m2)) (e1 + e2) (-(sgn n m)) e
      rne32 d ed
    | _, _, _ => 0
  ((BitVec.ofNat 32 p, BitVec.ofNat 32 e), fl)

/-- SAT of R128: the rounded result clamped to +0 … 1.0 in the format, with the flag when the clamp changes a value other
than a NaN or −0. -/
def clamp01 (f : Fmt) (r : Nat × Flags) : Nat × Flags :=
  let one := (f.bias.toNat) * 2 ^ f.fb
  match unpack f r.1 with
  | .nan _ => (0, r.2)
  | .inf n => if n then (0, r.2 ||| fSAT) else (one, r.2 ||| fSAT)
  | .fin n m _ =>
    if m = 0 then (0, r.2)
    else if n then (0, r.2 ||| fSAT)
    else if r.1 > one then (one, r.2 ||| fSAT)
    else r

end Sys2Proof.Machine
end

