-- ==== Sys2Proof/Machine/State.lean ====
section
/-! DEFINITION. The state of one HLP-S9A package as plain data: every object the chapters define, from a thread's
registers to the link ports, with the reasons a step can stop and the machine at power-good. -/
namespace Sys2Proof.Machine
open Sys2Proof

/-! ## Causes, faults and refusals -/

/-- The trap causes of R357. -/
inductive Cause where
  | machineCheck | illegalInstr | lookaheadViolation | operandNamespace | maskDisagree | uniformDiverge | detViolation
  | refBounds | refInvalid | refRights | refOwner | pageUnmapped | pagePoisoned | misaligned | scratchBounds
  | barBusy | barState | queueOrphan | mcastTarget | xpStopped | matrixState | traceFormat | texDesc | fpExc
  | trapSoft | breakpoint
  deriving DecidableEq, Repr

/-- Why the machine stops. -/
inductive Fault where
  /-- An access named a physical frame in none of the twelve stacks (R394). Nothing raises it: every command refuses such a frame with
  status 2, so no page ever maps one. Safe: a run would stop where the spec gives no location. -/
  | noSuchFrame (pa : Nat)
  deriving DecidableEq, Repr

/-- Why an instruction has no meaning here. -/
inductive Refusal where
  /-- The instruction has no meaning in this model yet. Raised by an arm of exec only. Safe: the run stops. -/
  | notModelled (mnemonic : String)
  deriving DecidableEq, Repr

/-! ## Memory -/

/-- Bytes by address, addresses strictly rising, no entry equal to what an unlisted address reads as (0). -/
abbrev Memory := List Host.Cell

/-- One byte of storage wherever it lies: a byte of an HBM stack (R394), of host memory behind a system buffer (R406), of a
buffer of a peer package (R390 RVALID), or of a page that is compressed in the brine region (R398), by page table and page; `answered` is
a peer's byte with the value that an answer has brought to whoever asked for it (R414). -/
inductive Loc where
  | dev (pa : Nat)
  | host (addr : Nat)
  | remote (peer pctx pidx off : Nat)
  | answered (peer pctx pidx off : Nat) (b : Byte)
  | brine (root page off : Nat)
  deriving DecidableEq, Repr

/-- The storage view of a buffer (R390, R392). -/
inductive View where
  | raw
  | t16
  | mxView (mxfmt : Nat)
  deriving DecidableEq, Repr

/-- A checked access: view offset and size, and every storage byte it touches, by storage offset, with its location (R392), and the pages it translated
through, by page table and page (R403). -/
structure Access where
  view : View
  off : Nat
  size : Nat
  store : List (Nat × Loc)
  pages : List (Nat × Nat)
  deriving DecidableEq, Repr

/-- A place an engine reads or writes: bytes of a cell's scratch or a checked global access. -/
inductive Place where
  | scratch (cell off size : Nat)
  | glob (a : Access)
  deriving DecidableEq, Repr

/-- A buffer table entry (R390). -/
structure BtEntry where
  valid : Bool
  rd : Bool
  wr : Bool
  at' : Bool
  ex : Bool
  ilv : Nat
  view : Bool
  mxfmt : Nat
  tol : Bool
  ilvsel : Nat
  owner : Nat
  length : Nat
  ptroot : Nat
  rvalid : Bool
  peer : Nat
  pctx : Nat
  pidx : Nat
  deriving DecidableEq, Repr

/-- Page states (R395). -/
inductive PageState where
  | unmapped | resident | brined | expanding | migrating | poisoned
  deriving DecidableEq, Repr

/-- A second-level page table entry (R395); `target` and `back` are the destination and the state of a move in progress (R398, R404). -/
structure PageEntry where
  root : Nat
  page : Nat
  state : PageState
  dirty : Bool
  accessed : Bool
  loc : Nat
  ilv : Nat
  ilvsel : Nat
  target : Option Nat
  back : PageState
  /-- Whether LOC is that of the compressed image (R395). -/
  inImage : Bool
  deriving DecidableEq, Repr

/-- A compressed page image in the brine region (R398): its address and the page's bytes, which compression keeps exactly. -/
structure BrineImage where
  addr : Nat
  bytes : Memory
  deriving DecidableEq, Repr

/-- A value that an aligned word had at its home before the newest write, which a phased read may still return (R439), and the L1s
(by core) and replicas (144 and the sector) that can no longer hold it (R15, R437). -/
structure OldWord where
  word : Nat
  value : Word
  gone : List Nat
  deriving DecidableEq, Repr

/-! ## Threads -/

/-- Thread states (R331). -/
inductive ThreadState where
  | ready | stalled | waiting | yielded | stopped | saved | exited
  deriving DecidableEq, Repr

/-- A register a thread's instruction reads or writes, for the lookahead scoreboard (R72, R338). -/
inductive Reg where
  | v (n : Nat)
  | k (n : Nat)
  | p (n : Nat)
  | w (n : Nat)
  deriving DecidableEq, Repr

/-- What an outstanding long-latency instruction waits for before it retires (R72); `done` once it has retired while its
window is still open. -/
inductive Awaits where
  | unit
  | walk
  | array
  | atomic (req : Nat)
  | remote (req : Nat)
  | late (req : Nat)
  | batch
  | monitor
  | done
  deriving DecidableEq, Repr

/-- A scoreboard entry (R338): the registers written, the window's remaining count, and what it awaits. -/
structure Outstanding where
  writes : List Reg
  window : Nat
  awaits : Awaits
  deriving DecidableEq, Repr

/-- What a WAITING thread waits on (R331): the fields name where its result goes. A STALLED thread waits so for a peer's answer: for its
load's or store's, or, by `ask`, for what its instruction has asked before it can be performed (R171, R347). -/
inductive Wait where
  | slot (n : Nat) (token : Bool) (closer status : Nat) (test last : Bool)
  | phase (closer : Nat)
  | sync (pops : List Nat)
  | handlerSync (pops : List Nat)
  | monitor (d : Code) (taint : Bool)
  | turn
  | tret (fn : Nat) (dest : Word)
  | reply
  | remote (req : Nat)
  | walk
  | held (n : Nat) (d : Nat)
  | ask
  deriving DecidableEq, Repr

/-- What released a thread last together with others (R334): the start of its cell, a SYNC, by the issue that completed it, a phase of a barrier
slot, by its count, or a PHASE. -/
inductive Release where
  | start
  | sync (issue : Nat)
  | slot (n count : Nat)
  | phase (n : Nat)
  deriving DecidableEq, Repr

/-- A traversal record (R177). -/
structure TraceRec where
  org : List Nat
  dir : List Nat
  tmin : Nat
  tmax : Nat
  href : Dword
  raymask : Nat
  flags : Nat
  depth : Nat
  state : Nat
  pendid : Nat
  hitt : Nat
  hitid : Nat
  hitu : Nat
  hitv : Nat
  stack : List Nat
  deriving DecidableEq, Repr

/-- A walk of TRACE or TRCONT that the traversal unit holds (R183–R188): the record's offset, the record as the steps so far have left it,
those steps' number and their limit, the destination with its taint, and the queue registers that the instruction pops. -/
structure Walk where
  off : Nat
  record : TraceRec
  steps : Nat
  limit : Nat
  dest : Code
  taint : Bool
  pops : List Nat
  deriving DecidableEq, Repr

/-- How a thread that stopped stands towards its squad's delivery (R350, R352, R353). -/
inductive StopMark where
  | none
  | cause
  | dropped
  | unqueued
  deriving DecidableEq, Repr

/-- A thread's monitor (R240): its block and whether it has fired since it was armed. -/
structure Monitor where
  block : Nat
  /-- The page through which it was armed. -/
  pages : List (Nat × Nat)
  fired : Bool
  since : Nat
  timeout : Nat
  /-- The reset of its home's sector has ended it (R458). -/
  ended : Bool
  deriving DecidableEq, Repr

/-- What a handler squad's thread knows of its message (R419, R420). -/
structure MsgInfo where
  srcRank : Nat
  srcCell : Nat
  isReply : Bool
  replied : Bool
  deriving DecidableEq, Repr

/-- A thread (R19, R83, R331). -/
structure Thread where
  /-- The lane it keeps for life (R20, R330). -/
  lane : Nat
  /-- R331. -/
  state : ThreadState
  wait : Option Wait
  /-- Program counter: a byte offset into the code buffer (R56). -/
  pc : Word
  /-- Where it goes on when the wait it is in ends: the next instruction's offset. -/
  npc : Word
  /-- Lane registers v0 to v(vregs−1) (R83). -/
  v : List Word
  /-- Their taint bits (R92). -/
  taint : List Bool
  /-- Predicates p0–p15; bit 0 is not consulted, p0 reads true (R68). -/
  p : BitVec 16
  /-- Spectral registers (R83). -/
  w : List Packet
  /-- Residues of the lane words and of the packets' samples, by 8·w + sample, and the parity of the predicates (R83, R94): what is held
  less what the word's value gives, only where the two differ. -/
  vres : List (Nat × Nat)
  wres : List (Nat × Nat)
  ppar : Bool
  /-- The thread's own uniform-step count (R87, R335). -/
  ustep : Nat
  /-- The lookahead scoreboard (R338). -/
  board : List Outstanding
  /-- The sixteen operand queues of v176–v191, oldest entry first (R88, R89). -/
  queues : List (List Word)
  /-- Return point of a trap (R350) and the mark of R352, R353. -/
  ret : Word
  mark : StopMark
  /-- Whether it executes the handler (R355). -/
  inHandler : Bool
  /-- The wait it left for the handler (R351), with the result when the wait ended meanwhile. -/
  heldWait : Option Wait
  heldDone : Option (Bool × Bool)
  /-- Its monitor (R240). -/
  mon : Option Monitor
  /-- The walk that the traversal unit holds for it (R188). -/
  walk : Option Walk
  /-- The empty queue registers at which it is STALLED (R89, R358). -/
  wants : List Nat
  /-- The live counts of the YIELD at which it stands (R339, R341). -/
  liveV : Nat
  liveW : Nat
  /-- The state saved with it (R331, R341). -/
  savedState : ThreadState
  /-- The clock at which it last became READY: its age (R331, R336). -/
  readyAt : Nat
  /-- The message of a handler squad's thread (R420). -/
  msg : Option MsgInfo
  /-- The issue at which it began to wait, and of its squad in that issue the lanes that went on or were held (31:0) and the bundle's (63:32)
  (R365). -/
  waitAt : Nat
  waitLanes : Dword
  /-- What released it last (R334). -/
  release : Release
  /-- The TRACE, by its offset, that a save has stopped, and the steps which its limit leaves it (R183, R188). -/
  traced : Option (Word × Nat)
  deriving DecidableEq, Repr

/-! ## Squads -/

/-- Trap state of a squad (R349, R359). -/
inductive TrapState where
  | idle | stopping | active
  deriving DecidableEq, Repr

/-- A collected cause: one issue and code, with its lanes and the values of R357 for its lowest lane. -/
structure CauseRec where
  cause : Cause
  issue : Nat
  lanes : BitVec 32
  pc : Word
  addr : Dword
  info : Word
  progress : Dword
  deriving DecidableEq, Repr

/-- One entry of the uniform-step ring (R335): the step's number and program counter, and the values it replaced (R114). -/
structure UStep where
  num : Nat
  pc : Word
  oldK : List (Nat × Dword)
  oldCsr : Option (Nat × Dword)
  deriving DecidableEq, Repr

/-- A sync record (R385). -/
structure SyncRec where
  mask : BitVec 32
  arrived : BitVec 32
  deriving DecidableEq, Repr

/-- Squad states (R332). -/
inductive SquadState where
  | active | evicted | saved | retired
  deriving DecidableEq, Repr

/-- A squad (R19, R83, R98). -/
structure Squad where
  state : SquadState
  /-- Issue partition 0–3 and squad slot there (R20, R330). -/
  partition : Nat
  slot : Nat
  threads : List Thread
  /-- Uniform registers k0–k59 (R83). -/
  k : List Dword
  /-- Residues of their halves, by 2·k + half, where one differs from what the half's value gives (R83, R94). -/
  kres : List (Nat × Nat)
  /-- The squad's uniform-step count U and its ring of the last eight steps (R335). -/
  ustep : Nat
  ring : List UStep
  fflags : BitVec 6
  fptrap : BitVec 6
  tcause : BitVec 8
  taddr : Dword
  tmask : BitVec 32
  tinfo : Dword
  lrange : Dword
  cietab : Dword
  /-- Trap state, the causes being collected, the queue of R353 and the pending bits of R354 (context n in bit n). -/
  trap : TrapState
  collected : List CauseRec
  tqueue : List CauseRec
  pendXp : BitVec 4
  pendXpCode : List Nat
  /-- QMAP bindings of v176–v191 (R275): the context each is bound to, 0 for none. -/
  bind : List Nat
  /-- Sync record, and the second one of the handler (R385). -/
  sync : Option SyncRec
  hsync : Option SyncRec
  /-- Strict cell-scope atomics performed (R229), and the issue of one whose lanes still await a peer, with whether a lane has performed it. -/
  turns : Nat
  turnAt : Option (Nat × Bool)
  /-- Uniform tags of the lane registers (R91). -/
  tags : List Bool
  /-- Handler squad of R420: the receiving handler index. -/
  handler : Option Nat
  /-- An evicted squad's image lies in the park area and not in the cave (R344). -/
  parked : Bool
  /-- A saved squad that was evicted when its cell was saved (R345). -/
  wasEvicted : Bool
  deriving DecidableEq, Repr

/-! ## Cell-level units -/

/-- Barrier slot states (R373). -/
inductive SlotState where
  | free | armed | completing
  deriving DecidableEq, Repr

/-- What reached a slot while it was COMPLETING and is held until it is ARMED again (R374, R375): an arrival of a thread or of a context with
its bytes and the generation at its issue (R378), or a BARINV. -/
inductive SlotHeld where
  | arrive (tix : Nat) (bytes : Int) (gen : BitVec 8)
  | xarrive (ctx : Nat) (bytes : Int) (gen : BitVec 8)
  | inv (tix : Nat)
  deriving DecidableEq, Repr

/-- A barrier slot (R373). WAITMAP is the set of tix; what it holds back while it is COMPLETING, in the order of its coming, and the phases it
has completed. -/
structure Slot where
  state : SlotState
  expect : Nat
  arrived : Nat
  pending : Int
  gen : BitVec 8
  pbit : Bool
  waitmap : List Nat
  xwait : List Nat
  maxtix : Nat
  lasttix : Nat
  closer : Nat
  tlast : Nat
  held : List SlotHeld
  completed : Nat
  deriving DecidableEq, Repr

/-- An accumulator tile (R189): the elements that are not zero, by 64·row + column. -/
structure Tile where
  elems : List (Nat × BitVec 56)
  mode : Bool
  flags : BitVec 6
  deriving DecidableEq, Repr

/-- A rind panel (R190): data area byte 384·column + i, scale strip byte 96·column + i. -/
structure Panel where
  loaded : Bool
  fmt : Nat
  gsz : Nat
  data : Memory
  strip : Memory
  deriving DecidableEq, Repr

/-- The issue state of a panel (R191). -/
structure PanelIssue where
  loaded : Bool
  fmt : Nat
  gsz : Nat
  deriving DecidableEq, Repr

/-- An operation of the array queue with everything it read at issue (R192). -/
inductive ArrayOp where
  | mxbld (panel base pitch fmt gsz : Nat)
  | mxm (fmt tile panel base pitch kg : Nat) (iacc : Bool) (scales : List (List Word))
  | mxmv (fmt tile panel kg : Nat) (rows : List (Nat × List Word))
  | mxz (tile : Nat) (mode : Bool)
  | mxrd (fn tile col nm1 : Nat) (sat : Bool) (d : Nat) (lanes : List Tid)
  | mxwr (fn tile col : Nat) (rows : List (Nat × List Word))
  | mxst (fn tile base pitch : Nat) (sat : Bool)
  | mxqry (tile : Nat) (d : Nat) (lanes : List Tid)
  deriving DecidableEq, Repr

/-- An entry of a core's array queue (R192): its number and the cell whose tiles and panels it names; whether its scratch accesses have begun,
and the scratch words that it has read or written so far (R194). -/
structure ArrayEntry where
  id : Nat
  cell : Nat
  op : ArrayOp
  begun : Bool
  words : List (Nat × Word)
  deriving DecidableEq, Repr

/-- Transfer-processor context states (R246). -/
inductive XState where
  | idle | running | waiting | stopped | exited | killed
  deriving DecidableEq, Repr

/-- A tensor address generator (R247). -/
structure Gen where
  valid : Bool
  scratch : Bool
  base : Dword
  rank : Nat
  esz : Nat
  ext : List Nat
  str : List Int
  idx : List Nat
  wrap : Bool
  deriving DecidableEq, Repr

/-- An open loop level (R245, R253): remaining count, body start and end word. -/
structure Loop where
  count : Dword
  start : Nat
  stop : Nat
  deriving DecidableEq, Repr

/-- One element of a run: where it is read and everywhere it is written (R258, R261), and both addresses as a stop names them (R267). -/
structure RunElem where
  src : Place
  dst : List Place
  srcAddr : Dword
  dstAddr : Dword
  deriving DecidableEq, Repr

/-- Where a run stands in its transfer word (R267): the word, the number of its issue, its two generators by number and as they stood at the
run's first element, whether the source generator stays, that element's number in the word, the word's elements, and the first element that
this execution of the word moved. -/
structure RunAt where
  pc : Nat
  word : Nat
  sg : Nat
  dg : Nat
  sgen : Gen
  dgen : Gen
  stays : Bool
  first : Nat
  total : Nat
  base : Nat
  deriving DecidableEq, Repr

/-- A run in flight (R258): its elements, those still to move and those whose bytes an earlier run has counted, an element's bytes at the
destination and the bytes landed so far, whether it has begun, conversion, counting slot with generation per receiving cell (R259), phase tag
(R265), and where it stops its context, unless that has been left behind (R267, R270). -/
structure Run where
  id : Nat
  ctx : Nat
  elems : List RunElem
  left : List Nat
  again : List Nat
  size : Nat
  bytes : Nat
  begun : Bool
  conv : Option (BitVec 12)
  count : List (Nat × Nat × BitVec 8)
  phase : Nat
  at' : Option RunAt
  deriving DecidableEq, Repr

/-- The first element of a context's transfers that has failed its check or met an uncorrectable error (R267): its run and place there, and
the stop that it makes once the runs under way have landed: code and address, the word with its generators at the element, the elements from
it on, those moved before it, those issued, and the ones that have not landed, by the issue of their word. -/
structure XpFail where
  run : Nat
  elem : Nat
  code : Nat
  addr : Dword
  pc : Nat
  word : Nat
  sg : Nat
  dg : Nat
  sgen : Gen
  dgen : Gen
  rem : Nat
  low : Nat
  total : Nat
  count : List (Nat × Nat × BitVec 8)
  phase : Nat
  lost : List (Nat × Nat)
  deriving DecidableEq, Repr

/-- An operation handed by XMXM and not yet in the array queue (R263): the operation, the XMXM's word, and the slot and
phase bit it waits on. -/
structure PendMx where
  op : ArrayOp
  word : Nat
  wait : Option (Nat × Bool)
  deriving DecidableEq, Repr

/-- What holds a context (R246): it is WAITING for a slot's phase, a drain, a page or a queue; RUNNING while its word waits for the words
before it, for a peer's answer, for its elements at a peer, or at a slot that holds its arrival (R375). -/
inductive XWaitOn where
  | none
  | slot (n : Nat) (pbit : Bool)
  | drain (mask upto : Nat)
  | page (root page : Nat)
  | queue
  | order
  | remote
  | runs
  | held
  deriving DecidableEq, Repr

/-- A user context XP1–XP3 (R245, R246). -/
structure XpCtx where
  x : List Dword
  xpc : Nat
  gens : List Gen
  loops : List Loop
  state : XState
  code : Nat
  mcdrop : Nat
  qdisc : Nat
  rem : Nat
  pendmx : List PendMx
  waitOn : XWaitOn
  exiting : Bool
  /-- Of the data word at XPC: its counting slots with their generations, its phase tag, the elements moved by this execution, the number of its
  issue, and its elements from REM on whose bytes landed before a stop and were counted then (R268). -/
  xcount : List (Nat × Nat × BitVec 8)
  xphase : Nat
  moved : Nat
  xword : Nat
  counted : List Nat
  /-- The element at which it is to stop. -/
  fail : Option XpFail
  deriving DecidableEq, Repr

/-- A TCOPY request (R273): its number, the elements landed, and once XP0 has begun it the tensor and the box of its record. -/
structure TcopyReq where
  id : Nat
  cell : Nat
  landed : Nat
  tensor : Option (Gen × List Nat)
  load : Bool
  record : Dword
  index : List Int
  scratch : Nat
  slot : Option (Nat × BitVec 8)
  phase : Nat
  deriving DecidableEq, Repr

/-! ## Cells, gangs and kernels -/

/-- Cell states (R332) and where a saved cell's state lies (R283, R285, R479). -/
inductive CellState where
  | running | draining | saving | saved | exited
  deriving DecidableEq, Repr

inductive CellPlace where
  | core | inPlace | caved | parked
  deriving DecidableEq, Repr

/-- The shape a cell was launched with (R317). -/
structure Shape where
  squads : Nat
  vregs : Nat
  wregs : Nat
  scratch : Nat
  acc : Nat
  rind : Bool
  xp : Nat
  deriving DecidableEq, Repr

/-- An unpublished byte of a cell view: its location, the thread that wrote it, and the page it was translated through (R403, R430). -/
structure ViewMark where
  loc : Loc
  t : Tid
  page : Option (Nat × Nat)
  deriving DecidableEq, Repr

/-- A resident or saved cell (R19). -/
structure Cell where
  id : Nat
  ctx : Nat
  kernel : Nat
  gang : Nat
  /-- k16–k19, k22 (R87). -/
  index : Nat
  x : Nat
  y : Nat
  z : Nat
  gindex : Nat
  core : Nat
  place : CellPlace
  state : CellState
  shape : Shape
  strict : Bool
  /-- The reference of the code buffer (R317). -/
  code : Dword
  squads : List Squad
  scratch : Memory
  slots : List Slot
  tiles : List Tile
  bank : List (Nat × Panel)
  tileIssue : List Bool
  panelIssue : List (Nat × PanelIssue)
  xps : List XpCtx
  /-- XP0's CODE for the cell (R272). -/
  xp0code : Nat
  runs : List Run
  /-- TCOPY requests that XP0 had not begun, saved with the cell (R276). -/
  tcopy : List TcopyReq
  /-- csr.phase, csr.orphans, csr.deadline, csr.preq (R98). -/
  phase : Nat
  orphans : Nat
  deadline : Nat
  preq : Bool
  preqAt : Nat
  /-- Unpublished phased writes (R430). -/
  view : List (Loc × Byte)
  /-- Who made each of those writes, and the page it was translated through, which publication marks DIRTY (R403). -/
  marks : List ViewMark
  deriving DecidableEq, Repr

/-- A gang (R19, R386): its phase number and the cells of it; whether it was saved to make room, and goes on when there is room again
(R343, R344). -/
structure Gang where
  id : Nat
  kernel : Nat
  index : Nat
  scope : Nat
  unit : Nat
  cells : List Nat
  count : Nat
  phase : Nat
  fused : Bool
  gaveRoom : Bool
  deriving DecidableEq, Repr

/-- The launch descriptor (R317), parsed. -/
structure LaunchDesc where
  codeRef : Dword
  entry : Nat
  gx : Nat
  gy : Nat
  gz : Nat
  shape : Shape
  gcells : Nat
  scope : Nat
  fused : Bool
  det : Bool
  tmode : Nat
  steal : Bool
  xpauto : Bool
  deadline : Nat
  xpstart : Nat
  argRef : Dword
  bmapRef : Dword
  prodDesc : Dword
  mx : Nat
  sx : Nat
  ox0 : Int
  ox1 : Int
  my : Nat
  sy : Nat
  oy0 : Int
  oy1 : Int
  deriving DecidableEq, Repr

/-- Kernel states (R320). -/
inductive KState where
  | pending | running | complete | cancelled | faulted
  deriving DecidableEq, Repr

/-- A kernel record (R317–R323). -/
structure Kernel where
  id : Nat
  ctx : Nat
  descRef : Dword
  desc : LaunchDesc
  args : List Dword
  state : KState
  code : Nat
  prio : Nat
  lp : Nat
  qid : Nat
  entry : Nat
  strict : Bool
  deadline : Nat
  pset : BitVec 24
  maxCells : Nat
  producer : Option Nat
  /-- Gangs not yet placed, in ascending index, and cells exited with the core each ran on (R322, R328). -/
  unplaced : List Nat
  exited : List (Nat × Nat)
  /-- The kernel ends FAULTED when its cells have exited (R320), and unstarted cells never start. -/
  doomed : Bool
  /-- The gang with which it heads its priority level and since when (R325), and its gangs' reservations: gang and scope unit. -/
  headGang : Option Nat
  headSince : Nat
  reserved : List (Nat × Nat)
  /-- A transfer-only launch (R308). -/
  xpOnly : Bool
  /-- Cells each core owns unstarted under STEAL (R326). -/
  steal : List (Nat × List Nat)
  /-- Bits of the producer's bitmap that have been seen set (R323). -/
  seen : List Nat
  deriving DecidableEq, Repr

/-! ## Cores -/

/-- An entry of a vat (R333): its key, and the threads that have joined it. -/
structure VatEntry where
  partition : Nat
  pc : Word
  threads : List Tid
  deriving DecidableEq, Repr

/-- What a core holds beside its cells (R10, R280). -/
structure Core where
  id : Nat
  /-- The vat's entries, the partitions' spill lists, the bundles that snapshots have formed and that have not issued, the clock of the
  next snapshot (R333), and the squad slot that each partition's scalar unit served last (R336). -/
  vat : List VatEntry
  spill : List Tid
  bundles : List (List Tid)
  snapAt : Nat
  scalar : List Nat
  /-- The array queue (R192). -/
  array : List ArrayEntry
  /-- Sub-arrays awake, and the clock of the last MXM or MXMV (R196). -/
  awake : BitVec 4
  usedAt : Nat
  /-- csr.mxidle as the present idle count took it (R460). -/
  idleLimit : Nat
  /-- XP0's requests, the first being served (R273). -/
  tcopy : List TcopyReq
  /-- csr.mxidle and csr.rescorr (R98). -/
  mxidle : Nat
  rescorr : Nat
  /-- Scratch carve-out in bytes (R11). -/
  carve : Nat
  deriving DecidableEq, Repr

/-! ## Contexts -/

/-- Context states (R281). -/
inductive CtxState where
  | built | bound | running | caved | parked | stopping | faulted | dead
  deriving DecidableEq, Repr

/-- A context (R277); id FREE is absence from the list. -/
structure Context where
  id : Nat
  state : CtxState
  btref : Dword
  btcount : Nat
  tmode : Bool
  strict : Bool
  light : Bool
  combwin : Nat
  tvec : Word
  batchto : Nat
  dlmax : Nat
  amtab : Dword
  fring : Dword
  frsize : Nat
  park : Dword
  parksize : Nat
  pset : BitVec 24
  /-- csr.collisions (R98). -/
  collisions : Nat
  bt : List (Nat × BtEntry)
  /-- SEQ of the next fault record (R363). -/
  fseq : Nat
  /-- A swap or park in progress, which holds the commands that name the context (R282); whether it is a park. -/
  busy : Bool
  parking : Bool
  deriving DecidableEq, Repr

/-! ## Queues and launch processors -/

/-- Queue states (R294); FREE is absence from the list. -/
inductive QState where
  | idle | ready | held | error | stopped
  deriving DecidableEq, Repr

/-- The entry kinds (R301). -/
inductive EntryKind where
  | nop
  | launch (descRef : Dword)
  | launchInd (descRef proRef : Dword) (pentry : Word) (param : Dword)
  | xplaunch (codeRef : Dword) (start : Nat) (gx gy gz scr : Nat) (arg : Dword)
  | copy (src dst : Dword) (bytes : Nat)
  | qfence (slots : List (Nat × Nat))
  | signal (stamp value : Dword)
  | wait (stamp value : Dword) (cond : Nat) (timeout : Nat)
  | timed (sec nsec : Nat) (relref : Dword)
  | collective (cref : Dword)
  deriving DecidableEq, Repr

/-- An entry as the launch processor copied it (R297, R299). -/
structure Entry where
  index : Nat
  serial : Bool
  kind : EntryKind
  deriving DecidableEq, Repr

/-- How a prologue has ended (R306, R307): at its EXIT, or on a cause. -/
inductive ProEnd where
  | exit
  | fault (c : Cause) (addr : Dword)
  deriving DecidableEq, Repr

/-- A running prologue (R304–R307). -/
structure Prologue where
  qid : Nat
  ctx : Nat
  code : Dword
  pc : Word
  k : List Dword
  p : BitVec 16
  /-- The clock of its first fetch (R307). -/
  startAt : Option Nat
  descRef : Dword
  ended : Option ProEnd
  deriving DecidableEq, Repr

/-- A queue record (R290, R291). -/
structure Queue where
  qid : Nat
  ctx : Nat
  rsizeLog2 : Nat
  maxPrio : Nat
  weight : Nat
  lp : Nat
  maxCells : Nat
  ppart : BitVec 24
  uref : Dword
  ridx : Nat
  state : QState
  code : Nat
  rqcount : Nat
  /-- The head entry once read, the queue's priority and ring as last loaded (R292). -/
  head : Option Entry
  prio : Nat
  ringRef : Dword
  /-- Issued entries that have not completed (R302). -/
  open' : List Nat
  /-- The repeating kernel of disposition 2 (R306). -/
  repeatOf : Option Nat
  /-- The monitor on the user half has fired (R296). -/
  woken : Bool
  /-- The head entry waits on its own condition, since when (R310, R312, R313); when TIMED released it, and the
entries that go first for it (R315). -/
  armed : Bool
  heldAt : Nat
  timedAt : Option (Nat × Nat)
  /-- The clock of a TIMED entry's release and its sample, which a page in motion or a peer still delays (R313). -/
  sample : Option (Nat × List Byte)
  /-- A prologue that has ended with a launch whose check waits (R306, R321). -/
  pending : Option Prologue
  deriving DecidableEq, Repr

/-- A launch processor (R17, R304, R315). -/
structure LaunchProc where
  prologue : Option Prologue
  /-- For each priority level the queue last served there and how many entries of it in a row. -/
  served : List (Option (Nat × Nat))
  lastIssue : Option Nat
  deriving DecidableEq, Repr

/-- A COPY in progress (R309). -/
structure CopyJob where
  id : Nat
  qid : Nat
  lp : Nat
  entry : Nat
  ctx : Nat
  src : Dword
  dst : Dword
  bytes : Nat
  landed : Nat
  /-- Bytes read and not yet landed. -/
  held : List Byte
  deriving DecidableEq, Repr

/-- A collective in the engine (R424–R426). -/
structure CollJob where
  qid : Nat
  lp : Nat
  entry : Nat
  ctx : Nat
  kind : Nat
  dt : Nat
  op : Nat
  nrank : Nat
  myrank : Nat
  count : Nat
  nsrc : Nat
  src : Dword
  stride : Nat
  dst : Dword
  groupId : Nat
  seq : Nat
  /-- The packages of the group in its order, the partners that agree and whether one does not or has ended the collective, what they have
  sent and who has acknowledged; this package's sums once it has sent them, and the outputs still to be written (R426). -/
  ranks : List Nat
  agreed : List Nat
  failed : Bool
  shards : List (Nat × List Dword)
  acks : List Nat
  own : Option (List Dword)
  out : Option (List Dword)
  deriving DecidableEq, Repr

/-! ## Atomics and batches -/

/-- A combining point (R24, R230): a core's load-store unit, a sector crossbar's port toward a slice, a sector's ring stop, and the link
switch at egress and at ingress. -/
inductive Point where
  | lsu (core : Nat)
  | port (sector slice : Nat)
  | stop (sector : Nat)
  | egress
  | ingress
  deriving DecidableEq, Repr

/-- Who made an atomic request (R224, R242): a thread, with its destination, the reference of the access, its taint and the queue registers
it pops; or a peer. -/
inductive AtomWho where
  | thread (t : Tid) (d : Option Code) (ref : Dword) (taint : Bool) (pops : List Nat)
  | peer (r : PeerRequest)
  deriving DecidableEq, Repr

/-- The contributors of a combined request, in the shape and at the points at which it was combined (R231). -/
inductive AtomTree where
  | leaf (id : Nat) (who : AtomWho) (operand : Dword)
  | node (at' : Point) (lower higher : AtomTree)
  deriving DecidableEq, Repr

/-- What an immediate access does when its home performs it: a load into registers, tainted or not, one of LD.consume or not; or a store of
bytes. -/
inductive LateUse where
  | load (dest : Code) (signed taint consume : Bool)
  | store (data : List Byte)
  deriving DecidableEq, Repr

/-- An immediate access that a thread has issued, by the number of its issue, and that its home has not yet performed (R440): it is performed
once its delay, in turns of the device's own events, is over. -/
structure LateAccess where
  id : Nat
  t : Tid
  issue : Nat
  delay : Nat
  access : Access
  use : LateUse
  deriving DecidableEq, Repr

/-- A fetch-and-operate or CAS request on its way (R224, R225, R230), with the combining points that lie before it, the first of which
holds it. -/
structure AtomReq where
  id : Nat
  ctx : Nat
  op : Nat
  wide : Bool
  loc : Loc
  cas : Option (Dword × Dword)
  operand : Dword
  key : Nat
  path : List Point
  since : Nat
  pages : List (Nat × Nat)
  tree : AtomTree
  deriving DecidableEq, Repr

/-- A reply on its way back (R231). -/
structure AtomReply where
  id : Nat
  op : Nat
  wide : Bool
  loc : Loc
  value : Dword
  tree : AtomTree
  deriving DecidableEq, Repr

/-- A term of a batch (R232): who gave it and where the reply goes. -/
structure Term where
  id : Nat
  t : Tid
  core : Nat
  ctx : Nat
  loc : Loc
  batch : Nat
  key : Nat
  count : Nat
  fadd : Bool
  wide : Bool
  value : Dword
  d : Code
  p : Nat
  taint : Bool
  pages : List (Nat × Nat)
  deriving DecidableEq, Repr

/-- An ATOMB request on its way (R236): the node of the batch's lattice tree whose sum it carries, the terms below that node, the
combining points that lie before it, and those whose split buffers hold an entry for it. -/
structure TermReq where
  id : Nat
  level : Nat
  index : Nat
  sum : Dword
  terms : List Term
  path : List Point
  since : Nat
  entries : List Point
  deriving DecidableEq, Repr

/-- An open batch at its home slice (R233), with the split-buffer entries that its requests hold. -/
structure Batch where
  id : Nat
  ctx : Nat
  loc : Loc
  batch : Nat
  count : Nat
  fadd : Bool
  wide : Bool
  terms : List Term
  lastAt : Nat
  pages : List (Nat × Nat)
  entries : List Point
  deriving DecidableEq, Repr

/-- A batch reply on its way (R235): the prefix, or none after an abort. -/
structure BatchReply where
  id : Nat
  t : Tid
  value : Option Dword
  wide : Bool
  d : Code
  p : Nat
  taint : Bool
  deriving DecidableEq, Repr

/-- The first thread that FILMADD recorded for a pair in its gang's phase (R239). -/
structure FilmOwner where
  loc : Loc
  t : Tid
  gang : Nat
  pages : List (Nat × Nat)
  deriving DecidableEq, Repr

/-! ## Link and host port -/

/-- Port states (R412). -/
inductive PortState where
  | down | training | up | degraded | retraining | fenced | isolated
  deriving DecidableEq, Repr

/-- A UALink port (R410–R414). -/
structure Port where
  state : PortState
  lanes : Nat
  sent : Nat
  retrans : Nat
  dups : Nat
  amdrop : Nat
  deriving DecidableEq, Repr

/-- Whoever of this package needs a peer's answer before it can go on (R414): a thread, the word of a transfer context, a run's element, a
tensor copy, a queue at its launch processor, a COPY, a kernel, a cell that ends, a context's message table, the collective engine, the
host port. -/
inductive Asker where
  | thread (t : Tid)
  | xp (x : Xid)
  | run (cell run elem : Nat)
  | tcopy (core req : Nat)
  | queue (qid : Nat)
  | copy (job : Nat)
  | kernel (id : Nat)
  | cell (id : Nat)
  | ctx (id : Nat)
  | coll
  | host
  | dev (write : Nat)
  deriving DecidableEq, Repr

/-- An immediate-class store of the device's own that a page in motion, a peer or an earlier one to the same buffer delays (R292, R364, R398):
where it goes, the source to which a fault record that fails its checks is reported, and the squad whose handler awaits it. -/
structure DevWrite where
  id : Nat
  ctx : Nat
  idx : Nat
  off : Nat
  align : Nat
  data : List Byte
  record : Option Nat
  hold : Option (Nat × Nat)
  deriving DecidableEq, Repr

/-- A request that its asker waits for, by its number, and the answer once it has come: data and cause code (R414, R415). -/
structure Ask where
  who : Asker
  req : Nat
  peer : Nat
  pctx : Nat
  pidx : Nat
  off : Nat
  op : PeerOp
  answer : Option (List Byte × Nat)
  deriving DecidableEq, Repr

/-- Why a request of this package is outstanding: who receives the answer (R414). A thread's load or atomic names the registers
its answer writes and the queue registers it pops once it has completed (R89); `ref` is the reference of the access (R215). -/
inductive RemoteUse where
  | load (t : Tid) (ref : Dword) (d : Code) (width : Nat) (signed spectral taint : Bool) (pops : List Nat)
  | atomic (op : Nat) (wide : Bool) (loc : Loc) (key : Nat) (tree : AtomTree)
  | uload (t : Tid) (ref : Dword) (d : Nat) (width : Nat) (signed : Bool)
  | store (t : Option Tid) (ref : Dword) (cell : Nat) (pops : List Nat)
  | ask (who : Asker)
  | message
  deriving DecidableEq, Repr

/-- A request to a peer (R414, R415). -/
structure RemoteReq where
  id : Nat
  peer : Nat
  port : Nat
  tag : BitVec 12
  pctx : Nat
  pidx : Nat
  off : Nat
  op : PeerOp
  use : RemoteUse
  sentAt : Nat
  sent : Bool
  deriving DecidableEq, Repr

/-- A completed tag in the home's replay filter (R242, R415). -/
structure FilterEntry where
  src : Nat
  port : Nat
  tag : BitVec 12
  reply : List Byte
  cause : Nat
  at' : Nat
  deriving DecidableEq, Repr

/-- A message waiting in the message window (R420): when it arrived, and the handler squad it has been formed into. -/
structure Waiting where
  via : Nat
  msg : AmMessage
  at' : Nat
  group : Option Nat
  deriving DecidableEq, Repr

/-- A host window entry (R408). -/
structure WinEntry where
  seg : Nat
  valid : Bool
  rd : Bool
  wr : Bool
  ctx : Nat
  bidx : Nat
  offBase : Nat
  deriving DecidableEq, Repr

/-- The driver's commands, as their statuses name them (R282, R295, R401, R408, R411, R413, R456–R460). -/
inductive Cmd where
  | ctxCreate | ctxBind | ctxUnbind | ctxSwap | ctxPark | ctxUnpark | ctxKill | ctxFree | qCreate | qReset | qDestroy
  | btSet | pgMap | pgUnmap | pgBrine | pgMigrate | pgPool | pgScan | ckpt | winSet | linkCfg | linkRoute | linkEnable
  | linkFence | linkUnfence | linkDisable | linkQry | fwReload | sectorReset | isolate | release | attest | csrSet | pwrQry
  | errorLogRead
  deriving DecidableEq, Repr

/-- What leaves the package, newest last: command statuses and results (R282, R295, R398, R401), host read answers (R407,
R408, R450), interrupts (R407), and traffic to the peers (R415, R419). -/
inductive Output where
  | status (cmd : Cmd) (code : Nat)
  | scan (bits : List (Bool × Bool))
  | skipped (pages : List (Nat × Nat))
  | data (bytes : List Byte)
  | unsupported
  | retry
  | irqCommand
  | irqError
  | returned (addr : Nat)
  | poolEmpty (stack : Nat)
  | bootFailure (step : Nat)
  | link (port start bytes : Nat) (req : RemoteReq)
  | response (rank : Nat) (r : PeerResponse)
  | errorResponse (rank port : Nat) (tag : BitVec 12)
  | credit (rank : Nat)
  | counters (sent retrans dups hostRej amdrop : Nat)
  | power (stretch : List Nat) (power : Nat)
  | report (bytes : List Byte)
  | logRecord (r : List Byte)
  | offer (group seq : Nat) (o : CollOffer)
  | contribution (group seq : Nat) (sums : List Dword)
  | acknowledge (group seq : Nat)
  | collFailed (group seq : Nat)
  | kernelRecord (kernel qid entry : Nat) (st : KState) (code : Nat)
  | pageImage (target : Nat × Nat × Nat) (offset buffer page : Nat) (bytes : Memory) (brined : Bool)
  deriving DecidableEq, Repr

/-! ## The apex core -/

/-- One error-log record (R368). -/
structure LogRec where
  seq : Nat
  src : Nat
  kind : Nat
  count : Nat
  addr : Nat
  time : Nat
  deriving DecidableEq, Repr

/-- A firmware image in flash (R451): its header, what stands after the header in its slot, and the signature. -/
structure Image where
  header : List Byte
  content : List Byte
  sig : List Byte
  deriving DecidableEq, Repr

/-- The two slots of an image type (R451). -/
structure Slots where
  a : Option Image
  b : Option Image
  deriving DecidableEq, Repr

/-- The serial flash (R6, R451, R453, R454): the 512-byte configuration record, two slots for each image type, the identity's helper data, and
Helpor's certificate of the public key, which the device does not check. -/
structure Flash where
  record : List Byte
  memPort : Slots
  linkSwitch : Slots
  launchProc : Slots
  helper : Option (List Byte)
  certificate : List Byte
  deriving DecidableEq, Repr

/-- A measurement-log entry (R452). -/
structure MeasEntry where
  type : Nat
  slotB : Bool
  version : Nat
  digest : List Byte
  deriving DecidableEq, Repr

/-- A firmware block's heartbeat (R457): blocks 0–5 launch processors, 6 link switch controller, 7–18 memory ports. -/
structure Heart where
  block : Nat
  last : Nat
  reloadedAt : Option Nat
  deriving DecidableEq, Repr

/-- A physical fault that the outside world inflicts (R95, R461): the model's own field for what soft errors arrive, with the address
concerned; a line's is in its L2 slice, a frame's in the memory. -/
inductive Upset where
  | residue (replayPasses : Bool)
  | core (core addr : Nat)
  | cellState (cell : Nat)
  | lineCorrectable (addr : Nat)
  | line (addr : Nat)
  | frameCorrectable (addr : Nat)
  | frame (addr : Nat)
  | firmware (block addr : Nat)
  | firmwareCorrectable (block addr : Nat)
  | stackFails (stack : Nat)
  | register (t : Tid) (r : Reg) (bit : Nat)
  deriving DecidableEq, Repr

/-- What steps next: a bundle (R333), a transfer-processor context, or a launch processor's prologue. -/
inductive Issuer where
  | bundle (ts : List Tid)
  | xp (x : Xid)
  | prologue (lp : Nat)
  deriving DecidableEq, Repr

/-- A CKPT in progress (R404). -/
structure CkptJob where
  ctx : Nat
  pages : List (Nat × Nat × Nat)
  /-- The first page is being read. -/
  reading : Bool
  full : Bool
  skipped : List (Nat × Nat)
  target : Dword
  deriving DecidableEq, Repr

/-! ## The package -/

structure State where
  /-- Core clocks since reset (R122) and the 1588 time unit as the difference to be added, in ns (R123). -/
  clk : Nat
  ptpOffset : Int
  /-- Boot step reached (R450), 7 when open, and whether the boot stopped (R7, R452). -/
  bootStep : Nat
  bootFailed : Bool
  flash : Flash
  mlog : List MeasEntry
  mlogOverflow : Bool
  /-- The response of the unclonable function from which the identity key is derived, where it has been reconstructed (R454, R455). -/
  identity : Option (BitVec 256)
  stepping : Nat
  coremask : BitVec 144
  vdroop : Nat
  minVersions : List Nat
  /-- csr.reserve, csr.errdrop (R98). -/
  reserve : Nat
  errdrop : Nat
  /-- The error log, the driver's read index, SEQ of the next record, and the counters of each source and kind (R368–R371). -/
  errlog : List LogRec
  logRead : Nat
  logSeq : Nat
  logCounts : List (Nat × Nat × Nat)
  hearts : List Heart
  /-- Firmware blocks that stay in reset because no image of theirs verifies (R452). -/
  blocksDown : List Nat
  /-- Droop stretching now and counted, per sector (R459). -/
  stretched : BitVec 6
  stretches : List Nat
  /-- Device partitions (R279). -/
  partitions : List (BitVec 24)
  /-- Device partitions whose swap is in progress (R283). -/
  swaps : List Nat
  contexts : List Context
  pages : List PageEntry
  brine : List BrineImage
  brineNext : Nat
  /-- Free frames of each stack (R399). -/
  pools : List (Nat × List Nat)
  mem : Memory
  hostMem : Memory
  /-- Words that running kernels' code buffers have held since launch and hold no more, or that a cell has stored and not published
  (R57): kernel, word of the buffer, value. -/
  codeWords : List (Nat × Nat × Word)
  oldWords : List OldWord
  devWrites : List DevWrite
  /-- Packages to which a credit is to go back once they can be reached (R412, R421). -/
  creditsOwed : List Nat
  ckpt : Option CkptJob
  queues : List Queue
  lps : List LaunchProc
  kernels : List Kernel
  nextKernel : Nat
  gangs : List Gang
  nextGang : Nat
  cells : List Cell
  nextCell : Nat
  cores : List Core
  copyJobs : List CopyJob
  colls : List CollJob
  nextId : Nat
  late : List LateAccess
  reqs : List AtomReq
  replies : List AtomReply
  terms : List TermReq
  batches : List Batch
  batchReplies : List BatchReply
  owners : List FilmOwner
  /-- Link: this package's rank, routing table, ports, requests, the home's replay filter, message window, sequence
  numbers sent and accepted, and reply credits (R411–R422). -/
  rank : Nat
  routes : List (Nat × BitVec 8)
  ports : List Port
  remote : List RemoteReq
  /-- Requests of askers that have been sent, with the answers that their askers have not yet used (R414). -/
  asks : List Ask
  filter : List FilterEntry
  /-- Tags not to be reused yet (R242): port, tag, until when. -/
  tagHold : List (Nat × BitVec 12 × Nat)
  window : List Waiting
  amSeqOut : List (Nat × Nat)
  amSeqIn : List (Nat × Nat)
  credits : Nat
  /-- Host port: window entries and HOSTREJ (R408, R414). -/
  windows : List WinEntry
  hostRej : Nat
  out : List Output
  /-- The model's own fields: the events and commands still to happen, what issues next, the bundle or context in
  execution, physical faults to come, the issue counter, the counter that numbers free values, and the counter by which what the device
  does by itself takes turns. -/
  agenda : List Instr
  issue : List Issuer
  cur : Issuer
  upsets : List Upset
  issued : Nat
  free : Nat
  turn : Nat
  deriving DecidableEq, Repr

/-- A port as reset leaves it (R413, R450 step 5). -/
def Port.reset : Port := ⟨.down, 0, 0, 0, 0, 0⟩

/-- A launch processor before it serves anything. -/
def LaunchProc.reset : LaunchProc := ⟨none, List.replicate 8 none, none⟩

/-- The package at power-good: every block in reset, nothing booted (R450) (DESIGN CHOICE, log entry 2). -/
def State.reset : State where
  clk := 0
  ptpOffset := 0
  bootStep := 0
  bootFailed := false
  flash := ⟨[], ⟨none, none⟩, ⟨none, none⟩, ⟨none, none⟩, none, []⟩
  mlog := []
  mlogOverflow := false
  identity := none
  stepping := 0
  coremask := 0
  vdroop := 0
  minVersions := []
  reserve := 0
  errdrop := 0
  errlog := []
  logRead := 0
  logSeq := 1
  logCounts := []
  hearts := []
  blocksDown := []
  stretched := 0
  stretches := [0, 0, 0, 0, 0, 0]
  partitions := []
  swaps := []
  contexts := []
  pages := []
  brine := []
  brineNext := 0
  pools := []
  mem := []
  hostMem := []
  codeWords := []
  oldWords := []
  devWrites := []
  creditsOwed := []
  ckpt := none
  queues := []
  lps := List.replicate 6 LaunchProc.reset
  kernels := []
  nextKernel := 1
  gangs := []
  nextGang := 1
  cells := []
  nextCell := 1
  cores := []
  copyJobs := []
  colls := []
  nextId := 1
  late := []
  reqs := []
  replies := []
  terms := []
  batches := []
  batchReplies := []
  owners := []
  rank := 0
  routes := []
  ports := List.replicate 8 Port.reset
  remote := []
  asks := []
  filter := []
  tagHold := []
  window := []
  amSeqOut := []
  amSeqIn := []
  credits := 4096
  windows := []
  hostRej := 0
  out := []
  agenda := []
  issue := []
  cur := .bundle []
  upsets := []
  issued := 0
  free := 0
  turn := 0

end Sys2Proof.Machine
end

