-- ==== Sys2Proof/Machine/Ops.lean ====
section
/-! DEFINITION. Named operations over the state: reading and updating its parts, memory and its views, buffer checks and
translation, publication and acquire points, fault records and the error log, taking a trap and leaving the handler. -/
namespace Sys2Proof.Machine
open Sys2Proof

/-! ## Bytes and words -/

/-- Little-endian bytes of a number (R4). -/
def leBytes : Nat → Nat → List Byte
  | 0, _ => []
  | n + 1, v => BitVec.ofNat 8 v :: leBytes n (v / 256)

/-- The number of a little-endian byte list. -/
def leNat : List Byte → Nat
  | [] => 0
  | b :: r => b.toNat + 256 * leNat r

/-- n bytes of a list from an offset, as a number; bytes beyond the end read zero. -/
def byteField (l : List Byte) (off n : Nat) : Nat := leNat ((l.drop off).take n)

/-- A number as a signed value of w bits. -/
def toSigned (w n : Nat) : Int :=
  let m := n % 2 ^ w
  if m < 2 ^ (w - 1) then (m : Int) else (m : Int) - (2 ^ w : Nat)

/-- An integer wrapped to w bits. -/
def wrapNat (w : Nat) (i : Int) : Nat := (i % ((2 ^ w : Nat) : Int)).toNat

def word (n : Nat) : Word := BitVec.ofNat 32 n
def dword (n : Nat) : Dword := BitVec.ofNat 64 n
def lo32 (d : Dword) : Word := d.extractLsb' 0 32
def hi32 (d : Dword) : Word := d.extractLsb' 32 32

/-- A reference's buffer index and offset (R112). -/
def refIndex (r : Dword) : Nat := r.toNat / 2 ^ 44
def refOff (r : Dword) : Nat := r.toNat % 2 ^ 44
/-- The reference of an index and an offset. -/
def mkRef (idx off : Nat) : Dword := dword (idx * 2 ^ 44 + off)

/-! ## Parts of the state -/

def State.cell? (s : State) (id : Nat) : Option Cell := s.cells.find? (fun c => c.id == id)
def State.modCell (s : State) (id : Nat) (f : Cell → Cell) : State :=
  { s with cells := s.cells.map (fun c => if c.id == id then f c else c) }
def State.squad? (s : State) (cell sq : Nat) : Option Squad := (s.cell? cell).bind (fun c => c.squads[sq]?)
def State.modSquad (s : State) (cell sq : Nat) (f : Squad → Squad) : State :=
  s.modCell cell (fun c => { c with squads := c.squads.modify sq f })
def State.thread? (s : State) (t : Tid) : Option Thread := (s.squad? t.cell t.squad).bind (fun q => q.threads[t.lane]?)
def State.modThread (s : State) (t : Tid) (f : Thread → Thread) : State :=
  s.modSquad t.cell t.squad (fun q => { q with threads := q.threads.modify t.lane f })
def State.ctx? (s : State) (id : Nat) : Option Context := s.contexts.find? (fun c => c.id == id)
def State.modCtx (s : State) (id : Nat) (f : Context → Context) : State :=
  { s with contexts := s.contexts.map (fun c => if c.id == id then f c else c) }
def State.core? (s : State) (id : Nat) : Option Core := s.cores.find? (fun c => c.id == id)
def State.modCore (s : State) (id : Nat) (f : Core → Core) : State :=
  { s with cores := s.cores.map (fun c => if c.id == id then f c else c) }
def State.gang? (s : State) (id : Nat) : Option Gang := s.gangs.find? (fun g => g.id == id)
def State.modGang (s : State) (id : Nat) (f : Gang → Gang) : State :=
  { s with gangs := s.gangs.map (fun g => if g.id == id then f g else g) }
def State.kernel? (s : State) (id : Nat) : Option Kernel := s.kernels.find? (fun k => k.id == id)
def State.modKernel (s : State) (id : Nat) (f : Kernel → Kernel) : State :=
  { s with kernels := s.kernels.map (fun k => if k.id == id then f k else k) }
def State.queue? (s : State) (qid : Nat) : Option Queue := s.queues.find? (fun q => q.qid == qid)
def State.modQueue (s : State) (qid : Nat) (f : Queue → Queue) : State :=
  { s with queues := s.queues.map (fun q => if q.qid == qid then f q else q) }
def State.xp? (s : State) (x : Xid) : Option XpCtx := (s.cell? x.cell).bind (fun c => if x.ctx = 0 then none else c.xps[x.ctx - 1]?)
def State.modXp (s : State) (x : Xid) (f : XpCtx → XpCtx) : State :=
  s.modCell x.cell (fun c => if x.ctx = 0 then c else { c with xps := c.xps.modify (x.ctx - 1) f })
def State.emit (s : State) (o : Output) : State := { s with out := s.out ++ [o] }

/-- The next free value (a result the spec leaves open), and the state with the counter advanced (DESIGN CHOICE, log entry 7). -/
def State.fresh (s : State) : Dword × State := (Config.freeDword s.free, { s with free := s.free + 1 })

/-- Whether a cell's threads and engines can run where they stand. -/
def Cell.resident (c : Cell) : Bool := c.place = .core && (c.state = .running || c.state = .draining)

/-- Whether a context's cells run: it is not stopping, faulted or dead (R281, R286). -/
def ctxLive (s : State) (ctx : Nat) : Bool :=
  match s.ctx? ctx with
  | some c => c.state = .bound || c.state = .running || c.state = .caved || c.state = .parked
  | none => false

/-! ## Byte memories -/

/-- A byte of a memory; one that nothing has written is zero (DESIGN CHOICE, log entry 1). -/
def memRead (m : Memory) (a : Nat) : Byte :=
  match m.find? (fun c => c.1 == a) with
  | some c => c.2
  | none => 0

/-- Writes one byte and keeps the canonical form: a zero byte is not listed. -/
def memWrite : Memory → Nat → Byte → Memory
  | [], a, b => if b = 0 then [] else [(a, b)]
  | (x, y) :: r, a, b =>
    if a < x then (if b = 0 then (x, y) :: r else (a, b) :: (x, y) :: r)
    else if a = x then (if b = 0 then r else (a, b) :: r)
    else (x, y) :: memWrite r a b

def memReadN (m : Memory) (a n : Nat) : List Byte := (List.range n).map (fun i => memRead m (a + i))
def memWriteL (m : Memory) (a : Nat) : List Byte → Memory
  | [] => m
  | b :: r => memWriteL (memWrite m a b) (a + 1) r

/-- The canonical form: addresses strictly rising, no entry that reads as an unlisted address does. -/
def Memory.wf : Memory → Bool
  | [] => true
  | [c] => c.2 ≠ 0
  | c :: d :: r => c.2 ≠ 0 && decide (c.1 < d.1) && Memory.wf (d :: r)

/-! ## Causes (R357) -/

def Cause.code : Cause → Nat
  | .machineCheck => 0x01 | .illegalInstr => 0x02 | .lookaheadViolation => 0x03 | .operandNamespace => 0x04
  | .maskDisagree => 0x05 | .uniformDiverge => 0x06 | .detViolation => 0x07 | .refBounds => 0x08 | .refInvalid => 0x09
  | .refRights => 0x0A | .refOwner => 0x0B | .pageUnmapped => 0x0C | .pagePoisoned => 0x0D | .misaligned => 0x0E
  | .scratchBounds => 0x0F | .barBusy => 0x10 | .barState => 0x11 | .queueOrphan => 0x12 | .mcastTarget => 0x13
  | .xpStopped => 0x14 | .matrixState => 0x15 | .traceFormat => 0x16 | .texDesc => 0x17 | .fpExc => 0x18
  | .trapSoft => 0x20 | .breakpoint => 0x21

/-- The cause with the lowest code (R74). -/
def lowestCause : List Cause → Option Cause
  | [] => none
  | c :: r =>
    match lowestCause r with
    | none => some c
    | some d => some (if c.code ≤ d.code then c else d)

/-! ## Buffers: storage of an access, checks, translation (R215, R216, R390–R397) -/

/-- What an access needs of a buffer (R215 check 5, R216). -/
structure Need where
  right : BtEntry → Bool
  /-- Atomics, monitors and the immediate class: refused by a converting view (subcode 1). -/
  home : Bool
  /-- ATOMB, FILMADD, MONARM: refused by a remote target (subcode 2). -/
  local' : Bool
  store : Bool

def needLoad : Need := ⟨BtEntry.rd, false, false, false⟩
def needStore : Need := ⟨BtEntry.wr, false, false, true⟩
def needLoadImm : Need := ⟨BtEntry.rd, true, false, false⟩
def needStoreImm : Need := ⟨BtEntry.wr, true, false, true⟩
def needAtomic : Need := ⟨BtEntry.at', true, false, false⟩
def needHomeAtomic : Need := ⟨BtEntry.at', true, true, false⟩
def needMonitor : Need := ⟨BtEntry.rd, true, true, false⟩
def needExec : Need := ⟨BtEntry.ex, false, false, false⟩

/-- The storage view of an entry (R390). -/
def BtEntry.viewOf (e : BtEntry) : View := if e.tol then .t16 else if e.view then .mxView e.mxfmt else .raw

/-- Bytes of a stored MX block: 33 for the 8-bit formats, 17 for e2m1 (R37, R392). -/
def mxBlockBytes (fmt : Nat) : Nat := if fmt = 2 then 17 else 33

/-- The storage range an access of a view touches: start and count of whole units (R392). -/
def storageSpan (v : View) (off size : Nat) : Nat × Nat :=
  match v with
  | .raw => (off, size)
  | .t16 => (off / 4 * 2, ((off + size - 1) / 4 - off / 4 + 1) * 2)
  | .mxView fmt =>
    let b0 := off / 64
    let b1 := (off + size - 1) / 64
    (b0 * mxBlockBytes fmt, (b1 - b0 + 1) * mxBlockBytes fmt)

/-- How a check ends: the checked access, a page that makes the access wait, or a cause with its subcode. -/
inductive Checked where
  | ok (a : Access)
  | waits (root page : Nat)
  | bad (c : Cause) (sub : Nat)
  deriving DecidableEq, Repr

def State.page? (s : State) (root page : Nat) : Option PageEntry := s.pages.find? (fun p => p.root == root && p.page == page)
def State.modPage (s : State) (root page : Nat) (f : PageEntry → PageEntry) : State :=
  { s with pages := s.pages.map (fun p => if p.root == root && p.page == page then f p else p) }

/-- home_slice (R397); a host address is homed as if in stack 0. -/
def homeSlice : Loc → Nat
  | .dev pa => 8 * (pa / 2 ^ 36 % 16 / 2) + pa / 256 % 8
  | .host a => a / 256 % 8
  | _ => 0

/-- The address of an uncorrectable error that nothing has met yet, and the source that reports it: the memory's stack or the L2 slice
(R369, R461). -/
def Upset.spoils : Upset → Option (Nat × Nat)
  | .frame a => some (a, 0x140 + a / 2 ^ 36)
  | .line a => some (a, 0x100 + homeSlice (.dev a))
  | _ => none

/-- Such an error in a frame. -/
def spoiltFrame (s : State) (frame : Nat) : Option (Nat × Nat) :=
  s.upsets.findSome? (fun u => u.spoils.filter (fun x => decide (x.1 / 2 ^ 17 * 2 ^ 17 = frame)))

/-- Whether a page's frame lies behind a memory port that stays in reset, so that its accesses wait (R18, R452) (DEDUCED, log entry 119). -/
def portDown (s : State) (e : PageEntry) : Bool := e.ilv ≠ 4 && s.blocksDown.contains (7 + e.loc / 2 ^ 36)

/-- Check 7 of R215 over the storage pages touched, lowest first; an access that meets an uncorrectable error in a page's data, which the
port then poisons, is refused as one to a poisoned page is (R398, R461). -/
def checkPages (s : State) (root : Nat) : List Nat → Option Checked
  | [] => none
  | p :: r =>
    match s.page? root p with
    | none => some (.bad .pageUnmapped 0)
    | some e =>
      match e.state with
      | .unmapped => some (.bad .pageUnmapped 0)
      | .poisoned => some (.bad .pagePoisoned 0)
      | .resident =>
        if e.ilv ≠ 4 && (spoiltFrame s (e.loc / 2 ^ 17 * 2 ^ 17)).isSome then some (.bad .pagePoisoned 0)
        else if portDown s e then
          match checkPages s root r with
          | some (.bad c x) => some (.bad c x)
          | _ => some (.waits root p)
        else checkPages s root r
      | _ =>
        match checkPages s root r with
        | some (.bad c x) => some (.bad c x)
        | _ => some (.waits root p)

/-- A byte of a page where it lies: in its frame, a host page, or its compressed image (R395, R398). -/
def PageEntry.byteAt (p : PageEntry) (o : Nat) : Loc :=
  if p.inImage then .brine p.root p.page o else if p.ilv = 4 then .host (p.loc + o) else .dev (p.loc + o)

/-- The location of a storage byte of a page (R394, R395, R406). -/
def storageLoc (s : State) (e : BtEntry) (so : Nat) : Loc :=
  if e.rvalid then .remote e.peer e.pctx e.pidx so
  else
    match s.page? e.ptroot (so / 2 ^ 17) with
    | some p => p.byteAt (so % 2 ^ 17)
    | none => .brine e.ptroot (so / 2 ^ 17) (so % 2 ^ 17)

/-- The buffer table entry of an index, when it is valid for access (R390) (DESIGN CHOICE, log entry 86). -/
def btEntry? (s : State) (ctx idx : Nat) : Option BtEntry :=
  match s.ctx? ctx with
  | none => none
  | some c =>
    if idx < c.btcount then
      match c.bt.find? (fun e => e.1 == idx) with
      | some (_, e) => if e.valid then some e else none
      | none => none
    else none

/-- The checks of R215, in order, for an access of a context through a buffer index at an exact offset; a peer without a route is an
invalid reference (R411). A fetch and the engines
pass `align` 1 where their own alignment rule has been applied. -/
def checkBuffer (s : State) (ctx : Nat) (n : Need) (idx : Nat) (off : Int) (size align : Nat) : Checked :=
  if off < 0 || off > (2 ^ 44 : Int) - size then .bad .refBounds 0
  else
    let o := off.toNat
    if o % align ≠ 0 then .bad .misaligned 0
    else
      match btEntry? s ctx idx with
      | none => .bad .refInvalid 0
      | some e =>
        if e.rvalid && !(s.routes.any (fun r => r.1 == e.peer)) then .bad .refInvalid 0
        else if o + size > e.length then .bad .refBounds 0
        else if !n.right e then .bad .refRights 0
        else if n.home && e.viewOf ≠ .raw then .bad .refRights 1
        else if n.local' && e.rvalid then .bad .refRights 2
        else if n.store && ((e.viewOf = .t16 && (size < 4 || o % 4 ≠ 0)) || (e.viewOf ≠ .raw && size < 2)) then .bad .refRights 3
        else if e.owner ≠ ctx then .bad .refOwner 0
        else
          let (so, cnt) := storageSpan e.viewOf o size
          let pages := (List.range ((so + cnt - 1) / 2 ^ 17 - so / 2 ^ 17 + 1)).map (so / 2 ^ 17 + ·)
          let acc (ps : List (Nat × Nat)) : Checked :=
            .ok ⟨e.viewOf, o, size, (List.range cnt).map (fun i => (so + i, storageLoc s e (so + i))), ps⟩
          if e.rvalid then acc []
          else
            match checkPages s e.ptroot pages with
            | some r => r
            | none => acc (pages.map (fun p => (e.ptroot, p)))

/-- The checks of R215 for a naturally aligned access through a reference. -/
def checkRef (s : State) (ctx : Nat) (n : Need) (r : Dword) (disp : Int) (size : Nat) : Checked :=
  checkBuffer s ctx n (refIndex r) ((refOff r : Int) + disp) size size

/-- The address that csr.taddr holds for a global access (R215): the reference with the offset, as far as 44 bits hold it (DEDUCED, log entry 92). -/
def faultAddr (r : Dword) (disp : Int) : Dword :=
  dword (refIndex r * 2 ^ 44 + wrapNat 44 ((refOff r : Int) + disp))

/-- First touch of a brined page starts its expansion (R398, R399): a frame from the stack of the interleave set whose pool
holds most, lowest number on ties; with every pool empty the page stays BRINED and the pool's status is written. -/
def stacksOf (ilv ilvsel : Nat) : List Nat :=
  match ilv with
  | 0 => List.range 12
  | 1 => (List.range 6).map (6 * ilvsel + ·)
  | 2 => [2 * ilvsel, 2 * ilvsel + 1]
  | 3 => [ilvsel]
  | _ => []

def poolOf (s : State) (stack : Nat) : List Nat :=
  match s.pools.find? (fun p => p.1 == stack) with
  | some p => p.2
  | none => []

/-- The stack whose pool holds most frames, lowest number on ties. -/
def fullestPool (s : State) : List Nat → Option Nat
  | [] => none
  | k :: r =>
    match fullestPool s r with
    | none => if (poolOf s k).isEmpty then none else some k
    | some b => if (poolOf s k).length ≥ (poolOf s b).length then some k else some b

/-- The stacks that may hold a page's frame: those of its interleave set that every buffer with its page table admits (R396). -/
def stacksFor (s : State) (e : PageEntry) : List Nat :=
  (stacksOf e.ilv e.ilvsel).filter (fun k => s.contexts.all (fun c => c.bt.all (fun x =>
    x.2.rvalid || x.2.ptroot ≠ e.root || (stacksOf x.2.ilv x.2.ilvsel).contains k)))

def firstTouch (s : State) (root page : Nat) : State :=
  match s.page? root page with
  | none => s
  | some e =>
    if e.state ≠ .brined then s
    else
      match fullestPool s (stacksFor s e) with
      | none => s.emit (.poolEmpty ((stacksFor s e).headD 0))
      | some k =>
        let fr := (poolOf s k).headD 0
        let s := { s with pools := s.pools.map (fun (p : Nat × List Nat) => if p.1 == k then (k, p.2.drop 1) else p) }
        s.modPage root page (fun e => { e with state := .expanding, target := some fr })

/-! ## Locations: reading and writing at home (R397, R428) -/

/-- A number that names a location's 64-byte block and 4-byte word among all storage of the package. -/
def Loc.key : Loc → Nat
  | .dev pa => pa
  | .host a => 2 ^ 40 + a
  | .remote p c i o => 2 ^ 120 + ((p * 2 ^ 10 + c) * 2 ^ 20 + i) * 2 ^ 44 + o
  | .answered p c i o _ => 2 ^ 120 + ((p * 2 ^ 10 + c) * 2 ^ 20 + i) * 2 ^ 44 + o
  | .brine r p o => 2 ^ 200 + (r * 2 ^ 27 + p) * 2 ^ 17 + o

/-- The location itself, whatever an answer has brought of it. -/
def Loc.plain : Loc → Loc
  | .answered p c i o _ => .remote p c i o
  | l => l

/-- A byte at its home. A peer's byte comes only with an answer (R414); where no request is made for it, its value is free
(DESIGN CHOICE, log entry 41). -/
def readLoc (s : State) : Loc → Byte
  | .dev pa => memRead s.mem pa
  | .host a => memRead s.hostMem a
  | .remote p c i o => (Config.freeDword (2 ^ 320 * (s.free + 1) + (Loc.remote p c i o).key)).extractLsb' 0 8
  | .answered _ _ _ _ b => b
  | .brine r p o =>
    match s.brine.find? (fun b => b.addr == (((s.page? r p).map (·.loc)).getD 0)) with
    | some b => memRead b.bytes o
    | none => 0

/-- A write entering the home order at a location, without its side effects. -/
def writeLocRaw (s : State) (l : Loc) (b : Byte) : State :=
  match l with
  | .dev pa => { s with mem := memWrite s.mem pa b }
  | .host a => { s with hostMem := memWrite s.hostMem a b }
  | .remote _ _ _ _ => s
  | .answered _ _ _ _ _ => s
  | .brine r p o =>
    let addr := ((s.page? r p).map (·.loc)).getD 0
    { s with brine := s.brine.map (fun i => if i.addr == addr then { i with bytes := memWrite i.bytes o b } else i) }

/-- Residues after words are written: those words' are right again (R94). -/
def fixResidues (l : List (Nat × Nat)) (ns : List Nat) : List (Nat × Nat) := l.filter (fun x => !ns.contains x.1)

/-- The thread as MONWAIT leaves it with a status (R241): the monitor freed, the result written with the taint that its source gave (R92),
the thread READY after it. -/
def Thread.endMonwait (th : Thread) (d : Code) (taint : Bool) (status now : Nat) : Thread :=
  let n := d.toNat
  { th with mon := none, wait := none, state := .ready, readyAt := now, pc := th.npc,
            v := if n < 192 then th.v.set n (word status) else th.v, taint := if n < 192 then th.taint.set n taint else th.taint,
            vres := fixResidues th.vres [n] }

/-- A predicate written; p0 ignores writes (R68). -/
def setPred (p : BitVec 16) (n : Nat) (b : Bool) : BitVec 16 :=
  if n = 0 then p else if b then p ||| (1#16 <<< n) else p &&& ~~~(1#16 <<< n)

/-- The predicates a wait delivers when it ends: closer and status of BARWAIT, the status of a strict BARTEST, the closer of
PHASE, the token of an arrival that was held (R378–R380, R387). -/
def waitPreds (p : BitVec 16) (w : Wait) (closer status : Bool) : BitVec 16 :=
  match w with
  | .slot _ _ c st test _ => if test then setPred p c status else setPred (setPred p c closer) st status
  | .phase c => setPred p c closer
  | .held _ d => setPred p d closer
  | _ => p

/-- The oldest entry of each of some queue-mapped registers is taken (R89). -/
def Thread.popQueues (th : Thread) (pops : List Nat) : Thread :=
  { th with queues := pops.foldl (fun qs n => qs.modify (n - 176) (·.drop 1)) th.queues }

/-- The queue registers that a wait's instruction takes an entry of once it completes (R89): SYNC may still stop on a cause while it waits. -/
def Wait.owed : Wait → List Nat
  | .sync pops => pops
  | .handlerSync pops => pops
  | _ => []

/-- The end of the wait in which a thread is (R331): the results are written and the thread goes on after its instruction, or executes it
again when it waited for its turn or a reply; a saved thread is READY once restored. -/
def Thread.endOwn (th : Thread) (closer status : Bool) (now : Nat) : Thread :=
  match th.wait with
  | none => th
  | some w =>
    let go : Word := match w with
      | .turn | .reply => th.pc
      | _ => th.npc
    let th := th.popQueues w.owed
    { th with p := waitPreds th.p w closer status, wait := none, pc := go, readyAt := now,
              state := if th.state = .saved then .saved else .ready,
              savedState := if th.state = .saved then .ready else th.savedState }

/-- Whether a thread waits for something, in its program or in the handler, or holds its place there from the handler (R351). -/
def Thread.waitsFor (th : Thread) (p : Wait → Bool) : Bool := th.wait.any p || (th.heldDone.isNone && th.heldWait.any p)

/-- What a thread waited for has come: the wait it is in ends, and a wait that it left for the handler gives its results at TRET (R351). -/
def Thread.endWait (th : Thread) (p : Wait → Bool) (closer status : Bool) (now : Nat) : Thread :=
  let th := if th.heldDone.isNone && th.heldWait.any p then { th with heldDone := some (closer, status) } else th
  if th.wait.any p then th.endOwn closer status now else th

/-- A write performed at a block fires the monitors armed on it (R240), wakes the MONWAITs that slept on them (R241) and tells the
launch processors whose queue's user half lies there (R296). -/
def fireBlock (s : State) (block : Nat) : State :=
  let thread (th : Thread) : Thread :=
    match th.mon with
    | some m =>
      if m.block == block then
        match th.wait with
        | some (.monitor d t) => th.endMonwait d t 1 s.clk
        | _ => { th with mon := some { m with fired := true } }
      else th
    | none => th
  let hit := s.cells.any (fun c => c.squads.any (fun q => q.threads.any (fun th => match th.mon with
    | some m => m.block == block
    | none => false)))
  let s := if hit then
      { s with cells := s.cells.map (fun c => { c with squads := c.squads.map (fun q => { q with threads := q.threads.map thread }) }) }
    else s
  { s with queues := s.queues.map (fun q =>
      let hit (c : Checked) : Bool := match c with
        | .ok a => a.store.any (fun x => x.2.key / 64 == block)
        | _ => false
      if hit (checkRef s q.ctx needLoadImm q.uref 0 1)
          || hit (checkRef s q.ctx needLoadImm q.ringRef ((64 * (q.ridx % 2 ^ q.rsizeLog2) : Nat) : Int) 1) then { q with woken := true } else q) }

/-- Marks the pages an access translated through (R402, R403). -/
def markPages (s : State) (write : Bool) : List (Nat × Nat) → State
  | [] => s
  | (r, p) :: rest => markPages (s.modPage r p (fun e => { e with accessed := true, dirty := e.dirty || write })) write rest

/-- Distinct elements, first occurrences. -/
def dedup {α : Type} [DecidableEq α] : List α → List α
  | [] => []
  | a :: r => a :: (dedup r).filter (· ≠ a)

/-! ## Converting views (R43, R44, R392) -/

/-- The MX element format of an MX view (R390 MXFMT). -/
def mxElemFmt (fmt : Nat) : Fmt := if fmt = 0 then e4m3 else if fmt = 1 then e5m2 else e2m1

/-- The value of an E8M0 scale times an element (R37). -/
def mxValue (f : Fmt) (scale elem : Nat) : FVal :=
  if scale = 255 then .nan false
  else
    match unpack f elem with
    | .fin n m e => .fin n m (e + (scale : Int) - 127)
    | v => v

/-- Element i of a stored MX block, as bits of its element format. -/
def mxElem (fmt : Nat) (blk : List Byte) (i : Nat) : Nat :=
  if fmt = 2 then ((blk.getD (i / 2) 0).toNat / 16 ^ (i % 2)) % 16 else (blk.getD i 0).toNat

def mxScale (fmt : Nat) (blk : List Byte) : Nat := (blk.getD (mxBlockBytes fmt - 1) 0).toNat

/-- A stored MX block as 32 BF16 values (R43). -/
def mxBlockToBf16 (fmt : Nat) (blk : List Byte) : List Byte :=
  (List.range 32).flatMap (fun i => leBytes 2 (convV bf16 .rne false (mxValue (mxElemFmt fmt) (mxScale fmt blk) (mxElem fmt blk i))).1)

/-- emax of R38. -/
def mxEmax (fmt : Nat) : Int := if fmt = 0 then 8 else if fmt = 1 then 15 else 2

/-- Quantising 32 values into one MX block: elements, scale byte and flags (R38). -/
def mxQuantise (fmt : Nat) (vs : List FVal) : List Nat × Nat × Flags :=
  let special := vs.any (fun v => match v with
    | .fin _ _ _ => false
    | _ => true)
  if special then (vs.map (fun _ => 0), 255, fNV)
  else
    let lead (v : FVal) : Option Int :=
      match v with
      | .fin _ m e => if m = 0 then none else some (leadExp m e)
      | _ => none
    match (vs.filterMap lead).max? with
    | none => (vs.map (fun _ => 0), 127, 0)
    | some mx =>
      let x := max (-127) (min 127 (mx - mxEmax fmt))
      let conv (v : FVal) : Nat × Flags :=
        match v with
        | .fin n m e => roundFin (mxElemFmt fmt) .rne true n m (e - x)
        | _ => (0, 0)
      let rs := vs.map conv
      (rs.map (·.1), (x + 127).toNat, rs.foldl (fun f r => f ||| r.2) 0)

/-- A block's stored bytes from its elements and scale (R30, R37). -/
def mxPack (fmt : Nat) (els : List Nat) (scale : Nat) : List Byte :=
  (if fmt = 2 then (List.range 16).map (fun i => BitVec.ofNat 8 (els.getD (2 * i) 0 + 16 * els.getD (2 * i + 1) 0))
   else els.map (BitVec.ofNat 8)) ++ [BitVec.ofNat 8 scale]

/-- A stored BF16 word of a T16 buffer as four FP32 bytes (R44). -/
def t16Load (b : List Byte) : List Byte := [0, 0] ++ b

/-- FP32 bytes narrowed to the stored BF16 word (R44). -/
def t16Store (b : List Byte) : List Byte := leBytes 2 (convV bf16 .rne false (unpack fp32 (leNat b))).1

/-- Cuts a list into pieces of n, at most fuel of them. -/
def chunksOf {α : Type} (n : Nat) : Nat → List α → List (List α)
  | 0, _ => []
  | _, [] => []
  | f + 1, l => l.take n :: chunksOf n f (l.drop n)

/-- The view bytes of whole units, from their storage bytes (R43, R44). -/
def viewBytes (v : View) (st : List Byte) : List Byte :=
  match v with
  | .raw => st
  | .t16 => (chunksOf 2 st.length st).flatMap t16Load
  | .mxView fmt => (chunksOf (mxBlockBytes fmt) st.length st).flatMap (mxBlockToBf16 fmt)

/-- First view byte of the units an access touches. -/
def unitStart (v : View) (off : Nat) : Nat :=
  match v with
  | .raw => off
  | .t16 => off / 4 * 4
  | .mxView _ => off / 64 * 64

/-- The bytes an access returns, from the storage bytes it touches. -/
def loadView (a : Access) (st : List Byte) : List Byte :=
  ((viewBytes a.view st).drop (a.off - unitStart a.view a.off)).take a.size

/-- The storage bytes of the touched units after a store of view bytes, from what they held (R43, R44) (DEDUCED, log entry 77). -/
def storeView (a : Access) (st data : List Byte) : List Byte :=
  let o := a.off - unitStart a.view a.off
  match a.view with
  | .raw => data
  | .t16 =>
    let old := viewBytes .t16 st
    let new := old.take o ++ data ++ old.drop (o + data.length)
    (chunksOf 4 new.length new).flatMap t16Store
  | .mxView fmt =>
    let blks := chunksOf (mxBlockBytes fmt) st.length st
    ((List.range blks.length).zip blks).flatMap (fun b =>
      let value (i : Nat) : FVal :=
        let pos := 64 * b.1 + 2 * i
        if o ≤ pos && pos < o + data.length then unpack bf16 (byteField data (pos - o) 2)
        else mxValue (mxElemFmt fmt) (mxScale fmt b.2) (mxElem fmt b.2 i)
      let x := mxQuantise fmt ((List.range 32).map value)
      mxPack fmt x.1 x.2.1)

/-! ## Words of running programs (R57) -/

/-- Where in a buffer's storage a location lies: through each page of its table that holds it, or at the peer (R395, R405, R406). -/
def storageOffsets (s : State) (e : BtEntry) (l : Loc) : List Nat :=
  let at' (p : PageEntry) : Option Nat :=
    match l with
    | .dev pa => if !p.inImage && p.ilv ≠ 4 && p.loc ≤ pa && pa < p.loc + 2 ^ 17 then some (p.page * 2 ^ 17 + (pa - p.loc)) else none
    | .host a => if !p.inImage && p.ilv = 4 && p.loc ≤ a && a < p.loc + 2 ^ 17 then some (p.page * 2 ^ 17 + (a - p.loc)) else none
    | .brine r g o => if p.root = r && p.page = g then some (g * 2 ^ 17 + o) else none
    | _ => none
  if e.rvalid then
    match l.plain with
    | .remote p c i o => if p = e.peer && c = e.pctx && i = e.pidx then [o] else []
    | _ => []
  else (s.pages.filter (fun p => p.root = e.ptroot)).filterMap at'

/-- The words that a view shows of the unit in which a byte of storage lies (R392). -/
def viewWords (v : View) (so : Nat) : List Nat :=
  match v with
  | .raw => [so / 4]
  | .t16 => [so / 2]
  | .mxView fmt => (List.range 16).map (so / mxBlockBytes fmt * 16 + ·)

/-- A word of a buffer as its view shows it, where every byte of its storage is known. -/
def wordAt (s : State) (e : BtEntry) (rd : Loc → Option Byte) (w : Nat) : Option Word :=
  let u := storageSpan e.viewOf (4 * w) 4
  let st := (List.range u.2).map (fun i => rd (storageLoc s e (u.1 + i)))
  if st.all Option.isSome then some (word (leNat (loadView ⟨e.viewOf, 4 * w, 4, [], []⟩ (st.map (·.getD 0))))) else none

/-- The location n bytes on. -/
def Loc.add (l : Loc) (n : Nat) : Loc :=
  match l with
  | .dev pa => .dev (pa + n)
  | .host a => .host (a + n)
  | .remote p c i o => .remote p c i (o + n)
  | .answered p c i o _ => .remote p c i (o + n)
  | .brine r p o => .brine r p (o + n)

/-- The first location of the aligned word that a location lies in. -/
def Loc.wordStart (l : Loc) : Loc :=
  match l with
  | .dev pa => .dev (pa / 4 * 4)
  | .host a => .host (a / 4 * 4)
  | .remote p c i o => .remote p c i (o / 4 * 4)
  | .answered p c i o _ => .remote p c i (o / 4 * 4)
  | .brine r p o => .brine r p (o / 4 * 4)

/-- The aligned word at a location's home. -/
def homeWord (s : State) (l : Loc) : Word :=
  word (leNat ((List.range 4).map (fun i => readLoc s (l.wordStart.add i))))

/-- What is known of a byte at its home: a peer's is not. -/
def homeByte (s : State) (l : Loc) : Option Byte :=
  match l with
  | .remote _ _ _ _ => none
  | _ => some (readLoc s l)

/-- Notes what the words of running programs at some locations are or were, for their fetches (R57). -/
def noteCode (s : State) (rd : Loc → Option Byte) (ls : List Loc) : State :=
  let words (k : Kernel) : List (Nat × Nat × Word) :=
    match (if k.state = .pending || k.state = .running then btEntry? s k.ctx (refIndex k.desc.codeRef) else none) with
    | none => []
    | some e => (dedup (ls.flatMap (fun l => (storageOffsets s e l).flatMap (viewWords e.viewOf)))).filterMap (fun w =>
        (wordAt s e rd w).map (fun x => (k.id, w, x)))
  { s with codeWords := s.codeWords ++ (s.kernels.flatMap words).filter (fun x => !s.codeWords.contains x) }

/-- Words whose values at home a write has replaced are kept as what phased reads may still return (R439). -/
def keepOld (s s' : State) (ls : List Loc) : State :=
  let here (l : Loc) : Bool := match l with
    | .dev _ => true
    | .host _ => true
    | .brine _ _ _ => true
    | _ => false
  let ls := ((dedup (ls.map Loc.wordStart)).filter here).filter (fun l => homeWord s l ≠ homeWord s' l)
  { s' with oldWords := ls.foldl (fun o l =>
      o.filter (fun x => !(x.word == l.key / 4 && x.value == homeWord s l)) ++ [⟨l.key / 4, homeWord s l, []⟩]) s'.oldWords }

/-- Writes that enter the home order in one step, with the monitors of their blocks fired (R428, R240). -/
def writeHome (s : State) (ws : List (Loc × Byte)) : State :=
  let s := noteCode s (homeByte s) (ws.map (·.1))
  let s := keepOld s (ws.foldl (fun s w => writeLocRaw s w.1 w.2) s) (ws.map (·.1))
  (dedup (ws.map (fun w => w.1.key / 64))).foldl fireBlock s

/-! ## Older values of published words (R13, R15, R437, R439) -/

/-- A core's sector holds replicas under the number 144 + sector; lines under the core's own number are its L1's. -/
def replicaOf (core : Nat) : Nat := 144 + core / 24

/-- The fused gang that a core's cluster runs, if any (R13). -/
def fusedAt (s : State) (core : Nat) : Bool := s.gangs.any (fun g => g.fused && g.unit = core / 6)

/-- The core whose L1 holds a location's line for a core: its own, or in a fused cluster the one that the line's address slices to
(R13) (DESIGN CHOICE, log entry 100). -/
def l1Of (s : State) (core : Nat) (l : Loc) : Nat := if fusedAt s core then core / 6 * 6 + l.key / 64 % 6 else core

/-- The cores of a cluster, and those whose L1s serve a core: its own, or all six of a fused cluster (R13). -/
def clusterL1s (core : Nat) : List Nat := (List.range 6).map (core / 6 * 6 + ·)
def l1sOf (s : State) (core : Nat) : List Nat := if fusedAt s core then clusterL1s core else [core]

/-- Some L1s and replicas drop their lines of some words: older values are no longer read there (R437). -/
def dropLines (s : State) (holders : List Nat) (p : Nat → Bool) : State :=
  { s with oldWords := s.oldWords.map (fun o =>
      if p o.word then { o with gone := holders.filter (fun h => !o.gone.contains h) ++ o.gone } else o) }

/-- A core as bring-up releases it (R196, R450, R453). -/
def Core.start (id now mxidle : Nat) : Core where
  id := id
  vat := []
  spill := []
  bundles := []
  snapAt := 0
  scalar := [31, 31, 31, 31]
  array := []
  awake := 15
  usedAt := now
  idleLimit := mxidle
  tcopy := []
  mxidle := mxidle
  rescorr := 0
  carve := 0

/-- What an acquire point at a scope drops on a core (R437). -/
def acquireAt (s : State) (core scope : Nat) : State :=
  if scope ≤ 1 then s
  else dropLines s (if scope ≤ 3 then l1sOf s core else replicaOf core :: l1sOf s core) (fun _ => true)

/-- A core never goes on reading values older than what it wrote itself, and its sector keeps no replica of a line that it wrote (R429, R437). -/
def dropWords (s : State) (core : Nat) (keys : List Nat) : State :=
  dropLines (dropLines s (l1sOf s core) (fun w => keys.contains w)) [replicaOf core] (fun w => keys.any (fun k => k / 16 = w / 16))

/-- A free choice among older values of a word, or none of them; the choice is one for all bytes of a word. -/
def pickOld (choice word : Nat) : Nat → List OldWord → Option Word
  | _, [] => none
  | i, o :: r => if Config.freeBool choice (2 ^ 300 * i + word) then some o.value else pickOld choice word (i + 1) r

/-- The older values of a location's word that a core may still read: from its L1, or from a replica where the home is in another sector. -/
def oldFor (s : State) (core : Nat) (l : Loc) : List OldWord :=
  s.oldWords.filter (fun o => o.word == l.key / 4 &&
    (!o.gone.contains (l1Of s core l) || (homeSlice l / 8 ≠ core / 24 && !o.gone.contains (replicaOf core))))

/-- A phased read of one byte at a core, below the cell's own view: the home's, or one of a value published earlier that an acquire has not
yet dropped there (R439) (DEDUCED, log entry 9). -/
def publishedByte (s : State) (core choice : Nat) (l : Loc) : Byte :=
  match pickOld choice (l.key / 4) 0 (oldFor s core l) with
  | some x => x.extractLsb' (8 * (l.key % 4)) 8
  | none => readLoc s l

/-! ## Accesses (R219, R220, R430, R431, R435) -/

/-- A byte of the cell view, newest first. -/
def viewByte (view : List (Loc × Byte)) (l : Loc) : Option Byte := (view.find? (fun x => x.1 == l)).map (·.2)

/-- A phased read by a thread or engine of a cell (R439): the cell view over the published bytes its core may see, by a numbered choice. -/
def phasedReadBy (choice : Nat) (s : State) (cell : Nat) (a : Access) : List Byte × State :=
  let view := ((s.cell? cell).map (·.view)).getD []
  let core := ((s.cell? cell).map (·.core)).getD 0
  let st := a.store.map (fun x => (viewByte view x.2).getD (publishedByte s core choice x.2))
  (loadView a st, markPages s false a.pages)

/-- A phased read by a choice of its own. -/
def phasedRead (s : State) (cell : Nat) (a : Access) : List Byte × State := phasedReadBy s.free { s with free := s.free + 1 } cell a

/-- A read performed at the home by a thread of a cell: the immediate class, and a phased load with a tainted address (R443). The
cell's own unpublished writes rank after published ones (R429, R439) (DEDUCED, log entry 11). -/
def homeRead (s : State) (cell : Option Nat) (a : Access) : List Byte × State :=
  let view := ((cell.bind s.cell?).map (·.view)).getD []
  let st := a.store.map (fun x => (viewByte view x.2).getD (readLoc s x.2))
  (loadView a st, markPages s false a.pages)

/-- What is known of a byte as a cell sees it. -/
def cellByte (s : State) (cell : Nat) (l : Loc) : Option Byte :=
  match viewByte (((s.cell? cell).map (·.view)).getD []) l with
  | some b => some b
  | none => homeByte s l

/-- A phased store of a thread into its cell's view (R430, R431). -/
def phasedWrite (s : State) (t : Tid) (a : Access) (data : List Byte) : State :=
  let cell := t.cell
  let view := ((s.cell? cell).map (·.view)).getD []
  let st := a.store.map (fun x => (viewByte view x.2).getD (readLoc s x.2))
  let new := (a.store.map (fun x => x.2.plain)).zip (storeView a st data)
  let s := s.modCell cell (fun c =>
    { c with view := new ++ c.view.filter (fun x => !(new.any (fun n => n.1 == x.1))),
             marks := a.store.map (fun x => ⟨x.2.plain, t, a.pages.find? (fun p => p.2 = x.1 / 2 ^ 17)⟩)
               ++ c.marks.filter (fun m => !(new.any (fun n => n.1 == m.loc))) })
  markPages (noteCode s (cellByte s cell) (new.map (·.1))) false a.pages

/-- A cell's own write to some elements of blocks that the cell holds unpublished changes those elements there too, so that neither write
loses the other's (R43, R431). -/
def mergeBlocks (view : List (Loc × Byte)) (a : Access) (home : List Byte) (data : List Byte) : List (Loc × Byte) :=
  match a.view with
  | .mxView _ =>
    let held := (a.store.zip home).map (fun x => (viewByte view x.1.2).getD x.2)
    let new := (a.store.map (·.2)).zip (storeView a held data)
    view.map (fun v => (v.1, (viewByte new v.1).getD v.2))
  | _ => view

/-- A write performed at the home by an engine of a cell or by none: engine writes as they land, host and link writes (R428, R435). The
cell's unpublished bytes stay, ranking after it (R430, R439) (DESIGN CHOICE, log entry 10). -/
def homeWrite (s : State) (cell : Option Nat) (a : Access) (data : List Byte) : State :=
  let st := a.store.map (fun x => readLoc s x.2)
  let new := (a.store.map (·.2)).zip (storeView a st data)
  let s := match cell with
    | none => writeHome s new
    | some c =>
      let core := ((s.cell? c).map (·.core)).getD 0
      let s := s.modCell c (fun x => { x with view := mergeBlocks x.view a st data })
      dropWords (writeHome s new) core (new.map (fun n => n.1.key / 4))
  markPages s true a.pages

/-- An immediate store of a thread at the home: unpublished bytes that the thread itself wrote there before are superseded (R429)
(DESIGN CHOICE, log entry 10). -/
def immWrite (s : State) (t : Tid) (a : Access) (data : List Byte) : State :=
  let own (c : Cell) (l : Loc) : Bool := a.store.any (fun x => x.2 == l) && c.marks.any (fun m => m.loc == l && m.t == t)
  (homeWrite s (some t.cell) a data).modCell t.cell (fun c =>
    { c with view := c.view.filter (fun v => !(own c v.1)), marks := c.marks.filter (fun m => !(own c m.loc)) })

/-- Whether an access leaves the package. -/
def Access.isRemote (a : Access) : Bool := a.store.any (fun x => match x.2 with
  | .remote _ _ _ _ => true
  | _ => false)

/-- Reads and writes of a cell's scratch (R219). -/
def scratchRead (s : State) (cell off n : Nat) : List Byte := memReadN (((s.cell? cell).map (·.scratch)).getD []) off n
def scratchWrite (s : State) (cell off : Nat) (data : List Byte) : State :=
  s.modCell cell (fun c => { c with scratch := memWriteL c.scratch off data })

/-! ## Requests to peers (R414, R415) -/

/-- Whether the link switch controller runs (R18, R452) (DEDUCED, log entry 119). -/
def linkRuns (s : State) : Bool := !s.blocksDown.contains 6

/-- The ports of a rank's route that are in service (R411, R412, R414). -/
def portsFor (s : State) (rank : Nat) : List Nat :=
  match (if linkRuns s then s.routes.find? (fun r => r.1 == rank) else none) with
  | none => []
  | some r => (List.range 8).filter (fun i => r.2.getLsbD i && (match s.ports[i]? with
    | some p => p.state = .up || p.state = .degraded
    | none => false))

/-- The lowest tag of a port that no request uses and that has rested 100 µs (R242). -/
def freeTag (s : State) (port : Nat) : Option Nat :=
  let used := (s.remote.filter (fun r => r.sent && r.port == port)).map (fun r => r.tag.toNat)
  let rests := (s.tagHold.filter (fun x => x.1 == port && decide (s.clk < x.2.2))).map (fun x => x.2.1.toNat)
  (List.range 4096).find? (fun t => !used.contains t && !rests.contains t)

/-- Bytes of a request, and whether its order to a block is kept (R415). -/
def opLen : PeerOp → Nat
  | .read n => n
  | .write d => d.length
  | .atomic _ w _ => if w then 8 else 4
  | .cas w _ _ => if w then 8 else 4
  | .message _ => 64
  | .foreign => 0
def opOrdered : PeerOp → Bool
  | .read _ => false
  | .foreign => false
  | _ => true

/-- Whether an earlier request to a block of a request is still unanswered, one of the two a write or an atomic (R415, R429, R445). -/
def blockBusy (s : State) (r : RemoteReq) : Bool :=
  s.remote.any (fun q => decide (q.id < r.id) && (opOrdered q.op || opOrdered r.op) && q.peer == r.peer && q.pctx == r.pctx && q.pidx == r.pidx
    && decide (q.off / 64 ≤ (r.off + opLen r.op - 1) / 64) && decide (r.off / 64 ≤ (q.off + opLen q.op - 1) / 64))

/-- The bytes of a request on the link: the 64-byte blocks that it touches, from 64 to 256 bytes (R410). -/
def wireSpan (r : RemoteReq) : Nat × Nat := (r.off / 64 * 64, 64 * ((r.off + max 1 (opLen r.op) - 1) / 64 - r.off / 64 + 1))

/-- Sends a held request by the route's port for its 64-byte block, when one is in service (R411, R414–R416). -/
def trySend (s : State) (id : Nat) : State :=
  match s.remote.find? (fun r => r.id == id) with
  | none => s
  | some r =>
    let ports := portsFor s r.peer
    let n := ports.length
    if r.sent || n = 0 || blockBusy s r then s
    else
      let port := ports.getD (r.off / 64 % n) 0
      match freeTag s port with
      | none => s
      | some tag =>
        let r := { r with port := port, tag := BitVec.ofNat 12 tag, sent := true, sentAt := s.clk }
        let s := { s with remote := s.remote.map (fun (x : RemoteReq) => if x.id = id then r else x),
                          ports := s.ports.modify port (fun p => { p with sent := p.sent + 1 }) }
        s.emit (.link port (wireSpan r).1 (wireSpan r).2 r)

/-- A request's credit goes back to its sender's package, as soon as that can be reached (R412, R421). -/
def returnCredit (s : State) (rank : Nat) : State :=
  if (portsFor s rank).isEmpty then { s with creditsOwed := s.creditsOwed ++ [rank] } else s.emit (.credit rank)

/-- Sends what is held and may go, oldest first, and the credits owed. -/
def flushRemote (s : State) : State :=
  let s := ((s.remote.filter (fun r => !r.sent)).map (·.id)).foldl trySend s
  s.creditsOwed.foldl returnCredit { s with creditsOwed := [] }

/-- Whether some port sends requests and accepts what arrives (R412). -/
def linkOpen (s : State) : Bool := linkRuns s && s.ports.any (fun p => p.state = .up || p.state = .degraded)

/-- The bytes that a request brings to a peer's buffer or an answer from it, as words of a running program may have them (R57). -/
def noteRemote (s : State) (peer pctx pidx off : Nat) (data : List Byte) : State :=
  let at' (l : Loc) : Option Byte := match l with
    | .remote p c i o => if p = peer && c = pctx && i = pidx && off ≤ o then data[o - off]? else none
    | _ => none
  noteCode s at' ((List.range data.length).map (fun i => .remote peer pctx pidx (off + i)))

/-- A request to a peer (R414). -/
def sendRemote (s : State) (peer pctx pidx off : Nat) (op : PeerOp) (use : RemoteUse) : State :=
  let s := match op with
    | .write d => noteRemote s peer pctx pidx off d
    | _ => s
  let r : RemoteReq := ⟨s.nextId, peer, 0, 0, pctx, pidx, off, op, use, s.clk, false⟩
  trySend { s with nextId := s.nextId + 1, remote := s.remote ++ [r] } r.id

/-- Peer, peer context, peer buffer and offset of a remote access. -/
def Access.peer (a : Access) : Nat × Nat × Nat × Nat :=
  match a.store with
  | (_, .remote p c i o) :: _ => (p, c, i, o)
  | _ => (0, 0, 0, 0)

/-- An immediate-class store of the device's own: at the home, or as a write request to the peer (R414). -/
def storeHome (s : State) (a : Access) (data : List Byte) : State :=
  if a.isRemote then
    let p := a.peer
    sendRemote s p.1 p.2.1 p.2.2.1 p.2.2.2 (.write data) (.store none 0 0 [])
  else homeWrite s none a data

/-! ## Waiting for a peer's answer (R406, R414, R416) -/

/-- A cause code that a peer answers with (R406). -/
def Cause.ofCode (n : Nat) : Cause :=
  if n = 0x09 then .refInvalid else if n = 0x0B then .refOwner else if n = 0x0D then .pagePoisoned else .pageUnmapped

/-- Whether an ask is a party's for an operation on an access. -/
def Ask.matches (q : Ask) (who : Asker) (a : Access) (op : PeerOp) : Bool :=
  q.who == who && (q.peer, q.pctx, q.pidx, q.off) == a.peer && q.op == op

/-- What a party has been answered: nothing asked yet, no answer yet, the data, or the cause of the peer's check. -/
inductive Answer where
  | unasked
  | open'
  | data (b : List Byte)
  | bad (c : Cause)
  deriving DecidableEq, Repr

def answerOf (s : State) (who : Asker) (a : Access) (op : PeerOp) : Answer :=
  match s.asks.find? (fun q => q.matches who a op) with
  | none => .unasked
  | some q =>
    match q.answer with
    | none => .open'
    | some (b, k) => if k = 0 then .data b else .bad (Cause.ofCode k)

/-- Whether an access through an entry awaits a peer: a BT_SET on it waits until it has been performed (R401). -/
def entryAsked (s : State) (e : BtEntry) : Bool :=
  e.rvalid && s.asks.any (fun q => q.peer = e.peer && q.pctx = e.pctx && q.pidx = e.pidx)

/-- Whether a BT_SET waits on an entry that names a peer's buffer: later accesses come after it (R401). -/
def btSetWaits (s : State) (peer pctx pidx : Nat) : Bool :=
  s.agenda.any (fun i => match i with
    | .btSet c x _ => ((s.ctx? c).bind (fun y => y.bt.find? (fun e => e.1 == x))).any (fun e =>
        e.2.rvalid && e.2.peer = peer && e.2.pctx = pctx && e.2.pidx = pidx)
    | _ => false)

/-- A party asks a peer for an operation, once (R414). -/
def askPeer (s : State) (who : Asker) (a : Access) (op : PeerOp) : State :=
  match answerOf s who a op with
  | .unasked =>
    let p := a.peer
    if btSetWaits s p.1 p.2.1 p.2.2.1 then s
    else sendRemote { s with asks := s.asks ++ [⟨who, s.nextId, p.1, p.2.1, p.2.2.1, p.2.2.2, op, none⟩] } p.1 p.2.1 p.2.2.1 p.2.2.2 op (.ask who)
  | _ => s

/-- A party has used its answers. -/
def dropAsks (s : State) (who : Asker) : State := if s.asks.any (fun q => q.who == who) then { s with asks := s.asks.filter (fun q => q.who ≠ who) } else s

/-- Whether a party still awaits a peer. -/
def asking (s : State) (who : Asker) : Bool := s.asks.any (fun q => q.who == who && q.answer.isNone)

/-- An answer reaches the ask whose request it answers, if its party still waits for it (R415); the words that it brings are values that a
running program's words have had (R57). -/
def State.answer (s : State) (who : Asker) (r : RemoteReq) (data : List Byte) (cause : Nat) : State :=
  let s := noteRemote s r.peer r.pctx r.pidx r.off data
  { s with asks := s.asks.map (fun (q : Ask) =>
      if q.who = who && q.req = r.id && q.answer.isNone then { q with answer := some (data, cause) } else q) }

/-- An access with the bytes that an answer has brought, the cell's own unpublished bytes aside (R439). -/
def Access.withAnswer (a : Access) (view : List (Loc × Byte)) (b : List Byte) : Access :=
  { a with store := (a.store.zip b).map (fun x => match x.1.2 with
      | .remote p c i o => if (viewByte view x.1.2).isSome then x.1 else (x.1.1, .answered p c i o x.2)
      | _ => x.1) }

/-- How far a party's access is: ready, waiting for a page in motion, waiting for a peer, or failed. -/
inductive Ready where
  | ok (a : Access)
  | page (root page : Nat)
  | peer (a : Access)
  | bad (c : Cause) (sub : Nat)
  deriving DecidableEq, Repr

/-- A party's checked access with the bytes that it holds: one to a peer's buffer is ready once the peer has made its checks and answered
(R406, R414). A cell's unpublished bytes stand over the peer's. -/
def readyFor (s : State) (who : Asker) (cell : Option Nat) (c : Checked) : Ready :=
  match c with
  | .waits r p => .page r p
  | .bad k sub => .bad k sub
  | .ok a =>
    if a.isRemote then
      match answerOf s who a (.read a.size) with
      | .data b => .ok (a.withAnswer (((cell.bind s.cell?).map (·.view)).getD []) b)
      | .bad k => .bad k 0
      | _ => .peer a
    else .ok a

/-- A party begins to wait: a brined page starts its expansion, a peer is asked. -/
def beginWait (s : State) (who : Asker) (r : Ready) : State :=
  match r with
  | .page root page => firstTouch s root page
  | .peer a => askPeer s who a (.read a.size)
  | _ => s

/-- How a write of the device's own that it waits for stands. -/
inductive Sent where
  | waits (s : State)
  | done (s : State)
  | bad (c : Cause)

/-- A write that a party waits for: performed at the home, or sent to the peer and awaited (R414). -/
def putFor (s : State) (who : Asker) (cell : Option Nat) (a : Access) (data : List Byte) : Sent :=
  if a.isRemote then
    match answerOf s who a (.write data) with
    | .unasked => .waits (askPeer s who a (.write data))
    | .open' => .waits s
    | .data _ => .done (dropAsks s who)
    | .bad c => .bad c
  else .done (homeWrite s cell a data)

/-! ## Publication (R430, R432–R434) -/

/-- The unpublished remote bytes of a view as runs of consecutive offsets of one peer buffer, each one write request. -/
def remoteRuns : List (Loc × Byte) → List ((Nat × Nat × Nat × Nat) × List Byte)
  | [] => []
  | (l, b) :: r =>
    match l, remoteRuns r with
    | .remote p c i o, ((p', c', i', o'), bs) :: rest =>
      if p = p' && c = c' && i = i' && o + 1 = o' && o' % 64 ≠ 0 then ((p, c, i, o), b :: bs) :: rest
      else ((p, c, i, o), [b]) :: ((p', c', i', o'), bs) :: rest
    | .remote p c i o, [] => [((p, c, i, o), [b])]
    | _, rest => rest

def isRemoteLoc : Loc → Bool
  | .remote _ _ _ _ => true
  | _ => false

/-- Publishes the views of some cells in one step. `cells` is in ascending rank, so that the highest rank's write to a location
stands (R434); colliding locations are counted on the context. -/
def publish (s : State) (cells : List Nat) : State :=
  let cs := cells.filterMap s.cell?
  let all := cs.flatMap (fun c => (c.view.reverse).map (fun x => (c.id, x)))
  let locs := dedup (all.map (fun x => x.2.1))
  let last (l : Loc) : Option Byte := (all.reverse.find? (fun x => x.2.1 == l)).map (fun x => x.2.2)
  let writers (l : Loc) : Nat := (dedup ((all.filter (fun x => x.2.1 == l)).map (·.1))).length
  let merged := (locs.filter (fun l => writers l > 1)).length
  let ws := locs.filterMap (fun l => (last l).map (fun b => (l, b)))
  let home := ws.filter (fun w => !isRemoteLoc w.1)
  let s := { s with cells := s.cells.map (fun c => if cells.contains c.id then { c with view := [], marks := [] } else c) }
  let s := writeHome s home
  let s := markPages s true (dedup (cs.flatMap (fun c => c.marks.filterMap (·.page))))
  let s := cs.foldl (fun s c => dropWords s c.core (c.view.map (fun x => x.1.key / 4))) s
  let s := (remoteRuns (ws.filter (fun w => isRemoteLoc w.1))).foldl
    (fun s r => sendRemote s r.1.1 r.1.2.1 r.1.2.2.1 r.1.2.2.2 (.write r.2) (.store none 0 (cells.headD 0) [])) s
  match cs with
  | [] => s
  | c :: _ => s.modCtx c.ctx (fun x => { x with collisions := x.collisions + merged })

/-- A page in motion, or behind a port in reset, that bytes to be published lie on: the publication waits for it (R398). -/
def viewHeld (s : State) (cells : List Nat) : Option (Nat × Nat) :=
  ((cells.filterMap s.cell?).flatMap (fun c => c.marks.filterMap (·.page))).find? (fun x => match s.page? x.1 x.2 with
    | some e => e.state = .brined || e.state = .expanding || e.state = .migrating || portDown s e
    | none => false)

/-- Whether a cell's gang has more than one cell (R433). -/
def inMultiGang (s : State) (cell : Nat) : Bool :=
  match s.cell? cell with
  | some c =>
    match s.gang? c.gang with
    | some g => decide (g.cells.length > 1)
    | none => false
  | none => false

/-- A release that publishes waits while a page of its bytes is in motion (R398, R432). -/
def releaseWaits (s : State) (cell scope : Nat) : Option State :=
  if scope ≤ 1 || inMultiGang s cell then none else (viewHeld s [cell]).map (fun x => firstTouch s x.1 x.2)

/-- FENCE.rel's publication at a scope (R432, R433). -/
def releaseAt (s : State) (cell scope : Nat) : State :=
  if scope ≤ 1 || inMultiGang s cell then s else publish s [cell]

/-! ## The error log and the fault ring (R363–R371) -/

/-- A report: the source's counter is incremented and, with room, a record is written (R369–R371), which raises an interrupt (R407). A core's
counter of KIND 1 is its csr.rescorr (R98, R369) (DEDUCED, log entry 123). -/
def report (s : State) (src kind addr : Nat) : State :=
  let core := if kind = 1 && decide (src < 144) then s.core? src else none
  let old := match core with
    | some k => k.rescorr
    | none => ((s.logCounts.find? (fun x => x.1 == src && x.2.1 == kind)).map (fun x => x.2.2)).getD 0
  let cnt := (old + 1) % 2 ^ 32
  let s : State := match core with
    | some _ => s.modCore src (fun k => { k with rescorr := cnt })
    | none => { s with logCounts := (s.logCounts.filter (fun (x : Nat × Nat × Nat) => !(x.1 == src && x.2.1 == kind))) ++ [(src, kind, cnt)] }
  if s.logSeq - s.logRead ≥ 64 + 1 then { s with errdrop := s.errdrop + 1 }
  else
    let r : LogRec := ⟨s.logSeq, src, kind, cnt, addr, s.clk⟩
    { s with errlog := s.errlog ++ [r], logSeq := s.logSeq + 1, out := s.out ++ [.irqError] }

/-- A report that concerns no address and no context: its ADDR is a free value (DESIGN CHOICE, log entry 140). -/
def reportPlain (s : State) (src kind : Nat) : State := report { s with free := s.free + 1 } src kind (Config.freeDword s.free).toNat

/-- A fault record's fields that the writer gives (R363); SEQ and TIME are the device's. -/
structure FaultRec where
  source : Nat
  code : Nat
  sub : Nat
  flags : Nat
  core : Nat
  unit : Nat
  squad : Nat
  cell : Nat
  tmask : Nat
  pc : Nat
  qid : Nat
  addr : Dword
  info : Nat
  progress : Dword

/-- The 64 bytes of a record (R363). -/
def faultBytes (seq time : Nat) (r : FaultRec) : List Byte :=
  leBytes 8 seq ++ leBytes 1 r.source ++ leBytes 1 r.code ++ leBytes 1 r.sub ++ leBytes 1 r.flags ++ leBytes 2 r.core
    ++ leBytes 1 r.unit ++ leBytes 1 r.squad ++ leBytes 4 r.cell ++ leBytes 4 r.tmask ++ leBytes 4 r.pc ++ leBytes 4 r.qid
    ++ leBytes 8 r.addr.toNat ++ leBytes 4 r.info ++ leBytes 4 0 ++ leBytes 8 r.progress.toNat ++ leBytes 8 time

/-- How far a write of the device's own is: performed, waiting for a page or a peer, or refused. A record's TIME is that of the write (R363). -/
def tryDev (s : State) (w : DevWrite) : Sent :=
  match checkBuffer s w.ctx needStoreImm w.idx w.off w.data.length w.align with
  | .ok a => putFor s (.dev w.id) none a (if w.record.isSome && !a.isRemote then w.data.take 56 ++ leBytes 8 s.clk else w.data)
  | .waits root page => .waits (firstTouch s root page)
  | .bad c _ => .bad c

/-- A write of the device's own that fails a check is dropped; a fault record's is reported (R364). -/
def failDev (s : State) (w : DevWrite) : State :=
  match w.record with
  | some src => report s src 6 ((mkRef w.idx w.off).toNat)
  | none => s

/-- A write of the device's own by immediate-class stores: performed at once, or as soon as the page, the peer or the earlier write to its
buffer that it waits for lets it be (R292, R364, R398). -/
def deviceWrite (s : State) (w : DevWrite) : State :=
  let w := { w with id := s.nextId }
  let waits (s : State) : State := { s with nextId := s.nextId + 1, devWrites := s.devWrites ++ [w] }
  if s.devWrites.any (fun x => x.ctx = w.ctx && x.idx = w.idx) then waits s
  else
    match tryDev s w with
    | .done s => s
    | .waits s => waits s
    | .bad _ => failDev s w

/-- A write of the device's own that waited is tried again, behind the earlier ones to its buffer. -/
def retryDev (id : Nat) (s : State) : State :=
  match s.devWrites.find? (fun w => w.id == id) with
  | none => s
  | some w =>
    let gone (s : State) : State := dropAsks { s with devWrites := s.devWrites.filter (fun x => x.id ≠ id) } (.dev id)
    if s.devWrites.any (fun x => x.ctx = w.ctx && x.idx = w.idx && decide (x.id < id)) then s
    else
      match tryDev s w with
      | .done s => gone s
      | .waits s => s
      | .bad _ => failDev (gone s) w

/-- Writes a record to its slot of the context's fault ring by immediate-class stores, SEQ last (R364). The record of a delivery holds the squad
until it is performed. -/
def writeRecordFor (s : State) (ctx : Nat) (r : FaultRec) (hold : Option (Nat × Nat)) : State :=
  match s.ctx? ctx with
  | none => s
  | some c =>
    let slot := (c.fseq - 1) % c.frsize
    let s := s.modCtx ctx (fun c => { c with fseq := c.fseq + 1 })
    deviceWrite s ⟨0, ctx, refIndex c.fring, refOff c.fring + 64 * slot, 64, faultBytes c.fseq s.clk r,
      some (if r.core < 144 then r.core else 0x17F), hold⟩

/-- Writes a record that nothing awaits. -/
def writeRecord (s : State) (ctx : Nat) (r : FaultRec) : State := writeRecordFor s ctx r none

/-! ## Taking a trap and leaving the handler (R347–R362) -/

/-- A squad's record core field. -/
def coreOf (s : State) (cell : Nat) : Nat := ((s.cell? cell).map (·.core)).getD 0xFFFF

/-! ## Endings of kernels and contexts (R286, R302, R320, R321) -/

def Kernel.ended (k : Kernel) : Bool := k.state = .complete || k.state = .cancelled || k.state = .faulted
/-- Cells of the grid, and cells placed so far (R318). -/
def Kernel.count (k : Kernel) : Nat := k.desc.gx * k.desc.gy * k.desc.gz
def Kernel.placed (k : Kernel) : Nat := k.count - k.unplaced.length * k.desc.gcells

/-- An issued entry completes (R302); a repeating kernel's end counts a re-queue of its entry (R306). -/
def completeEntry (s : State) (qid entry : Nat) : State := s.modQueue qid (fun q => { q with open' := q.open'.filter (· ≠ entry) })

/-- The fault record of a kernel that ends CANCELLED or FAULTED (R365) (DEDUCED, log entry 78). -/
def kernelRecord (s : State) (k : Kernel) (code : Nat) : State :=
  writeRecord s k.ctx ⟨4, 0, 0, 0, 0xFFFF, k.lp, 0xFF, k.entry % 2 ^ 32, 0, 0, k.qid % 2 ^ 12, 0, 0, dword (k.exited.length % 2 ^ 32 + code * 2 ^ 32)⟩

/-- STATE and CODE of a kernel's record, as the driver may read them (R320) (DESIGN CHOICE, log entry 121). -/
def tellKernel (s : State) (id : Nat) : State :=
  match s.kernel? id with
  | some k => s.emit (.kernelRecord id k.qid k.entry k.state k.code)
  | none => s

/-- A kernel is to end with a code once its cells have exited (R320); the first code stands. -/
def doomCode (s : State) (id code : Nat) : State :=
  match s.kernel? id with
  | some k => if k.code = 0 then tellKernel (s.modKernel id (fun k => { k with code := code })) id else s
  | none => s

/-- A kernel ends (R320): its record, its entry's completion, and the kernels bound to it when it did not complete (DESIGN CHOICE, log entry 121). -/
def endKernel : Nat → State → Nat → KState → Nat → State
  | 0, s, _, _, _ => s
  | fuel + 1, s, id, st, code =>
    match s.kernel? id with
    | none => s
    | some k =>
      if k.ended then s
      else
        let s := tellKernel (s.modKernel id (fun k => { k with state := st, code := code, reserved := [] })) id
        let s := { s with codeWords := s.codeWords.filter (fun w => w.1 ≠ id) }
        let s := if st = .complete then s else kernelRecord s k code
        let s := match s.queue? k.qid with
          | some q =>
            if q.repeatOf = some id then s.modQueue k.qid (fun q => { q with repeatOf := none, rqcount := (q.rqcount + 1) % 2 ^ 16 })
            else completeEntry s k.qid k.entry
          | none => s
        if st = .complete then s
        else
          (s.kernels.filter (fun (c : Kernel) => c.producer = some id && !c.ended)).foldl (fun s c =>
            if c.state = .pending then endKernel fuel s c.id .cancelled 2
            else
              let s := tellKernel (s.modKernel c.id (fun c => { c with doomed := true, code := 2 })) c.id
              if c.exited.length = c.placed then endKernel fuel s c.id .faulted 2 else s) s

/-- A RUNNING kernel ends once its cells have exited (R320). -/
def settleKernel (s : State) (id : Nat) : State :=
  match s.kernel? id with
  | none => s
  | some k =>
    if k.state ≠ .running then s
    else if k.doomed then (if k.exited.length = k.placed then endKernel (s.kernels.length + 1) s id .faulted k.code else s)
    else if k.exited.length = k.count then endKernel (s.kernels.length + 1) s id (if k.code = 0 then .complete else .faulted) k.code else s

/-- A field of a queue's user half as its launch processor mirrors it by an immediate-class store (R292); one that fails its checks is lost. -/
def mirror (s : State) (q : Queue) (off : Nat) (data : List Byte) : State :=
  deviceWrite s ⟨0, q.ctx, refIndex q.uref, refOff q.uref + off, 1, data, none, none⟩

/-- The codes of R294. -/
def QState.code : QState → Nat
  | .idle => 1 | .ready => 2 | .held => 3 | .error => 4 | .stopped => 5

/-- A queue changes its state, and QSTATE with it (R292, R294). -/
def setQState (s : State) (qid : Nat) (st : QState) : State :=
  match s.queue? qid with
  | none => s
  | some q => if q.state = st then s else mirror (s.modQueue qid (fun q => { q with state := st })) q 24 [BitVec.ofNat 8 st.code]

/-- A context enters STOPPING or FAULTED: its queues stop and its kernels end (R295, R320), consumers before their producers. -/
def endContextWork (s : State) (ctx : Nat) : State :=
  let qs := (s.queues.filter (fun q => q.ctx == ctx)).map (·.qid)
  let s := qs.foldl (fun s i => setQState s i .stopped) s
  let s := { s with queues := s.queues.map (fun (q : Queue) => if q.ctx == ctx then { q with head := none, repeatOf := none, pending := none } else q) }
  let s := (s.kernels.reverse.filter (fun (k : Kernel) => k.ctx = ctx && !k.ended)).foldl
    (fun s k => endKernel (s.kernels.length + 1) s k.id (if k.state = .pending then .cancelled else .faulted) 3) s
  { s with lps := s.lps.map (fun (l : LaunchProc) => match l.prologue with
      | some p => if p.ctx = ctx then { l with prologue := none } else l
      | none => l) }

/-- An unrecoverable error of a context (R282, R286): it is FAULTED and runs nothing; one that is STOPPING stays so (DEDUCED, log entry 122). -/
def faultContext (s : State) (ctx : Nat) : State :=
  match s.ctx? ctx with
  | none => s
  | some c =>
    if c.state = .running || c.state = .caved || c.state = .parked then
      let s := report s 0x17F 3 ctx
      let s := if c.parking then (s.emit (.status .ctxPark 1)).emit .irqCommand else s
      endContextWork (s.modCtx ctx (fun c => { c with state := .faulted, parking := false, busy := false })) ctx
    else s

/-- MACHINE_CHECK: its record is written, the squad stops, and the context becomes FAULTED, its cells stopping where they stand
(R286, R356, R282). A context in STOPPING stays there. -/
def machineCheck (s : State) (cell sq : Nat) (lanes : BitVec 32) (pc : Word) (info : Nat) (progress : Dword) : State :=
  match s.cell? cell, s.squad? cell sq with
  | some c, some q =>
    let s := writeRecord s c.ctx ⟨0, 0x01, info % 256, 0, c.core, q.partition, sq, c.index, lanes.toNat, pc.toNat, 0, pc.setWidth 64, info, progress⟩
    let s := s.modSquad cell sq (fun q =>
      { q with threads := q.threads.map (fun th => if th.state = .exited then th else { th with state := .stopped }) })
    faultContext s c.ctx
  | _, _ => s

/-- MACHINE_CHECK for an uncorrectable error in a cell's own state (R357, R461), which no squad and no instruction of it raises: its squads
stop and the context becomes FAULTED. -/
def cellCheck (s : State) (cell : Nat) (progress : Dword) : State :=
  match s.cell? cell with
  | some c =>
    let s := writeRecord s c.ctx ⟨0, 0x01, 3, 0, c.core, 0, 0xFF, c.index, 0, 0, 0, 0, 3, progress⟩
    let s := s.modCell cell (fun c => { c with squads := c.squads.map (fun (q : Squad) =>
      { q with threads := q.threads.map (fun th => if th.state = .exited then th else { th with state := .stopped }) }) })
    faultContext s c.ctx
  | none => s

/-- The lowest lane of a mask. -/
def lowestLane (m : BitVec 32) : Nat := ((List.range 32).find? (fun i => m.getLsbD i)).getD 32

/-- A thread's cause among those of one squad: one record for each issue and code, with the values of its lowest lane (R349, R353, R357); a
nested cause keeps its own code apart (R355). -/
def joinCause (l : List CauseRec) (c : CauseRec) (lane : Nat) : List CauseRec :=
  let same (r : CauseRec) : Bool :=
    r.issue == c.issue && r.cause == c.cause && (c.cause ≠ .machineCheck || r.info.toNat / 256 == c.info.toNat / 256)
  if l.any same then
    l.map (fun r =>
      if same r then
        if lane < lowestLane r.lanes then { c with lanes := r.lanes ||| c.lanes } else { r with lanes := r.lanes ||| c.lanes }
      else r)
  else l ++ [c]

/-- A thread stops on a cause of an issue (R349): it stays at its instruction, and the cause joins those its squad collects. A cause raised
inside the handler is MACHINE_CHECK (R355), which `settleNested` delivers. -/
def raiseAt (s : State) (issue : Nat) (t : Tid) (c : Cause) (addr : Dword) (info : Nat) (progress : Dword) : State :=
  match s.squad? t.cell t.squad, s.thread? t with
  | some q, some th =>
    let bit : BitVec 32 := 1#32 <<< t.lane
    if q.trap = .active && th.inHandler then
      (s.modThread t (fun th => { th with state := .stopped, wait := none, mark := .cause })).modSquad t.cell t.squad (fun q =>
        { q with collected := joinCause q.collected ⟨.machineCheck, issue, bit, th.pc, th.pc.setWidth 64, word (2 + 256 * c.code), progress⟩ t.lane })
    else
      let after := c = .trapSoft || c = .breakpoint
      let s := s.modThread t (fun th => { th with state := .stopped, wait := none, mark := .cause, ret := if after then th.npc else th.pc })
      s.modSquad t.cell t.squad (fun q =>
        { q with trap := if q.trap = .idle then .stopping else q.trap,
                 collected := joinCause q.collected ⟨c, issue, bit, th.pc, addr, word info, progress⟩ t.lane })
  | _, _ => s

/-- A thread stops on a cause of the issue in execution. -/
def raise (s : State) (t : Tid) (c : Cause) (addr : Dword) (info : Nat) (progress : Dword) : State := raiseAt s s.issued t c addr info progress

/-- A thread that is STALLED with its instruction to be issued again (R331), also one whose instruction has asked a peer. -/
def Thread.triesAgain (th : Thread) : Bool := th.state = .stalled && (th.wait.isNone || th.wait = some .ask)

/-- A thread that is STALLED at an instruction whose access a peer has still to answer. -/
def Thread.heldPeer (th : Thread) : Bool := th.state = .stalled && th.wait.isSome && th.wait ≠ some .ask

/-- Whether a peer has still to answer a thread of a squad for its instruction of an issue. -/
def Squad.issueOpen (q : Squad) (issue : Nat) : Bool := q.threads.any (fun th => th.heldPeer && th.waitAt = issue)

/-- The nested causes that a squad's threads have raised become MACHINE_CHECK, one record for each issue and code, once every thread of the
issue has performed it or stopped (R355, R356). -/
def settleSquad (s : State) (cell sq : Nat) : State :=
  match s.squad? cell sq with
  | some q =>
    let ripe (r : CauseRec) : Bool := r.cause = .machineCheck && !q.issueOpen r.issue
    let nested := q.collected.filter ripe
    if nested.isEmpty then s
    else
      let s := s.modSquad cell sq (fun q => { q with collected := q.collected.filter (fun r => !ripe r) })
      nested.foldl (fun s r => machineCheck s cell sq r.lanes r.pc r.info.toNat r.progress) s
  | none => s

/-- The nested causes of every squad of a cell. -/
def settleNested (s : State) (cell : Nat) : State :=
  match s.cell? cell with
  | some c => (List.range c.squads.length).foldl (fun s i => settleSquad s cell i) s
  | none => s

/-- csr.taddr of a cause whose value is the code offset (R357). -/
def raisePc (s : State) (t : Tid) (c : Cause) (info : Nat) : State :=
  raise s t c (((s.thread? t).map (fun th => th.pc.setWidth 64)).getD 0) info 0

/-- XP_STOPPED: the pending bit of a context in squad 0, or in the lowest squad that has not retired (R354). -/
def raiseXp (s : State) (cell ctxNo code : Nat) : State :=
  match s.cell? cell with
  | none => s
  | some c =>
    let live := (List.range c.squads.length).filter (fun i => match c.squads[i]? with
      | some q => q.state ≠ .retired && q.handler.isNone
      | none => false)
    match live with
    | [] => s
    | i :: _ =>
      s.modSquad cell i (fun q =>
        { q with pendXp := q.pendXp ||| (1#4 <<< ctxNo), pendXpCode := q.pendXpCode.set ctxNo code,
                 trap := if q.trap = .idle then .stopping else q.trap })

/-- Whether a long-latency instruction of a thread is still to retire (R73); a pending batch reply does not count (R235). -/
def Outstanding.pending (o : Outstanding) : Bool := o.awaits ≠ .done && o.awaits ≠ .batch

/-- A thread that exits, traps or is saved has no window open (R73): entries that have retired go, and of a pending batch reply only the
registers stay (R235). -/
def Thread.closeWindows (th : Thread) : Thread :=
  { th with board := (th.board.filter (fun o => o.awaits = .batch)).map (fun o => { o with window := 0 }) }

/-- The collected cause that the squad delivers next in cause mode: lowest code, earliest issue, lowest lane (R352). -/
def bestCause : List CauseRec → Option CauseRec
  | [] => none
  | c :: r =>
    match bestCause r with
    | none => some c
    | some d =>
      let better := c.cause.code < d.cause.code || (c.cause.code = d.cause.code && (c.issue < d.issue
        || (c.issue = d.issue && lowestLane c.lanes ≤ lowestLane d.lanes)))
      some (if better then c else d)

/-- Causes in the order of a trap queue: by issue, then by code (R353). -/
def insertCause (c : CauseRec) : List CauseRec → List CauseRec
  | [] => [c]
  | d :: r => if c.issue < d.issue || (c.issue = d.issue && c.cause.code < d.cause.code) then c :: d :: r else d :: insertCause c r

/-- The XP_STOPPED cause of the lowest pending context (R354) (DESIGN CHOICE, log entry 49). -/
def pendingXpCause (q : Squad) : Option CauseRec :=
  ((List.range 4).find? (fun i => q.pendXp.getLsbD i)).map (fun i => ⟨.xpStopped, 0, 0, 0, 0, word (i + 256 * q.pendXpCode.getD i 0), 0⟩)

/-- A thread enters the handler (R350, R351): its return point is where it stands, or the next instruction after TRAP and BRK,
which have set it; a wait it held is kept, and MONWAIT ends with status 3. -/
def Thread.enterHandler (th : Thread) (tvec : Word) (now : Nat) : Thread :=
  if th.state = .exited then th
  else
    let th := match th.wait with
      | some (.monitor d t) => th.endMonwait d t 3 now
      | _ => th
    let th := th.closeWindows
    let ret := if th.mark = .cause then th.ret else th.pc
    let held := match th.wait with
      | some (.tret _ _) => none
      | some .reply => none
      | w => w
    { th with ret := ret, inHandler := true, heldWait := if th.inHandler then th.heldWait else held,
              heldDone := if th.inHandler then th.heldDone else none, wait := none,
              pc := tvec, state := .ready, readyAt := now }

/-- What the threads of a squad have asked peers, with answers that they have not used, is of no use any more. -/
def dropSquadAsks (s : State) (cell sq : Nat) : State :=
  { s with asks := s.asks.filter (fun q => match q.who with
      | .thread t => !(t.cell = cell && t.squad = sq)
      | _ => true) }

/-- The uniform tags of some lane registers of a squad go: they hold a value for each lane (R91). -/
def Squad.untag (q : Squad) (ns : List Nat) : Squad := { q with tags := ns.foldl (fun l n => l.set n false) q.tags }

/-- Steps 4 to 6 of R349 for one cause: the record, the trap registers, and every live thread at csr.tvec in one clock. -/
def enterTrap (s : State) (cell sq : Nat) (c : CauseRec) (flags : Nat) : State :=
  match s.cell? cell, s.squad? cell sq with
  | some ce, some q =>
    match s.ctx? ce.ctx with
    | none => s
    | some x =>
      let seq := x.fseq
      let s :=
        if c.cause = .xpStopped then s
        else writeRecordFor s ce.ctx ⟨0, c.cause.code, c.info.toNat % 256, flags ||| 4, ce.core, q.partition, sq, ce.index, c.lanes.toNat,
          c.pc.toNat, 0, c.addr, c.info.toNat, c.progress⟩ (some (cell, sq))
      let s := dropSquadAsks s cell sq
      let s := if c.cause = .xpStopped then
          writeRecordFor s ce.ctx ⟨0, 0x14, c.info.toNat % 256, flags ||| 4, ce.core, q.partition, sq, ce.index, 0, 0, 0, 0, c.info.toNat, 0⟩
            (some (cell, sq))
        else s
      s.modSquad cell sq (fun q =>
        { q with trap := .active, tcause := BitVec.ofNat 8 c.cause.code, taddr := c.addr, tmask := c.lanes,
                 tinfo := (word seq) ++ c.info,
                 ring := q.ring.map (fun e => { e with oldCsr := e.oldCsr.filter (fun o => o.1 < 0x010 || 0x013 < o.1) }),
                 threads := q.threads.map (fun th => th.enterHandler x.tvec s.clk) })
  | _, _ => s

/-- Delivery (R349, R352–R354): in cause mode one cause is taken and the others dropped; in queue mode the collected causes join
the trap queue of 8 and its head is delivered. -/
def deliver (s : State) (cell sq : Nat) : State :=
  match s.cell? cell, s.squad? cell sq with
  | some ce, some q =>
    let qmode := ((s.ctx? ce.ctx).map (·.tmode)).getD false
    let xp := pendingXpCause q
    if !qmode then
      match bestCause (q.collected ++ xp.toList) with
      | none => s.modSquad cell sq (fun q => { q with trap := .idle })
      | some c =>
        let others := q.collected.filter (fun d => !(d == c))
        let s := s.modSquad cell sq (fun q =>
          { q with collected := [], pendXp := if c.cause = .xpStopped then q.pendXp &&& ~~~(1#4 <<< (c.info.toNat % 256)) else q.pendXp,
                   threads := q.threads.map (fun th =>
                     if th.mark = .cause && !c.lanes.getLsbD th.lane then { th with mark := .dropped, ret := th.pc } else th) })
        enterTrap s cell sq c (if others.isEmpty then 0 else 1)
    else
      let sorted := q.collected.foldl (fun l c => insertCause c l) []
      let room := 8 - q.tqueue.length
      let unq := sorted.drop room
      let queue := q.tqueue ++ sorted.take room
      let isUnq (lane : Nat) : Bool := unq.any (fun c => c.lanes.getLsbD lane)
      let s := s.modSquad cell sq (fun q =>
        { q with collected := [], tqueue := queue,
                 threads := q.threads.map (fun th => if th.mark = .cause && isUnq th.lane then { th with mark := .unqueued, ret := th.pc } else th) })
      let fl := if unq.isEmpty then 0 else 2
      match queue, xp with
      | h :: _, _ => enterTrap s cell sq h fl
      | [], some c =>
        let s := s.modSquad cell sq (fun q => { q with pendXp := q.pendXp &&& ~~~(1#4 <<< (c.info.toNat % 256)) })
        enterTrap s cell sq c fl
      | [], none => s.modSquad cell sq (fun q => { q with trap := .idle })
  | _, _ => s

/-- Every live thread leaves the handler, each to its own destination, in one clock (R362), and one that goes elsewhere than to the wait it held
gives up its place in the slot's waiter map (R351, R373); with the queue empty the trap state
becomes IDLE and csr.tcause and csr.tmask 0 (R359), else the next cause is delivered at once (R353). `len` gives the length of
the instruction at a return point. -/
def leaveHandler (s : State) (cell sq : Nat) (len : Word → Nat) : State :=
  match s.squad? cell sq with
  | none => s
  | some q =>
    let goal (th : Thread) : Word := match th.wait with
      | some (.tret 1 _) => if q.tmask.getLsbD th.lane then th.ret + word (len th.ret) else th.ret
      | some (.tret 2 a) => if q.tmask.getLsbD th.lane then a else th.ret
      | _ => th.ret
    let away := (q.threads.filter (fun th => th.state ≠ .exited && th.heldWait.isSome && goal th ≠ th.ret)).map (fun th => 32 * sq + th.lane)
    let s := if away.isEmpty then s else s.modCell cell (fun c => { c with slots := c.slots.map (fun (x : Slot) =>
      { x with waitmap := x.waitmap.filter (fun t => !away.contains t) }) })
    let leave (th : Thread) : Thread :=
      if th.state = .exited then th
      else
        let dest := goal th
        let th' := { th with pc := dest, ret := dest, mark := .none, inHandler := false, wait := none, heldWait := none, heldDone := none,
                             state := .ready, readyAt := s.clk }
        if dest = th.ret && th.heldWait.isSome then
          let back := { th' with wait := th.heldWait, state := .waiting, npc := th.ret + word (len th.ret) }
          match th.heldDone with
          | some (c, st) => back.endOwn c st s.clk
          | none => back
        else if dest = th.ret then { th' with mark := th.mark } else th'
    let rest := q.tqueue.drop 1
    let s := s.modSquad cell sq (fun q => { q with threads := q.threads.map leave, tqueue := rest })
    if !rest.isEmpty then deliver s cell sq
    else
      let s := s.modSquad cell sq (fun q =>
        { q with trap := if q.pendXp ≠ 0 then .stopping else .idle, tcause := 0, tmask := 0,
                 threads := q.threads.map (fun th => { th with mark := .none }) })
      s

end Sys2Proof.Machine
end

