-- ==== Sys2Proof/Machine/Operands.lean ====
section
/-! DEFINITION. Operands and issue: how a thread reads its sources (R68–R71, R84, R88–R97, R114), the decode checks (R74), the
lookahead scoreboard (R338), and the two ways an instruction is issued: per thread of a bundle, and as a uniform step (R335). -/
namespace Sys2Proof.Machine
open Sys2Proof

/-! ## Reading sources -/

/-- What a thread reads from: the state before the bundle's writes (R97), itself, its squad and cell, the literal, and the
bundle's threads whose guard holds, in lane order. -/
structure Rd where
  s : State
  t : Tid
  th : Thread
  q : Squad
  c : Cell
  lit : Option Dword
  act : List Tid
  all : List Tid
  pops : List Nat

/-- The lane a pattern names for lane L, none where .shd reads beyond lane 31 (R70). -/
def laneOf (pat par L : Nat) : Option Nat :=
  match pat with
  | 1 => some (par % 32)
  | 2 => some ((L + 32 - par % 32) % 32)
  | 3 => some (L ^^^ (par % 32))
  | 4 => some (L ^^^ (2 ^ (par % 6) - 1))
  | 5 => if L + par > 31 then none else some (L + par)
  | _ => some L

/-- The context a queue-mapped register is bound to, 0 for none (R88). -/
def Squad.bound (q : Squad) (n : Nat) : Nat := if 176 ≤ n && n < 192 then q.bind.getD (n - 176) 0 else 0

/-- A lane register of a thread: a bound register reads its queue's oldest entry (R89). -/
def readVReg (q : Squad) (th : Thread) (n : Nat) : Word :=
  if q.bound n ≠ 0 then (th.queues.getD (n - 176) []).headD 0 else th.v.getD n 0

/-- A thread's view of a k register: steps that the thread has not passed are undone by the values they replaced (R114). -/
def readK (q : Squad) (th : Thread) (n : Nat) : Dword :=
  let newer := q.ring.filter (fun e => decide (th.ustep < e.num) && e.oldK.any (fun o => o.1 == n))
  let first := newer.foldl (fun (b : Option UStep) e => match b with
    | none => some e
    | some x => if e.num < x.num then some e else some x) none
  match first.bind (fun e => e.oldK.find? (fun o => o.1 == n)) with
  | some o => o.2
  | none => q.k.getD n 0

/-- A thread's view of a squad register that uniform steps write, in the same way (R114). -/
def readOldCsr (q : Squad) (th : Thread) (n : Nat) (now : Dword) : Dword :=
  let newer := q.ring.filter (fun e => decide (th.ustep < e.num) && (e.oldCsr.map (·.1)) = some n)
  let first := newer.foldl (fun (b : Option UStep) e => match b with
    | none => some e
    | some x => if e.num < x.num then some e else some x) none
  match first.bind (·.oldCsr) with
  | some o => o.2
  | none => now

/-- The thread a source field is read from, none where it reads zero. -/
def Rd.source (r : Rd) (f : Src) : Option Thread :=
  if f.pat = 0 then some r.th else (laneOf f.pat.toNat f.par.toNat r.t.lane).bind (fun l => r.q.threads[l]?)

/-- Thread index in the cell (R19). -/
def tixOf (t : Tid) : Nat := 32 * t.squad + t.lane

/-- Register i of a lane operand. -/
def Rd.vreg (r : Rd) (f : Src) (i : Nat) : Word :=
  match r.source f with
  | some th => readVReg r.q th (f.code.toNat + i)
  | none => 0

/-- A 64-bit source: an even pair, a k register whole, z, lane, tix or the literal (R68, R101). -/
def Rd.x64 (r : Rd) (f : Src) : Dword :=
  if isV f.code then r.vreg f 1 ++ r.vreg f 0
  else if isK f.code then readK r.q r.th (f.code.toNat - 0xC0)
  else if f.code = cLane then dword r.t.lane
  else if f.code = cTix then dword (tixOf r.t)
  else if f.code = cLit then r.lit.getD 0
  else 0

/-- A 32-bit source: a lane register, or bits 31:0 of the rest (R59, R67, R101). -/
def Rd.x32 (r : Rd) (f : Src) : Word := if isV f.code then r.vreg f 0 else lo32 (r.x64 f)

/-- A source at the width W, unsigned. -/
def Rd.x (r : Rd) (wide : Bool) (f : Src) : Nat := if wide then (r.x64 f).toNat else (r.x32 f).toNat

/-- A predicate; p0 reads true (R68). -/
def Thread.pred (th : Thread) (n : Nat) : Bool := n = 0 || th.p.getLsbD n
def Rd.pr (r : Rd) (c : Code) : Bool := r.th.pred c.toNat

/-- A packet of a spectral operand (R83). -/
def zeroPacket : Packet := List.replicate 8 0
def Rd.packet (r : Rd) (f : Src) (i : Nat) : Packet :=
  match r.source f with
  | some th => th.w.getD (f.code.toNat + i) zeroPacket
  | none => zeroPacket

/-- Source field of a plain code. -/
def src (c : Code) : Src := ⟨c, 0, 0⟩

/-! ## Forms at issue -/

def Form.opx : Form → Nat
  | .baseNone op | .base1 op _ | .base2 op _ | .imm8 op _ | .shift op _ | .imm16 op _ | .baseBr op _ | .baseLit op _ => op
  | .baseRet _ => 0x3E
  | .ext op _ | .mem op _ | .br op _ | .sweep op _ | .xp op _ => op
  | .event => 0

/-- Whether the form is an extended one, so that its opcode is an OPX. -/
def Form.extended : Form → Bool
  | .ext _ _ | .mem _ _ | .br _ _ | .sweep _ _ => true
  | _ => false

/-- Length in bytes (R55). -/
def Form.len : Form → Nat
  | .baseLit _ _ => 12
  | .ext _ f => if f.lit.isSome then 20 else 12
  | .mem _ f => if f.lit.isSome then 20 else 12
  | .br _ f => if f.lit.isSome then 20 else 12
  | .sweep _ _ => 20
  | .xp _ _ => 8
  | _ => 4

def Form.guard : Form → Guard
  | .ext _ f => f.g
  | .mem _ f => f.g
  | .br _ f => f.g
  | .sweep _ f => f.g
  | .baseBr _ f => ⟨f.gn, f.g⟩
  | _ => ⟨false, 0⟩

def Form.la : Form → Nat
  | .ext _ f => f.la.toNat
  | .mem _ f => f.la.toNat
  | .sweep _ f => f.la.toNat
  | _ => 0

/-- The literal, with the base immediates extended as R59 marks them. -/
def Form.lit : Form → Option Dword
  | .ext _ f => f.lit
  | .mem _ f => f.lit
  | .br _ f => f.lit
  | .baseLit _ f => some f.lit
  | .imm8 op f => some (if op = 0x1B then f.imm.signExtend 64 else f.imm.setWidth 64)
  | .shift _ f => some (f.count.setWidth 64)
  | .imm16 op f => some (if op = 0x22 then f.imm.signExtend 64 else f.imm.setWidth 64)
  | _ => none

/-- Destination and source fields as written. -/
def Form.srcs : Form → Code × Src × Src × Src
  | .base1 _ f => (f.d, src f.a, src 0, src 0)
  | .base2 _ f => (f.d, src f.a, src f.b, src 0)
  | .imm8 _ f => (f.d, src f.a, src 0, src 0)
  | .shift _ f => (f.d, src f.a, src 0, src 0)
  | .imm16 _ f => (f.d, src 0, src 0, src 0)
  | .baseLit _ f => (f.d, src f.a, src 0, src 0)
  | .baseRet a => (0, src a, src 0, src 0)
  | .ext _ f => (f.d, f.a, f.b, f.c)
  | .mem _ f => (f.d, f.a, f.b, src f.c)
  | .br _ f => (f.d, src f.a, src 0, src 0)
  | .sweep _ f => (f.d, src f.a, src f.b, src f.c)
  | _ => (0, src 0, src 0, src 0)

/-- Whether the form is a uniform step (R113). -/
def Form.uniform (f : Form) : Bool :=
  (f.extended || (f.opx < 0x3C && f ≠ .baseNone 0)) && isUniform (if f.extended then f.opx else 0) (fieldsOf f).d f.srcs.1

/-- Whether an opcode is collective by itself (R76); matrix grouping and strict atomics included. -/
def collectiveOp (op : Nat) (strict : Bool) (m : Option Mem) : Bool :=
  [0x1D, 0xD6, 0xE8, 0xC8, 0xCA, 0xCB, 0xC4, 0xC5].contains op
    || (strict && (match m with
        | some f =>
          let cell := decide (f.opt.toNat / 2 % 8 = 1)
          (op = 0x8A || op = 0x8C || (op = 0x8D && f.fn = 8)) && cell
        | none => false))

/-- Whether an instruction is collective in a squad (R71, R76). -/
def Form.collective (f : Form) (strict : Bool) : Bool :=
  f.extended && (collectiveOp f.opx strict (match f with
    | .mem _ m => some m
    | _ => none) || f.srcs.2.1.pat ≠ 0 || f.srcs.2.2.1.pat ≠ 0 || f.srcs.2.2.2.pat ≠ 0)

/-! ## Register sets (R72, R89, R338) -/

/-- The registers a field of this use covers when its code is c. -/
def FK.regs (u : FK) (c : Code) : List Reg :=
  let n := c.toNat
  let vs (m : Nat) : List Reg := if isV c then (List.range m).map (fun i => Reg.v (n + i)) else if isK c then [.k (n - 0xC0)] else []
  match u with
  | .none | .z | .tile | .panel => []
  | .p => if n = 0 then [] else [.p n]
  | .v m | .vg m _ | .vz m => vs m
  | .vx m => vs m
  | .ref => vs 2
  | .vk => vs 2
  | .vkl => vs 2
  | .off => vs 1
  | .u _ => vs 1
  | .k => vs 1
  | .w m => (List.range m).map (fun i => Reg.w (n + i))
  | .dv m _ _ _ => vs m
  | .dk => vs 1
  | .dptp => if isK c then [.k (n - 0xC0), .k (n - 0xC0 + 1)] else (List.range 3).map (fun i => Reg.v (n + i))

/-- Base MOVHI keeps the rest of its destination, so it reads it (R59). -/
def Form.keepsD : Form → Bool
  | .imm16 op _ => op = 0x23
  | _ => false

/-- The predicate that ISETP and FSETP combine with (R107, R131): IMM16 bits 3:0, unless bits 5:4 ask for none. -/
def Form.combines (f : Form) : List Reg :=
  match f with
  | .ext op g => if (op = 0x1B || op = 0x46) && g.imm.toNat / 16 % 4 ≠ 0 && g.imm.toNat % 16 ≠ 0 then [.p (g.imm.toNat % 16)] else []
  | _ => []

/-- Whether D is a source: base MOVHI's, and the k(D) by which a sweep names scratch (R143). -/
def Form.readsD (f : Form) : Bool :=
  f.keepsD || (match f with
    | .sweep op _ => op ≠ 0x76
    | _ => false)

/-- Registers read from the reading thread itself: fields without a pattern. -/
def Form.reads (f : Form) : List Reg :=
  let u := fieldsOf f
  let x := f.srcs
  let own (m : FK) (y : Src) : List Reg := if y.pat = 0 then m.regs y.code else []
  own u.a x.2.1 ++ own u.b x.2.2.1 ++ own u.c x.2.2.2 ++ (if f.readsD then u.d.regs x.1 else []) ++ f.combines
    ++ (if f.guard.p = 0 then [] else [Reg.p f.guard.p.toNat])

/-- Registers read from other lanes: the pattern field and what it covers. -/
def Form.crossReads (f : Form) : List (Src × List Reg) :=
  let u := fieldsOf f
  let x := f.srcs
  ([(u.a, x.2.1), (u.b, x.2.2.1), (u.c, x.2.2.2)].filter (fun y => y.2.pat ≠ 0)).map (fun y => (y.2, y.1.regs y.2.code))

/-- Registers written; base CALL links into v190 (R61), and of the sweeps SW.SUM alone writes its D (R143, R145). -/
def Form.writes (f : Form) : List Reg :=
  match f with
  | .baseBr op _ => if op = 0x3D then [.v 190] else []
  | _ => if f.readsD && !f.keepsD then [] else (fieldsOf f).d.regs f.srcs.1

/-- The bound registers among those read (R89). -/
def popsOf (q : Squad) (rs : List Reg) : List Nat :=
  dedup (rs.filterMap (fun r => match r with
    | .v n => if q.bound n ≠ 0 then some n else none
    | _ => none))

/-! ## Decode checks that need the thread (R68–R70, R74, R83, R85, R89) -/

/-- A lane register group: within the budget, aligned, and covering no bound register when it has several. -/
def laneOk (q : Squad) (vregs n k al : Nat) (allowBound : Bool) : Bool :=
  n % al = 0 && n + k ≤ vregs && (allowBound || (List.range k).all (fun i => q.bound (n + i) = 0))

/-- The cause a field raises, if any, in a thread of a squad; `uni` when the instruction is uniform (DESIGN CHOICE, log entry 130). -/
def fieldCause (c : Cell) (q : Squad) (th : Thread) (uni : Bool) (u : FK) (f : Src) : Option Cause :=
  let n := f.code.toNat
  let vr := th.v.length
  let bad : Option Cause := some .operandNamespace
  let single := f.pat = 0
  let lane (m al : Nat) : Option Cause := if laneOk q vr n m al (m = 1 && single) && !uni then none else bad
  match u with
  | .none => none
  | .p => if n ≤ 15 then none else bad
  | .v k => if isV f.code then lane k (if k = 2 then 2 else 1) else if uni && (f.code = cLane || f.code = cTix) then bad else none
  | .vg k al => if isV f.code then lane k al else bad
  | .vx k => if isV f.code && laneOk q vr n k 1 false && !uni then none else bad
  | .vz k => if isV f.code then lane k 1 else if f.code = cZ then none else bad
  | .z => if f.code = cZ then none else bad
  | .ref => if isV f.code then lane 2 2 else if isK f.code || f.code = cLit then none else bad
  | .off => if isV f.code then lane 1 1 else if isK f.code || f.code = cLit || f.code = cZ then none else bad
  | .vk => if isV f.code then lane 2 2 else if isK f.code then none else bad
  | .vkl => if isV f.code then lane 2 2 else if isK f.code || f.code = cLit then none else bad
  | .u z => if isK f.code || f.code = cLit || (z && f.code = cZ) then none else bad
  | .k => if isK f.code then none else bad
  | .w k => if n < 64 && n % k = 0 && n + k ≤ th.w.length then none else bad
  | .tile => if n > 7 then bad else if n < c.shape.acc then none else some .matrixState
  | .panel => if n > 127 then bad else if c.shape.rind then none else some .matrixState
  | .dv k al kOk zOk =>
    if isV f.code then (if laneOk q vr n k al false then none else bad)
    else if isK f.code then (if kOk then none else bad)
    else if f.code = cZ then (if zOk then none else bad) else bad
  | .dk => if isK f.code then none else bad
  | .dptp =>
    if isV f.code then (if laneOk q vr n 3 2 false then none else bad)
    else if isK f.code then (if n + 1 ≤ 0xFB then none else bad) else bad

/-- The opcodes that a handler squad may not execute (R420). -/
def handlerBarred (op : Nat) : Bool := (0xC0 ≤ op && op ≤ 0xCD) || (0xD0 ≤ op && op ≤ 0xDA)

/-- The state-dependent decode causes of R62, R339, R362 and R420 and of the fields, lowest code. -/
def decodeCause (f : Form) (extra : Option Cause) (c : Cell) (q : Squad) (th : Thread) : Option Cause :=
  let u := fieldsOf f
  let x := f.srcs
  let uni := f.uniform
  let fc := fieldCause c q th uni
  let handler := if f.extended && q.handler.isSome && handlerBarred f.opx then some Cause.illegalInstr else none
  let link := match f with
    | .baseBr op _ => if op = 0x3D && !(laneOk q th.v.length 190 1 1 false) then some Cause.operandNamespace else none
    | _ => none
  lowestCause ([extra, handler, link, fc u.d (src x.1), fc u.a x.2.1, fc u.b x.2.2.1, fc u.c x.2.2.2].filterMap id)

/-- csr.tinfo of a decode cause: MATRIX_STATE gives the subcode of R208. -/
def decodeInfo (f : Form) (c : Cell) (k : Cause) : Nat :=
  if k = .matrixState then
    let u := fieldsOf f
    let x := f.srcs
    let noTile := [(u.d, x.1), (u.a, x.2.1.code), (u.b, x.2.2.1.code), (u.c, x.2.2.2.code)].any
      (fun y => y.1 = .tile && !(decide (y.2.toNat < c.shape.acc)))
    if noTile then 1 else 2
  else 0

/-! ## The scoreboard (R72, R96, R338) -/

/-- What the scoreboard says of an issue: free, an open window hit, or a wait. -/
inductive Hazard where
  | free
  | violation
  | stall
  | reply
  deriving DecidableEq, Repr

/-- The guard as a thread evaluates it (R65). -/
def guardHolds (g : Guard) (th : Thread) : Bool := th.pred g.p.toNat != g.neg

/-- The check of a thread's issue against its scoreboard: with the guard false no register is touched, but a pending reply that the guard
itself awaits is waited for (R65, R72, R235) (DEDUCED, log entry 14) (DEDUCED, log entry 15). -/
def hazardOf (f : Form) (xr xw xall : List Reg) (long : Bool) (q : Squad) (th : Thread) (lane : Nat) : Hazard :=
  let on := guardHolds f.guard th
  let guardSet : List Reg := if f.guard.p = 0 then [] else [.p f.guard.p.toNat]
  let sets := if on then f.reads ++ xr ++ f.writes ++ xw else guardSet
  let hits (o : Outstanding) : Bool := o.writes.any (fun w => sets.contains w)
  let openHit := on && th.board.any (fun o => decide (0 < o.window) && hits o)
  let closed := th.board.any (fun o => o.window = 0 && o.pending)
  let reply := th.board.any (fun o => o.window = 0 && o.awaits = .batch && hits o)
  let full := long && decide (16 ≤ (th.board.filter Outstanding.pending).length)
  let cross := on && f.crossReads.any (fun y => match (laneOf y.1.pat.toNat y.1.par.toNat lane).bind (fun l => q.threads[l]?) with
    | some o => o.board.any (fun e => e.awaits ≠ .done && e.writes.any (fun w => y.2.contains w))
    | none => false)
  let cross : Bool := cross || (on && !xall.isEmpty
    && q.threads.any (fun o => o.board.any (fun e => e.awaits ≠ .done && e.writes.any (fun w => xall.contains w))))
  if openHit then .violation
  else if closed || full || cross then .stall
  else if reply then .reply
  else .free

/-- An empty queue register at a read: the cause of an orphan, or none where the thread waits (R358). -/
def orphanOf (c : Cell) (q : Squad) (th : Thread) (pops : List Nat) : Option (Nat × Nat × Nat) :=
  (pops.filterMap (fun n =>
    if (th.queues.getD (n - 176) []).isEmpty then
      let ctx := q.bound n
      match (c.xps[ctx - 1]?).map XpCtx.state with
      | some XState.exited => some (1, ctx, n - 176)
      | some XState.killed => some (2, ctx, n - 176)
      | _ => none
    else none)).head?

def emptyPop (th : Thread) (pops : List Nat) : Bool := pops.any (fun n => (th.queues.getD (n - 176) []).isEmpty)

/-! ## Writes -/

/-- What an instruction writes in one thread: lane registers, uniform registers, predicates, packets, raised flags, a taint
that overrides the sources' (R92), and the samples that a write of a packet leaves as they are. -/
structure Writes where
  v : List (Nat × Word) := []
  k : List (Nat × Dword) := []
  p : List (Nat × Bool) := []
  w : List (Nat × Packet) := []
  flags : Flags := 0
  taint : Option Bool := none
  /-- Samples of the packets written, by 8·w + sample, whose words are not written anew (R157). -/
  kept : List Nat := []

/-- Where a thread goes when an instruction has been issued: `hold` keeps it at the instruction until a peer has answered (R347). -/
inductive Go where
  | next
  | jump (pc : Word)
  | wait (w : Wait)
  | hold (w : Wait)
  | yielded
  | exit

/-- How an instruction ends in one thread: performed, to be issued again, or stopped on a cause. A performed long-latency
instruction names what it awaits; `causeIn` stops after effects that stand (R187, R385). -/
inductive LaneOut where
  | ok (s : State) (w : Writes) (go : Go) (aw : Awaits)
  | stall (s : State)
  | cause (c : Cause) (addr : Option Dword) (info : Nat) (progress : Dword)
  | causeIn (s : State) (c : Cause) (addr : Option Dword) (info : Nat) (progress : Dword)

/-- The effect of an instruction in one thread: what it reads, and the state as the bundle's earlier threads left it. -/
abbrev LaneSem := Rd → State → LaneOut

/-- The registers after an instruction's writes. -/
def Thread.apply (th : Thread) (w : Writes) (taint : Bool) : Thread :=
  let t := w.taint.getD taint
  { th with v := w.v.foldl (fun l x => l.set x.1 x.2) th.v,
            taint := w.v.foldl (fun l x => l.set x.1 t) th.taint,
            p := w.p.foldl (fun p x => setPred p x.1 x.2) th.p,
            w := w.w.foldl (fun l x => l.set x.1 x.2) th.w,
            vres := fixResidues th.vres (w.v.map (·.1)),
            wres := fixResidues th.wres ((w.w.flatMap (fun x => (List.range 8).map (8 * x.1 + ·))).filter (fun i => !w.kept.contains i)) }

/-- Writes of an integer destination: a lane register, a pair at width 64, or a k register extended (R84, R101). -/
def writeInt (d : Code) (wide signed : Bool) (n : Nat) : Writes :=
  let x : Dword := dword (n % 2 ^ 64)
  if isV d then (if wide then { v := [(d.toNat, lo32 x), (d.toNat + 1, hi32 x)] } else { v := [(d.toNat, lo32 x)] })
  else if isK d then
    { k := [(d.toNat - 0xC0, if wide then x else if signed then (lo32 x).signExtend 64 else (lo32 x).setWidth 64)] }
  else {}

/-- Writes of one lane register, or none for z (DESIGN CHOICE, log entry 19). -/
def writeV (d : Code) (x : Word) : Writes := if isV d then { v := [(d.toNat, x)] } else {}
/-- Writes of a group of lane registers. -/
def writeVs (d : Code) (xs : List Word) : Writes := if isV d then { v := (List.range xs.length).zip xs |>.map (fun y => (d.toNat + y.1, y.2)) } else {}
def writeP (d : Code) (b : Bool) : Writes := { p := [(d.toNat, b)] }
def writeW (d : Code) (x : Packet) : Writes := { w := [(d.toNat, x)] }

/-- An effect that only computes registers. -/
def LaneOut.done (s : State) (w : Writes) : LaneOut := .ok s w .next .unit
/-- The effect of a computation with no side. -/
def pureSem (f : Rd → Writes) : LaneSem := fun r s => .done s (f r)

/-! ## Issue of a bundle -/

/-- What the issue of an instruction needs beside its effect: the registers it reads and writes beyond its fields, a
state-dependent decode cause, and the registers it reads from every lane of the squad (R202). -/
structure Spec where
  form : Form
  xr : List Reg := []
  xw : List Reg := []
  xall : List Reg := []
  extra : State → Tid → Option Cause := fun _ _ => none
  sem : LaneSem

/-- Taint of the sources a thread read (R92): queue pops and other files carry none. -/
def Rd.tainted (r : Rd) (f : Form) : Bool :=
  let u := fieldsOf f
  let x := f.srcs
  let one (m : FK) (y : Src) : Bool :=
    match r.source y with
    | none => false
    | some th => (m.regs y.code).any (fun g => match g with
      | .v n => r.q.bound n = 0 && th.taint.getD n false
      | _ => false)
  one u.a x.2.1 || one u.b x.2.2.1 || one u.c x.2.2.2 || (f.keepsD && one u.d (src x.1))

/-- A thread passes an issue: windows count down, and entries that retired and have no window left go (R338). -/
def Thread.countIssue (th : Thread) : Thread :=
  { th with board := (th.board.map (fun o => { o with window := o.window - 1 })).filter (fun o => o.window ≠ 0 || o.awaits ≠ .done) }

/-- A thread has performed an instruction: what it writes, the windows' count, the queue entries taken, and its scoreboard entry. -/
def Thread.perform (th : Thread) (w : Writes) (taint : Bool) (pops : List Nat) (entry : List Outstanding) : Thread :=
  let th := ((th.apply w taint).countIssue).popQueues pops
  { th with board := th.board ++ entry }

/-- The offset of the instruction that follows the one a thread issues. -/
def Thread.noteNext (pc : Word) (th : Thread) : Thread := { th with npc := pc }

/-- A thread goes on to an offset (R331). -/
def Thread.goTo (th : Thread) (pc : Word) (now : Nat) : Thread :=
  { th with pc := pc, state := if th.state = .stopped then .stopped else .ready, wait := none, readyAt := now, wants := [] }

def Thread.stallAt (th : Thread) : Thread :=
  if th.state = .ready || th.wait = some .ask then { th with state := .stalled, wait := none } else th

/-- A thread stops short of performing its instruction: it awaits what the instruction has asked of a peer, which it issues even when its squad
stops meanwhile (R171, R347), or it tries again. -/
def stallFor (s : State) (t : Tid) : State :=
  s.modThread t (if s.asks.any (fun q => q.who = .thread t) then (fun th => { th with state := .stalled, wait := some .ask }) else Thread.stallAt)

/-- A thread that is STALLED on empty queue registers (R89). -/
def Thread.wantQueues (th : Thread) (regs : List Nat) : Thread := { th.stallAt with wants := regs }

/-- A thread that reads a pending ATOMB reply waits for it where it stands (R235, R331). -/
def Thread.waitReply (th : Thread) : Thread :=
  if th.state = .ready || th.state = .stalled then { th with state := .waiting, wait := some .reply } else th

/-- The scoreboard entry of a long-latency instruction that writes registers. -/
def boardEntry (long : Bool) (writes : List Reg) (la : Nat) (aw : Awaits) : List Outstanding :=
  if long && !writes.isEmpty then [⟨writes, la, aw⟩] else []

/-- A wait at SYNC outside the handler (R385). -/
def isSync (w : Wait) : Bool := match w with
  | .sync _ => true
  | _ => false

/-- An exit settles the open sync records that name the lane and that it has not reached (R385): every arrived thread raises
MASK_DISAGREE with subcode 1, one that holds its place from the handler meets it again at its SYNC, and the record closes. -/
def syncExit (s : State) (t : Tid) : State :=
  match s.squad? t.cell t.squad with
  | none => s
  | some q =>
    let broken (r : Option SyncRec) : List Nat := match r with
      | some x => if x.mask.getLsbD t.lane && !x.arrived.getLsbD t.lane then (List.range 32).filter (fun l => x.arrived.getLsbD l) else []
      | none => []
    let isBroken (r : Option SyncRec) : Bool := match r with
      | some x => x.mask.getLsbD t.lane && !x.arrived.getLsbD t.lane
      | none => false
    let tid (l : Nat) : Tid := ⟨t.cell, t.squad, l⟩
    let stop (s : State) (l : Nat) : State := raisePc s (tid l) .maskDisagree 1
    let leave (s : State) (l : Nat) : State :=
      if (s.thread? (tid l)).any (fun th => th.heldWait.any isSync) then s.modThread (tid l) (fun th => { th with heldWait := none }) else stop s l
    let s' := (broken q.hsync).foldl stop ((broken q.sync).foldl leave s)
    s'.modSquad t.cell t.squad (fun q =>
      { q with sync := if isBroken q.sync then none else q.sync, hsync := if isBroken q.hsync then none else q.hsync })

/-- Whether a squad's next strict cell-scope atomic has its turn (R229): those below have performed theirs, those above all before
(DEDUCED, log entry 39). -/
def turnReady (c : Cell) (i : Nat) : Bool :=
  let n := ((c.squads[i]?).map (·.turns)).getD 0
  ((List.range c.squads.length).zip c.squads).all (fun x =>
    x.1 = i || x.2.handler.isSome || x.2.state = .retired || decide (x.2.turns ≥ (if x.1 < i then n + 1 else n)))

/-- Threads whose squad's turn has come become READY and issue the atomic again (R229). -/
def wakeTurns (s : State) (cell : Nat) : State :=
  match s.cell? cell with
  | none => s
  | some c =>
    s.modCell cell (fun x => { x with squads := ((List.range x.squads.length).zip x.squads).map (fun y =>
      if turnReady c y.1 then
        { y.2 with threads := y.2.threads.map (fun th => th.endWait (· = .turn) false false s.clk) }
      else y.2) })

/-- A lane that a peer held in its squad's turn has been answered (R229): with the last of that issue the turn is counted, if a lane has
performed the atomic. -/
def settleTurn (s : State) (t : Tid) (performed : Bool) : State :=
  match (s.squad? t.cell t.squad).bind (fun q => q.turnAt.map (fun x => (q, x))), s.thread? t with
  | some (q, issue, before), some th =>
    if th.waitAt ≠ issue then s
    else
      let done := before || performed
      if q.issueOpen issue then s.modSquad t.cell t.squad (fun q => { q with turnAt := some (issue, done) })
      else
        let s := s.modSquad t.cell t.squad (fun q => { q with turnAt := none, turns := if done then q.turns + 1 else q.turns })
        if done then wakeTurns s t.cell else s
  | _, _ => s

/-- An exit of a thread (R119): its queue entries are discarded and counted by context, its monitor freed, its scoreboard empty (R73, R338), its
place in a slot's waiter map given up (R351, R373), its syncs settled; a handler's request without a reply gives its credit back (R421). -/
def exitThread (s : State) (t : Tid) : State :=
  match s.squad? t.cell t.squad, s.thread? t with
  | some q, some th =>
    let drops (ctx : Nat) : Nat :=
      ((List.range 16).map (fun i => if q.bind.getD i 0 = ctx then (th.queues.getD i []).length else 0)).sum
    let s := s.modCell t.cell (fun c =>
      { c with xps := (List.range c.xps.length).zip c.xps |>.map (fun x => { x.2 with qdisc := x.2.qdisc + drops (x.1 + 1) }) })
    let s := s.modThread t (fun th =>
      { th with state := .exited, wait := none, heldWait := none, queues := List.replicate 16 [], mon := none, board := [] })
    let s := s.modCell t.cell (fun c => { c with slots := c.slots.map (fun (x : Slot) => { x with waitmap := x.waitmap.filter (· ≠ tixOf t) }) })
    let s := syncExit s t
    let s := match th.msg with
      | some m => if m.isReply || m.replied then s else returnCredit s m.srcRank
      | none => s
    let s := s.modSquad t.cell t.squad (fun q =>
      { q with state := if q.threads.all (fun th => th.state = .exited) then .retired else q.state })
    wakeTurns s t.cell
  | _, _ => s

/-- Flags join csr.fflags (R41). -/
def orFlags (s : State) (t : Tid) (f : Flags) : State :=
  if f = 0 then s else s.modSquad t.cell t.squad (fun q => { q with fflags := q.fflags ||| f })

/-- The lanes of a thread's squad among some threads. -/
def squadLanes (t : Tid) (ts : List Tid) : BitVec 32 :=
  (ts.filter (fun u => u.cell = t.cell && u.squad = t.squad)).foldl (fun m u => m ||| (1#32 <<< u.lane)) 0

/-- A thread with one value in each of its operand queues that is empty. -/
def Thread.fillQueues (th : Thread) (x : Word) : Thread := { th with queues := th.queues.map (fun l => if l.isEmpty then [x] else l) }

/-- What an instruction of a thread with an orphaned queue meets of a lower code than QUEUE_ORPHAN (R74, R358): a cause that it raises whatever
the empty registers would have given (DEDUCED, log entry 124). -/
def causeBefore (sp : Spec) (r : Rd) (s : State) : Option (Cause × Option Dword × Nat × Dword) :=
  let probe (x : Word) : Option (Cause × Option Dword × Nat × Dword) := match sp.sem { r with th := r.th.fillQueues x } s with
    | .cause k a i p => if k.code < Cause.queueOrphan.code then some (k, a, i, p) else none
    | _ => none
  if probe 0 = probe 0xFFFFFFFF then probe 0 else none

/-- A read of an orphaned queue stops its thread (R358), or a cause of lower code does (R74). -/
def raiseOrphan (sp : Spec) (r : Rd) (s : State) (o : Nat × Nat × Nat) : State :=
  match causeBefore sp r s with
  | some (k, a, i, p) => raise s r.t k (a.getD (r.th.pc.setWidth 64)) i p
  | none => raisePc s r.t .queueOrphan (o.1 + 256 * o.2.1 + 65536 * o.2.2)

/-- One thread whose guard holds performs its instruction and goes on (DESIGN CHOICE, log entry 13). The enables that its flags meet are
csr.fptrap as it stands, whatever step of the squad's the thread has passed (R41, R114) (DESIGN CHOICE, log entry 125)
(DESIGN CHOICE, log entry 13). -/
def laneStep (sp : Spec) (s0 : State) (act all : List Tid) (s : State) (t : Tid) : State :=
  match s0.cell? t.cell, s0.squad? t.cell t.squad, s0.thread? t with
  | some c, some q, some th =>
    let f := sp.form
    let nextPc := th.pc + word f.len
    let pops := popsOf q (f.reads ++ sp.xr)
    let r : Rd := ⟨s0, t, th, q, c, f.lit, act, all, pops⟩
    let long := f.extended && longLatency f.opx
    let s := s.modThread t (Thread.noteNext nextPc)
    match orphanOf c q th pops with
    | some o => raiseOrphan sp r s o
    | none =>
      if emptyPop th pops then s.modThread t (fun x => x.wantQueues (pops.filter (fun n => (th.queues.getD (n - 176) []).isEmpty)))
      else
        match sp.sem r s with
        | .stall s' => stallFor s' t
        | .cause k (some addr) info pr => raise (dropAsks s (.thread t)) t k addr info pr
        | .cause k none info pr => raise (dropAsks s (.thread t)) t k (th.pc.setWidth 64) info pr
        | .causeIn s' k a info pr => raise (dropAsks s' (.thread t)) t k (a.getD (th.pc.setWidth 64)) info pr
        | .ok s' w go aw =>
          let trap := w.flags &&& q.fptrap
          if trap ≠ 0 then raisePc (orFlags (dropAsks s (.thread t)) t w.flags) t .fpExc trap.toNat
          else
            let s' := orFlags (dropAsks s' (.thread t)) t w.flags
            let taint := r.tainted f
            let taken : List Nat := match go with
              | .hold _ => []
              | .wait w => if w.owed.isEmpty then pops else []
              | _ => pops
            let s' := s'.modThread t (fun th => th.perform w taint taken (boardEntry long (f.writes ++ sp.xw) f.la aw))
            match go with
            | .hold w => s'.modThread t (fun th => { th with state := .stalled, wait := some w, waitAt := s.issued, waitLanes := squadLanes t all ++ squadLanes t act })
            | .next => s'.modThread t (fun th => th.goTo nextPc s.clk)
            | .jump pc => s'.modThread t (fun th => th.goTo pc s.clk)
            | .wait w => s'.modThread t (fun th => { th with state := .waiting, wait := some w, waitAt := s.issued })
            | .yielded => s'.modThread t (fun th => { th with pc := nextPc, state := .yielded, wait := none })
            | .exit => exitThread s' t
  | _, _, _ => s

/-- A thread whose guard is false counts the instruction and goes on (R65, R72). -/
def skipStep (f : Form) (s : State) (t : Tid) : State :=
  s.modThread t (fun th => (th.countIssue).goTo (th.pc + word f.len) s.clk)

/-- The cells a bundle's squads belong to share one cell (R333); the threads it issues to, by lane. -/
def byLane (ts : List Tid) : List Tid := (List.range 32).filterMap (fun l => ts.find? (fun t => t.lane == l))

/-- The program counter of a thread. -/
def pcOf (s : State) (t : Tid) : Word := ((s.thread? t).map (·.pc)).getD 0

/-- Whether a peer still owes an answer to a thread of a cell that stands at an instruction. -/
def askedAt (s : State) (cell : Nat) (pc : Word) : Bool :=
  s.asks.any (fun q => q.answer.isNone && (match q.who with
    | .thread u => u.cell = cell && pcOf s u = pc
    | _ => false))

/-- Whether a thread can be issued where it stands: present, READY, or STALLED with its instruction to be tried again, its squad not
stopping, in a running cell, and the record of its squad's delivery performed (R364). One that has asked a peer goes on with its instruction also while its squad stops, once the peer has answered
every thread of its cell that has asked there, so that the accesses of one bundle are made in one issue (R217, R347) (DEDUCED, log entry 126). -/
def canIssue (s : State) (t : Tid) : Bool :=
  match s.cell? t.cell, s.squad? t.cell t.squad, s.thread? t with
  | some c, some q, some th =>
    c.resident && ctxLive s c.ctx && q.state = .active && (th.state = .ready || th.triesAgain)
      && !s.devWrites.any (fun w => w.hold = some (t.cell, t.squad))
      && (if th.wait = some .ask then !askedAt s t.cell th.pc else q.trap ≠ .stopping)
  | _, _, _ => false

/-- What the threads of one bundle have in common beside the vat's key (R333): the core, and the program they run. -/
def programOf (s : State) (t : Tid) : Option (Nat × Nat × Dword × Bool) := (s.cell? t.cell).map (fun c => (c.core, c.ctx, c.code, c.strict))

/-- The partition of a thread's squad. -/
def partitionOf (s : State) (t : Tid) : Nat := ((s.squad? t.cell t.squad).map (·.partition)).getD 0

/-- The threads of a list that form one bundle (R333): issuable, of the core, partition, program counter and program of the first
(DESIGN CHOICE, log entry 31). -/
def formBundle (s : State) (ts : List Tid) : List Tid :=
  match ts.filter (canIssue s) with
  | [] => []
  | t0 :: rest =>
    byLane ((t0 :: rest).filter (fun t =>
      programOf s t = programOf s t0 && partitionOf s t = partitionOf s t0 && pcOf s t = pcOf s t0))

/-- DET_VIOLATION of a strict kernel's collective bundle, by its subcode: a lane named by a pattern, or by VOTE any lane, whose
thread has not exited and is not in the bundle gives 1, and a cell-scope atomic's missing lane 2 (R71, R109, R229) (DEDUCED, log entry 40).
A thread at the vat's entry is not missing (R334): the bundle is held back for it (DEDUCED, log entry 40) (DESIGN CHOICE, log entry 132). -/
def detMissing (f : Form) (q : Squad) (bundle : List Tid) : Option Nat :=
  let inBundle (l : Nat) : Bool := bundle.any (fun t => t.lane == l)
  let live (l : Nat) : Bool := match q.threads[l]? with
    | some th => th.state ≠ .exited
    | none => false
  let missing (l : Nat) : Bool := live l && !inBundle l
  let on := bundle.filter (fun t => ((q.threads[t.lane]?).map (fun th => guardHolds f.guard th)).getD false)
  if (f.extended && (f.opx = 0x1D || f.opx = 0xC4 || f.opx = 0xC5) && (List.range 32).any missing)
      || on.any (fun t => f.crossReads.any (fun y => match laneOf y.1.pat.toNat y.1.par.toNat t.lane with
        | some l => missing l
        | none => false)) then some 1
  else if f.extended && (f.opx = 0x8A || f.opx = 0x8C || f.opx = 0x8D) && (match f with
      | .mem op m => collectiveOp op true (some m)
      | _ => false) && (List.range 32).any missing then some 2
  else none

/-- A fault of a unit that checks a result by its residue, which the outside world inflicts: the instruction is replayed, and fails or
passes (R95) (DESIGN CHOICE, log entry 73). -/
def takeUpset (s : State) : Option (Bool × State) :=
  match s.upsets with
  | .residue ok :: r => some (ok, { s with upsets := r })
  | _ => none

/-- The residue that a lane word, a sample of a packet or half of a k register carries (R94): its value's, but for an error in it. -/
def Thread.residue (th : Thread) (n : Nat) : Nat :=
  ((th.v.getD n 0).toNat + ((th.vres.find? (fun x => x.1 = n)).map (·.2)).getD 0) % 3
def Thread.sampleResidue (th : Thread) (i : Nat) : Nat :=
  (((th.w.getD (i / 8) zeroPacket).getD (i % 8) 0).toNat + ((th.wres.find? (fun x => x.1 = i)).map (·.2)).getD 0) % 3
def halfOf (k : List Dword) (i : Nat) : Word := if i % 2 = 0 then lo32 (k.getD (i / 2) 0) else hi32 (k.getD (i / 2) 0)
def Squad.residue (q : Squad) (i : Nat) : Nat := ((halfOf q.k i).toNat + ((q.kres.find? (fun x => x.1 = i)).map (·.2)).getD 0) % 3

/-- Whether the checks of a unit that reads a register find its residue or parity as its value gives it (R94, R461). -/
def regSound (q : Squad) (th : Thread) (r : Reg) : Bool :=
  match r with
  | .v n => th.residue n = (th.v.getD n 0).toNat % 3
  | .w n => (List.range 8).all (fun j => th.sampleResidue (8 * n + j) = ((th.w.getD n zeroPacket).getD j 0).toNat % 3)
  | .k n => [2 * n, 2 * n + 1].all (fun i => q.residue i = (halfOf q.k i).toNat % 3)
  | .p _ => !th.ppar

/-- The value of a source operand modulo 3 and the error of the residues that it carries (R94). -/
def operandResidue (f : Form) (q : Squad) (th : Thread) (t : Tid) (wide : Bool) (y : Src) : Nat × Nat :=
  let n := y.code.toNat
  let words : List Nat := if wide then [0, 1] else [0]
  if isV y.code then
    match if y.pat = 0 then some th else (laneOf y.pat.toNat y.par.toNat t.lane).bind (fun l => q.threads[l]?) with
    | some o => ((words.map (fun i => (readVReg q o (n + i)).toNat)).sum % 3,
        (words.map (fun i => if q.bound (n + i) = 0 then ((o.vres.find? (fun x => x.1 = n + i)).map (·.2)).getD 0 else 0)).sum % 3)
    | none => (0, 0)
  else if isK y.code then
    let k := n - 0xC0
    ((words.map (fun i => (halfOf [readK q th k] i).toNat)).sum % 3,
      (words.map (fun i => ((q.kres.find? (fun x => x.1 = 2 * k + i)).map (·.2)).getD 0)).sum % 3)
  else if y.code = cLane then (t.lane % 3, 0)
  else if y.code = cTix then (tixOf t % 3, 0)
  else if y.code = cLit then ((words.map (fun i => (halfOf [f.lit.getD 0] i).toNat)).sum % 3, 0)
  else (0, 0)

/-- The integer sums and products, whose units predict the residue of the result from those of the operands (R94), with their width and the
operation on residues. -/
def Form.predicts (f : Form) : Option (Bool × (Nat → Nat → Nat → Nat)) :=
  let op (n : Nat) : Option (Nat → Nat → Nat → Nat) :=
    match n with
    | 0x00 => some (fun a b _ => a + b)
    | 0x01 => some (fun a b _ => a + 2 * b)
    | 0x02 => some (fun a b _ => a * b)
    | 0x04 => some (fun a b c => a * b + c)
    | _ => none
  match f with
  | .ext n g => (op n).map (fun x => (tb g.fn.toNat 0, x))
  | .base2 n g => if 2 ≤ n then (op (n - 2)).map (fun x => (isK g.d, x)) else none
  | .baseLit n g => if 2 ≤ n then (op (n - 2)).map (fun x => (isK g.d, x)) else none
  | .imm8 n g => if n = 0x1B then some (isK g.d, fun a b _ => a + b) else none
  | _ => none

/-- Whether the residue that a sum's or product's unit predicts is that of the result which it forms (R94): errors of the operands that cancel
in the prediction pass. -/
def predictionHolds (f : Form) (q : Squad) (th : Thread) (t : Tid) (wide : Bool) (op : Nat → Nat → Nat → Nat) : Bool :=
  let x := f.srcs
  let b : Src := match f with
    | .baseLit _ _ => src cLit
    | .imm8 _ _ => src cLit
    | _ => x.2.2.1
  let r (y : Src) : Nat × Nat := operandResidue f q th t wide y
  op ((r x.2.1).1 + (r x.2.1).2) ((r b).1 + (r b).2) ((r x.2.2.2).1 + (r x.2.2.2).2) % 3
    = op (r x.2.1).1 (r b).1 (r x.2.2.2).1 % 3

/-- Whether every register that an instruction reads in a thread is sound, read from the thread itself or through a pattern; a sum's or
product's operands need only give the result's residue (R94). -/
def readsSound (f : Form) (xr xall : List Reg) (q : Squad) (th : Thread) (t : Tid) : Bool :=
  let guardSet : List Reg := if f.guard.p = 0 then [] else [Reg.p f.guard.p.toNat]
  if !guardHolds f.guard th then guardSet.all (regSound q th)
  else
    match f.predicts with
    | some (wide, op) => guardSet.all (regSound q th) && predictionHolds f q th t wide op
    | none =>
      (f.reads ++ xr).all (regSound q th)
        && f.crossReads.all (fun y => match (laneOf y.1.pat.toNat y.1.par.toNat t.lane).bind (fun l => q.threads[l]?) with
          | some o => y.2.all (regSound q o)
          | none => true)
        && q.threads.all (fun o => xall.all (regSound q o))

/-- The progress word of a memory or texture instruction's records (R365): the lanes of the squad that performed it and those
of the squad in the bundle (DEDUCED, log entry 32). -/
def patchProgress (s : State) (issue : Nat) (bundle performed : List Tid) (sq : Tid) : State :=
  s.modSquad sq.cell sq.squad (fun q =>
    { q with collected := q.collected.map (fun r =>
        if r.issue = issue then { r with progress := dword ((squadLanes sq performed).toNat + 2 ^ 32 * (squadLanes sq bundle).toNat) } else r) })

/-- A thread that an issue left held for a peer notes lanes of its bundle. -/
def Thread.noteLanes (th : Thread) (lanes : Dword) : Thread :=
  if th.heldPeer then { th with waitLanes := lanes } else th

/-- The threads of a squad that an issue left held for a peer know which lanes went on or were held with them (R365). -/
def noteHeld (s : State) (bundle act : List Tid) (sq : Tid) : State :=
  let goes (t : Tid) : Bool := match s.thread? t with
    | some th => th.mark ≠ .cause && !th.triesAgain
    | none => false
  let lanes := squadLanes sq bundle ++ squadLanes sq (act.filter goes)
  (act.filter (fun t => t.cell = sq.cell && t.squad = sq.squad)).foldl (fun s t => s.modThread t (fun th => th.noteLanes lanes)) s

/-- The squads of a bundle, each by its first thread's identity. -/
def squadsOf (ts : List Tid) : List Tid := dedup (ts.map (fun t => ⟨t.cell, t.squad, 0⟩))

/-- Instructions whose stop records count lanes: memory, texture and the table instructions (R347, R365). -/
def countsLanes (f : Form) : Bool :=
  f.extended && ((0x80 ≤ f.opx && f.opx ≤ 0x90) || f.opx = 0xAC || (0xB4 ≤ f.opx && f.opx ≤ 0xB7))

/-- The progress word of an instruction that performs nothing (R187, R365): the bundle's lanes, or the record's offset of TRACE and TRCONT in the
lowest of them. -/
def idleProgress (s : State) (f : Form) (sq : Tid) (lanes : BitVec 32) : Dword :=
  let t : Tid := ⟨sq.cell, sq.squad, lowestLane lanes⟩
  if countsLanes f then dword (2 ^ 32 * lanes.toNat)
  else if f.extended && (f.opx = 0xB8 || f.opx = 0xB9) then
    match s.cell? t.cell, s.squad? t.cell t.squad, s.thread? t with
    | some c, some q, some th => (Rd.x32 ⟨s, t, th, q, c, f.lit, [], [], []⟩ f.srcs.2.1).setWidth 64
    | _, _, _ => 0
  else 0

/-- A replay that fails too (R95): nothing is written, and MACHINE_CHECK stops each squad of the bundle. -/
def failReplay (s : State) (f : Form) (bundle : List Tid) (pc : Word) : State :=
  (squadsOf bundle).foldl (fun s sq =>
    let lanes := squadLanes sq bundle
    machineCheck s sq.cell sq.squad lanes pc 1 (idleProgress s f sq lanes)) s

/-- A replay that passes (R95): the core's count and the corrected record, which names the context (R368); the instruction completes. -/
def passReplay (s : State) (t : Tid) : State := report s (coreOf s t.cell) 1 (((s.cell? t.cell).map (·.ctx)).getD 0)

/-- New uniform tags of a squad (R91): after all 32 threads wrote, from sources uniform by their form or tag, by an instruction that gives
every lane what its sources give; a write of fewer lanes expands the register, and with none nothing changes (DESIGN CHOICE, log entry 84). -/
def retag (f : Form) (xw : List Reg) (q : Squad) (performed : Nat) : Squad :=
  let u := fieldsOf f
  let x := f.srcs
  let uniSrc (m : FK) (y : Src) : Bool :=
    (m = .none || isV y.code || isK y.code || y.code = cZ || y.code = cLit) && !(m = .p || m = .tile || m = .panel)
      && (m.regs y.code).all (fun g => match g with
        | .v n => y.pat = 0 && q.tags.getD n false && q.bound n = 0
        | .k _ => true
        | _ => false)
  let uni := performed = 32 && f.opx < 0x70 && (!f.keepsD || uniSrc u.d (src x.1)) && uniSrc u.a x.2.1 && uniSrc u.b x.2.2.1 && uniSrc u.c x.2.2.2
  if performed = 0 then q
  else
    { q with tags := (f.writes ++ xw).foldl (fun l g => match g with
        | .v n => l.set n uni
        | _ => l) q.tags }

/-- A thread's standing at issue: the cause it stops on, a stall, its guard false, or to perform. -/
inductive Standing where
  | cause (c : Cause) (info : Nat)
  | stall
  | reply
  | off
  | on
  deriving DecidableEq, Repr

def standing (sp : Spec) (s : State) (t : Tid) : Standing :=
  match s.cell? t.cell, s.squad? t.cell t.squad, s.thread? t with
  | some c, some q, some th =>
    let f := sp.form
    let long := f.extended && longLatency f.opx
    let hz := hazardOf f sp.xr sp.xw sp.xall long q th t.lane
    let dc := decodeCause f (sp.extra s t) c q th
    match dc with
    | some k => if k ≠ .illegalInstr && hz = .violation then .cause .lookaheadViolation 0 else .cause k (decodeInfo f c k)
    | none =>
      match hz with
      | .violation => .cause .lookaheadViolation 0
      | .stall => .stall
      | .reply => .reply
      | .free => if guardHolds f.guard th then .on else .off
  | _, _, _ => .stall

/-- A decode cause of a tile or bank gives way to a cause of lower code that the instruction meets as well (R74, R208): a lane missing
from a strict bundle, an orphaned queue, or what its own checks find. -/
def raiseDecode (sp : Spec) (s0 : State) (act all : List Tid) (det : Option Nat) (s : State) (t : Tid) (k : Cause) (info : Nat) : State :=
  match k, s0.cell? t.cell, s0.squad? t.cell t.squad, s0.thread? t with
  | .matrixState, some c, some q, some th =>
    match det with
    | some n => raisePc s t .detViolation n
    | none =>
      if guardHolds sp.form.guard th then
        match orphanOf c q th (popsOf q (sp.form.reads ++ sp.xr)) with
        | some o => raiseOrphan sp ⟨s0, t, th, q, c, sp.form.lit, act, all, []⟩ s o
        | none =>
          match sp.sem ⟨s0, t, th, q, c, sp.form.lit, act, all, []⟩ s0 with
          | .cause k' a i p => if k'.code < k.code then raise s t k' (a.getD (th.pc.setWidth 64)) i p else raisePc s t k info
          | _ => raisePc s t k info
      else raisePc s t k info
  | _, _, _, _ => raisePc s t k info

/-- A register or unit that fails its decode check in one thread fails it for every thread of the bundle that reaches the instruction
(R61, R74): each stops on the lowest such cause of the bundle, unless a cause of lower code stops it (DEDUCED, log entry 115). -/
def spreadCause (st : List (Tid × Standing)) : List (Tid × Standing) :=
  let code (x : Standing) : Nat := match x with
    | .cause k _ => k.code
    | _ => 0
  let spreads (x : Standing) : Bool := match x with
    | .cause .operandNamespace _ => true
    | .cause .matrixState _ => true
    | _ => false
  let least (x : Standing) : Bool := spreads x && st.all (fun y => !(spreads y.2) || decide (code x ≤ code y.2))
  match st.find? (fun x => least x.2) with
  | none => st
  | some b => st.map (fun x => match x.2 with
    | .on => (x.1, b.2)
    | .off => (x.1, b.2)
    | .cause k i => (x.1, if code b.2 < k.code then b.2 else .cause k i)
    | y => (x.1, y))

/-- The state in which a thread would wait to issue the instruction again, when it would. -/
def stallOf (sp : Spec) (s : State) (act all : List Tid) (t : Tid) : Option State :=
  match s.cell? t.cell, s.squad? t.cell t.squad, s.thread? t with
  | some c, some q, some th =>
    let pops := popsOf q (sp.form.reads ++ sp.xr)
    match orphanOf c q th pops with
    | some _ => none
    | none =>
      if emptyPop th pops then some s
      else match sp.sem ⟨s, t, th, q, c, sp.form.lit, act, all, pops⟩ s with
        | .stall s' => some s'
        | _ => none
  | _, _, _ => none

/-- Whether an instruction takes its squad's turn in a strict kernel (R229). -/
def Form.takesTurn (f : Form) (strict : Bool) : Bool :=
  f.extended && (f.opx = 0x8A || f.opx = 0x8C || f.opx = 0x8D) && (match f with
    | .mem op m => strict && collectiveOp op true (some m) && !(op = 0x8A && m.fn = 9)
    | _ => false)

/-- A thread that waits for its squad's turn. -/
def Thread.waitTurn (th : Thread) : Thread :=
  if th.state = .ready || th.state = .stalled then { th with state := .waiting, wait := some .turn } else th

/-- Whether a strict collective bundle is to wait for a thread of its squad that stands at the same entry of the vat: one that joined it after
the snapshot, or that waits there for the reply which it reads (R235, R334). -/
def entryHeld (s : State) (bundle : List Tid) (t0 : Tid) : Bool :=
  match s.squad? t0.cell t0.squad with
  | some q => q.threads.any (fun th =>
      (th.state = .ready || th.state = .stalled || th.wait = some .reply) && th.pc = pcOf s t0 && !(bundle.any (fun t => t.lane == th.lane)))
  | none => false

/-- A thread that a strict collective bundle holds back stays STALLED, on its empty queue registers where it has any (R89, R334, R358). -/
def holdBack (sp : Spec) (s0 s : State) (t : Tid) : State :=
  match s0.squad? t.cell t.squad, s0.thread? t with
  | some q, some th =>
    let empty := (popsOf q (sp.form.reads ++ sp.xr)).filter (fun n => (th.queues.getD (n - 176) []).isEmpty)
    s.modThread t (if empty.isEmpty then Thread.stallAt else (fun x => x.wantQueues empty))
  | _, _ => s

/-- Issues an instruction to the threads of a bundle that passed the checks of the register files (R333–R338); in strict mode a collective
one waits until every thread of its squad at the entry can issue (R334). A thread that a LOOKAHEAD_VIOLATION stops takes no part in what the
others do together, a vote included (R74, R109) (DESIGN CHOICE, log entry 127). -/
def issueChecked (sp : Spec) (s : State) (bundle : List Tid) (t0 : Tid) (strict coll : Bool) : State :=
  let f := sp.form
  let st := spreadCause (bundle.map (fun t => (t, standing sp s t)))
  let act := (st.filter (fun x => x.2 = .on)).map (·.1)
  let waits : Option State := if strict && coll then act.findSome? (stallOf sp s act bundle) else none
  let held : Bool := strict && coll && (waits.isSome || st.any (fun x => x.2 = .stall || x.2 = .reply) || entryHeld s bundle t0)
  let det : Option Nat := if strict && coll && !held then (s.squad? t0.cell t0.squad).bind (fun q => detMissing f q bundle) else none
  let turn : Bool := f.takesTurn strict && !held && det.isNone
  let own : Bool := match s.squad? t0.cell t0.squad with
    | some q => q.handler.isNone
    | none => false
  let early : Bool := turn && own && !(match s.cell? t0.cell with
    | some c => turnReady c t0.squad
    | none => true)
  let one (s' : State) (x : Tid × Standing) : State :=
    match x.2 with
    | .cause k info => raiseDecode sp s act bundle det s' x.1 k info
    | .stall => s'.modThread x.1 Thread.stallAt
    | .reply => s'.modThread x.1 Thread.waitReply
    | .off =>
      if held then s'.modThread x.1 Thread.stallAt
      else match det with
        | some n => raisePc s' x.1 .detViolation n
        | none => if early then s'.modThread x.1 Thread.waitTurn else skipStep f s' x.1
    | .on =>
      if held then holdBack sp s s' x.1
      else match det with
        | some n => raisePc s' x.1 .detViolation n
        | none => if early then s'.modThread x.1 Thread.waitTurn else laneStep sp s act bundle s' x.1
  let s' := st.foldl one (waits.getD s)
  let stays (t : Tid) : Bool := match s'.thread? t with
    | some th => th.mark = .cause || th.state = .stalled || th.wait = some .turn
    | none => false
  let done := act.filter (fun t => !stays t)
  let s' :=
    if !(turn && own && !early) then s'
    else if act.any (fun t => (s'.thread? t).any Thread.heldPeer) then
      s'.modSquad t0.cell t0.squad (fun q => { q with turnAt := some (s.issued, !done.isEmpty) })
    else if act.isEmpty || !done.isEmpty then wakeTurns (s'.modSquad t0.cell t0.squad (fun q => { q with turns := q.turns + 1 })) t0.cell
    else s'
  let sqs := squadsOf bundle
  let s' := if countsLanes f then sqs.foldl (fun s'' sq => patchProgress (noteHeld s'' bundle act sq) s.issued bundle done sq) s' else s'
  let s' := sqs.foldl (fun s'' sq => s''.modSquad sq.cell sq.squad (fun q =>
    retag f sp.xw q ((done.filter (fun t => t.cell = sq.cell && t.squad = sq.squad)).length))) s'
  (dedup (sqs.map (·.cell))).foldl settleNested s'

/-- Issues an instruction to the threads of a bundle (R333–R338): its operands' residues are checked, and a failing check has it replayed
(R94, R95). -/
def issueLanes (sp : Spec) (s : State) (ts : List Tid) : State :=
  let f := sp.form
  match formBundle s ts with
  | [] => s
  | t0 :: rest =>
    let strict := ((s.cell? t0.cell).map (·.strict)).getD false
    let coll := f.collective strict
    let bundle := if coll then (t0 :: rest).filter (fun t => t.cell = t0.cell && t.squad = t0.squad) else t0 :: rest
    let s := { s with issued := s.issued + 1, free := s.free + 1 }
    let sound (t : Tid) : Bool := match s.squad? t.cell t.squad, s.thread? t with
      | some q, some th => (standing sp s t ≠ .on && standing sp s t ≠ .off) || readsSound f sp.xr sp.xall q th t
      | _, _ => true
    match takeUpset s with
    | some (false, s) => failReplay s f bundle (pcOf s t0)
    | some (true, s) => if bundle.all sound then issueChecked sp (passReplay s t0) bundle t0 strict coll else failReplay s f bundle (pcOf s t0)
    | none => if bundle.all sound then issueChecked sp s bundle t0 strict coll else failReplay s f bundle (pcOf s t0)

/-! ## Uniform steps (R113–R115, R335) -/

/-- The least uniform-step count among the squad's threads that have not exited (R335). -/
def uMin (q : Squad) : Nat :=
  ((q.threads.filter (fun th => th.state ≠ .exited)).map (·.ustep)).foldl (fun (b : Option Nat) n => match b with
    | none => some n
    | some m => some (min m n)) none |>.getD q.ustep

/-- A step is passed by the thread that executed it: the k registers written, the ring slot with the values replaced, and both
counts (R113, R114, R335). -/
def passStep (s : State) (t : Tid) (ks : List (Nat × Dword)) (oldCsr : Option (Nat × Dword)) : State :=
  match s.squad? t.cell t.squad with
  | none => s
  | some q =>
    let entry : UStep := ⟨q.ustep + 1, pcOf s t, ks.map (fun x => (x.1, q.k.getD x.1 0)), oldCsr⟩
    let s := s.modSquad t.cell t.squad (fun q =>
      { q with k := ks.foldl (fun l x => l.set x.1 x.2) q.k, ustep := q.ustep + 1,
               kres := fixResidues q.kres (ks.flatMap (fun x => [2 * x.1, 2 * x.1 + 1])),
               ring := (q.ring ++ [entry]).drop ((q.ring.length + 1) - 8) })
    s.modThread t (fun th => { th with ustep := q.ustep + 1 })

/-- A step whose remote load is outstanding: no thread executes it until the answer has come (R221). -/
def stepOutstanding (q : Squad) : Bool :=
  q.threads.any (fun th => th.ustep = q.ustep && (match th.wait with
    | some (.remote _) => th.board.any (fun o => o.writes.any (fun w => match w with
      | .k _ => true
      | _ => false) && o.pending)
    | _ => false))

/-- A leader executes the step: its result, the ring slot and both counts (R335). `csr` is the register it replaced, by number. -/
def leaderStep (sp : Spec) (oldCsr : Squad → Option (Nat × Dword)) (s : State) (t : Tid) : State :=
  match s.cell? t.cell, s.squad? t.cell t.squad, s.thread? t with
  | some c, some q, some th =>
    let f := sp.form
    let r : Rd := ⟨s, t, th, q, c, f.lit, [t], [t], []⟩
    let nextPc := th.pc + word f.len
    let long := f.extended && longLatency f.opx
    let s1 := s.modThread t (Thread.noteNext nextPc)
    match sp.sem r s1 with
    | .stall s' => stallFor s' t
    | .cause k a info pr => raise (dropAsks s1 (.thread t)) t k (a.getD (th.pc.setWidth 64)) info pr
    | .causeIn s' k a info pr => raise (dropAsks s' (.thread t)) t k (a.getD (th.pc.setWidth 64)) info pr
    | .ok s' w go aw =>
      let trap := w.flags &&& q.fptrap
      if trap ≠ 0 then raisePc (orFlags (dropAsks s1 (.thread t)) t w.flags) t .fpExc trap.toNat
      else
        let s' := orFlags (dropAsks s' (.thread t)) t w.flags
        let kreg := f.writes ++ sp.xw
        let entry := boardEntry long kreg f.la aw
        match go with
        | .hold w => s'.modThread t (fun th => { th.countIssue with
            board := th.countIssue.board ++ entry, state := .stalled, wait := some w, waitAt := s.issued, waitLanes := squadLanes t [t] ++ squadLanes t [t] })
        | _ => (passStep s' t w.k (oldCsr q)).modThread t (fun th =>
            { (th.countIssue).goTo nextPc s.clk with board := th.countIssue.board ++ entry })
  | _, _, _ => s

/-- Whether a thread stands at the step that the ring has next for it (R335). -/
def atItsStep (q : Squad) (th : Thread) : Bool := q.ring.any (fun e => e.num = th.ustep + 1 && e.pc = th.pc)

/-- A later thread skips the step (R113, R335): it takes no fault, and waits only for a result whose window is over (R72). -/
def skipUniform (sp : Spec) (s : State) (t : Tid) (th : Thread) : State :=
  if th.board.any (fun o => o.window = 0 && o.pending) then s.modThread t Thread.stallAt
  else s.modThread t (fun th => { (th.countIssue).goTo (th.pc + word sp.form.len) s.clk with ustep := th.ustep + 1 })

/-- UNIFORM_DIVERGE, unless the instruction's standing gives a cause of lower code or has the thread wait (R74, R335). -/
def diverge (s : State) (t : Tid) (x : Standing) : State :=
  match x with
  | .cause k info => if k.code < Cause.uniformDiverge.code then raisePc s t k info else raisePc s t .uniformDiverge 0
  | .stall => s.modThread t Thread.stallAt
  | .reply => s.modThread t Thread.waitReply
  | _ => raisePc s t .uniformDiverge 0

/-- One thread at a uniform instruction: leader, stalled leader, laggard that skips, or UNIFORM_DIVERGE (R335). -/
def uniformStep (sp : Spec) (oldCsr : Squad → Option (Nat × Dword)) (s : State) (t : Tid) : State :=
  match s.squad? t.cell t.squad, s.thread? t with
  | some q, some th =>
    if q.trap = .stopping && th.state ≠ .ready && th.wait ≠ some .ask then s
    else if th.ustep = q.ustep then
      match standing sp s t with
      | .cause k info => raisePc s t k info
      | .stall => s.modThread t Thread.stallAt
      | .reply => s.modThread t Thread.waitReply
      | _ => if q.ustep - uMin q < 8 && !stepOutstanding q then leaderStep sp oldCsr s t else s.modThread t Thread.stallAt
    else if atItsStep q th then skipUniform sp s t th
    else diverge s t (standing sp s t)
  | _, _ => s

/-- Whether a leader of the bundle has stopped on a cause in executing the step; `s0` is the state before the issue. No other
leader then executes it, and csr.tmask holds the executing thread's lane alone (R113, R115) (DEDUCED, log entry 91). A leader that a
LOOKAHEAD_VIOLATION of its own stops has not executed it, so another leader still does (R74) (DESIGN CHOICE, log entry 127) (DEDUCED, log entry 91). -/
def stepFailed (sp : Spec) (s0 s : State) (bundle : List Tid) (t : Tid) : Bool :=
  let leads (u : Tid) : Bool := match s.thread? u, s.squad? u.cell u.squad with
    | some th, some q => standing sp s0 u = .on && th.ustep = q.ustep
    | _, _ => false
  leads t && bundle.any (fun u => u.cell = t.cell && u.squad = t.squad && leads u && (match s.thread? u with
    | some th => th.state = .stopped
    | none => false))

/-- Issues a uniform instruction to the threads of a bundle that passed the checks of the register files. -/
def uniformChecked (sp : Spec) (oldCsr : Squad → Option (Nat × Dword)) (s : State) (bundle : List Tid) : State :=
  let s' := bundle.foldl (fun s' t => if stepFailed sp s s' bundle t then s' else uniformStep sp oldCsr s' t) s
  let passed := bundle.filter (fun t => match s.thread? t, s'.thread? t with
    | some a, some b => a.ustep ≠ b.ustep
    | _, _ => false)
  let sqs := squadsOf bundle
  let s' := if countsLanes sp.form then sqs.foldl (fun s'' sq => patchProgress s'' s.issued bundle passed sq) s' else s'
  (dedup (sqs.map (·.cell))).foldl settleNested s'

/-- Whether a thread executes a uniform instruction as its squad's leader (R335). -/
def leads (sp : Spec) (s : State) (t : Tid) : Bool :=
  match s.squad? t.cell t.squad, s.thread? t with
  | some q, some th => th.ustep = q.ustep && standing sp s t = .on
  | _, _ => false

/-- Issues a uniform instruction to the threads of a bundle (R335): its operands' residues are checked where a leader reads them, and a
failing check has it replayed (R94, R95). -/
def issueUniform (sp : Spec) (oldCsr : Squad → Option (Nat × Dword)) (s : State) (ts : List Tid) : State :=
  match formBundle s ts with
  | [] => s
  | t0 :: rest =>
    let bundle := t0 :: rest
    let s := { s with issued := s.issued + 1, free := s.free + 1 }
    let sound (t : Tid) : Bool := match s.squad? t.cell t.squad, s.thread? t with
      | some q, some th => !(leads sp s t) || readsSound sp.form sp.xr sp.xall q th t
      | _, _ => true
    match takeUpset s with
    | some (false, s) => failReplay s sp.form bundle (pcOf s t0)
    | some (true, s) => if bundle.all sound then uniformChecked sp oldCsr (passReplay s t0) bundle else failReplay s sp.form bundle (pcOf s t0)
    | none => if bundle.all sound then uniformChecked sp oldCsr s bundle else failReplay s sp.form bundle (pcOf s t0)

/-- The bundle in execution. -/
def curBundle (s : State) : List Tid :=
  match s.cur with
  | .bundle ts => ts
  | _ => []

/-! ## Prologues (R304, R305, R307) -/

/-- The identity under which a launch processor's prologue asks a peer. -/
def proTid (lp : Nat) : Tid := ⟨0, 0, lp⟩

/-- A thread as cell start leaves it (R87, R329). -/
def Thread.start (lane vregs wregs entry now : Nat) : Thread where
  lane := lane
  state := .ready
  wait := none
  pc := word entry
  npc := word entry
  v := List.replicate vregs 0
  taint := List.replicate vregs false
  p := 0
  w := List.replicate wregs zeroPacket
  vres := []
  wres := []
  ppar := false
  ustep := 0
  board := []
  queues := List.replicate 16 []
  ret := 0
  mark := .none
  inHandler := false
  heldWait := none
  heldDone := none
  mon := none
  walk := none
  wants := []
  liveV := vregs
  liveW := wregs
  savedState := .ready
  readyAt := now
  msg := none
  waitAt := 0
  waitLanes := 0
  release := .start
  traced := none

/-- A squad as cell start leaves it (R87, R98, R329). -/
def Squad.start (partition slot vregs : Nat) (k : List Dword) (threads : List Thread) : Squad where
  state := .active
  partition := partition
  slot := slot
  threads := threads
  k := k
  kres := []
  ustep := 0
  ring := []
  fflags := 0
  fptrap := 0
  tcause := 0
  taddr := 0
  tmask := 0
  tinfo := 0
  lrange := 0x444F800043B40000
  cietab := 0
  trap := .idle
  collected := []
  tqueue := []
  pendXp := 0
  pendXpCode := [0, 0, 0, 0]
  bind := List.replicate 16 0
  sync := none
  hsync := none
  turns := 0
  turnAt := none
  tags := List.replicate vregs true
  handler := none
  parked := false
  wasEvicted := false

/-- What a prologue's instructions read from: no cell and no lane registers, the launch processor's k registers and predicates. -/
def prologueRd (s : State) (lp : Nat) (p : Prologue) (lit : Option Dword) : Rd :=
  let th := { Thread.start 0 0 0 p.pc.toNat 0 with p := p.p }
  let c : Cell := {
    id := 0, ctx := p.ctx, kernel := 0, gang := 0, index := 0, x := 0, y := 0, z := 0, gindex := 0, core := 0xFFFF, place := .core,
    state := .running, shape := ⟨0, 0, 0, 0, 0, false, 0⟩, strict := false, code := p.code, squads := [], scratch := [], slots := [],
    tiles := [], bank := [], tileIssue := [], panelIssue := [], xps := [], xp0code := 0, runs := [], tcopy := [], phase := 0, orphans := 0,
    deadline := 0, preq := false, preqAt := 0, view := [], marks := [] }
  ⟨s, proTid lp, th, Squad.start 0 0 0 p.k [th], c, lit, [], [], []⟩

/-- Whether a read is a prologue's. -/
def Rd.prologue (r : Rd) : Bool := r.c.id = 0

/-- The subset of instructions that a prologue may use (R304) (DEDUCED, log entry 52). -/
def prologueAdmits (f : Form) : Bool :=
  let x := f.srcs
  let u := fieldsOf f
  let plain (m : FK) (y : Src) : Bool := m = .none || m = .p || (y.pat = 0 && !isV y.code && y.code ≠ cLane && y.code ≠ cTix)
  let kd : Bool := f.uniform
  let op := f.opx
  let subset : Bool := op ≤ 0x18 || op = 0x1A || op = 0x1E || (0x21 ≤ op && op ≤ 0x23)
  let csr (n : Nat) : Bool := n = 0x030 || 0x800 ≤ n || [0x033, 0x043, 0x050, 0x051, 0x060, 0x061, 0x062].contains n
  plain u.a x.2.1 && plain u.b x.2.2.1 && plain u.c x.2.2.2 &&
    (match f with
     | .ext _ g =>
       (kd && subset) || op = 0x1B || op = 0x1C || (kd && (op = 0xEC || op = 0xED)) || op = 0xE5
         || (kd && op = 0xEA && csr (g.imm.toNat % 2 ^ 12))
     | .mem _ g => (op = 0x86 && !isV g.d && g.d ≠ cLane && g.d ≠ cTix) || op = 0x87
     | .br _ _ => op = 0xE0
     | .baseBr _ _ => op = 0x3C
     | .baseNone _ => op = 0x3F
     | .base1 _ _ => kd
     | .base2 o _ => kd && !(0x10 ≤ o && o ≤ 0x14)
     | .imm8 _ _ => kd
     | .shift _ _ => kd
     | .imm16 _ _ => kd
     | .baseLit o _ => kd && !(0x10 ≤ o && o ≤ 0x14)
     | _ => false)

def State.modLp (s : State) (lp : Nat) (f : LaunchProc → LaunchProc) : State := { s with lps := s.lps.modify lp f }
def State.modPro (s : State) (lp : Nat) (f : Prologue → Prologue) : State := s.modLp lp (fun l => { l with prologue := l.prologue.map f })

/-- A prologue faults (R307): it ends with the instruction's cause. -/
def failPrologue (s : State) (lp : Nat) (c : Cause) (addr : Dword) : State := s.modPro lp (fun p => { p with ended := some (.fault c addr) })

/-- Whether a prologue waits for a peer's answer. -/
def prologueHeld (s : State) (lp : Nat) : Bool :=
  s.remote.any (fun q => match q.use with
    | .uload t _ _ _ _ => t = proTid lp
    | .store (some t) _ _ _ => t = proTid lp
    | _ => false)

/-- One instruction of a prologue (R304): in program order, with the result awaited. -/
def issuePrologue (sp : Spec) (lp : Nat) (s : State) : State :=
  match (s.lps[lp]?).bind LaunchProc.prologue with
  | none => s
  | some p =>
    let f := sp.form
    let r := prologueRd s lp p f.lit
    let here : Dword := p.pc.setWidth 64
    let next := p.pc + word f.len
    let s := { s with free := s.free + 1, issued := s.issued + 1 }
    if p.ended.isSome || prologueHeld s lp then s
    else if !prologueAdmits f then failPrologue s lp .illegalInstr here
    else
      match decodeCause f none r.c r.q r.th with
      | some k => failPrologue s lp k here
      | none =>
        if !guardHolds f.guard r.th then s.modPro lp (fun p => { p with pc := next })
        else
          match sp.sem r s with
          | .stall s' => s'
          | .cause k a _ _ => failPrologue s lp k (a.getD here)
          | .causeIn s' k a _ _ => failPrologue s' lp k (a.getD here)
          | .ok s' w go _ =>
            let s' := s'.modPro lp (fun p =>
              { p with k := w.k.foldl (fun l x => l.set x.1 x.2) p.k, p := w.p.foldl (fun m x => setPred m x.1 x.2) p.p })
            match go with
            | .jump pc => s'.modPro lp (fun p => { p with pc := pc })
            | .exit => s'.modPro lp (fun p => { p with ended := some .exit })
            | _ => s'.modPro lp (fun p => { p with pc := next })

/-- Issues an instruction to what is in execution: to a bundle as lanes or as a uniform step by its destination, or in a prologue. -/
def issue (sp : Spec) (s : State) : Host.Outcome State Fault Refusal :=
  .next (match s.cur with
    | .prologue lp => issuePrologue sp lp s
    | _ => if sp.form.uniform then issueUniform sp (fun _ => none) s (curBundle s) else issueLanes sp s (curBundle s))

end Sys2Proof.Machine
end

