-- ==== Sys2Proof/Machine/Flags.lean ====
section
/-! DEFINITION. The flag computations: integer saturation (R103), conversions between number formats (R40, R41, R110), and the
FP32 operations with their saturation (R128). -/
namespace Sys2Proof.Machine
open Sys2Proof

/-- fin(t) of R103: wrapped to w bits, or saturated with the SAT flag when the value changes. -/
def finInt (w : Nat) (signed sat : Bool) (t : Int) : Nat × Flags :=
  if sat then
    let c := min (max t (intLo signed w)) (intHi signed w)
    (wrapNat w c, if c = t then 0 else fSAT)
  else (wrapNat w t, 0)

/-- A number format of CVT (R110). -/
inductive NFmt where
  | int (signed : Bool) (w : Nat)
  | flt (f : Fmt)
  deriving DecidableEq, Repr

/-- The format codes of R110. -/
def nfmt (c : Nat) : NFmt :=
  match c with
  | 0 => .int true 8
  | 1 => .int false 8
  | 2 => .int true 16
  | 3 => .int false 16
  | 4 => .int true 32
  | 5 => .int false 32
  | 6 => .int true 64
  | 7 => .int false 64
  | 8 => .flt fp16
  | 9 => .flt bf16
  | 10 => .flt fp32
  | 11 => .flt e4m3
  | 12 => .flt e5m2
  | _ => .flt e2m1

def NFmt.width : NFmt → Nat
  | .int _ w => w
  | .flt f => f.width

/-- The conversion of R110 under R40: the low bits of the source in one format to the bits of the other. -/
def cvtBits (sf df : NFmt) (mode : RMode) (sat : Bool) (x : Nat) : Nat × Flags :=
  let x := x % 2 ^ sf.width
  match sf, df with
  | .int s w, .int s' w' =>
    if s = s' ∧ w = w' then (x, 0)
    else finInt w' s' sat (if s then toSigned w x else x)
  | .int s w, .flt f => convV f mode sat (ofInt (if s then toSigned w x else x))
  | .flt f, .int s w =>
    let r := convToInt s w mode (unpack f x)
    (wrapNat w r.1, r.2)
  | .flt f, .flt g =>
    if f = g then (if isSNaN (unpack f x) then (f.nan, fNV) else (x, 0))
    else convV g mode sat (unpack f x)

/-- A result of a narrow format as 32 or 64 bits: integers extended by their own signedness, floats with zeros (R110). -/
def extendTo (df : NFmt) (x : Nat) : Nat :=
  match df with
  | .int true w => if w ≥ 32 then x else wrapNat 32 (toSigned w x)
  | _ => x

/-- The optional clamp of .sat (R128). -/
def satIf (sat : Bool) (r : Nat × Flags) : Nat × Flags := if sat then clamp01 fp32 r else r

end Sys2Proof.Machine
end

