-- ==== Sys2Proof/Machine/Integer.lean ====
section
/-! DEFINITION. Integer, predicate, conversion and reference instructions (R100–R112) and their base forms (R59, R60, R62). -/
namespace Sys2Proof.Machine
open Sys2Proof

/-! ## Fields -/

def Ext.wide (f : Ext) : Bool := tb f.fn.toNat 0
def Ext.signed (f : Ext) : Bool := tb f.fn.toNat 1
def Ext.sat (f : Ext) : Bool := tb f.fn.toNat 2
/-- Operation width in bits (R100). -/
def Ext.wbits (f : Ext) : Nat := if Ext.wide f then 64 else 32

/-- The extended instruction that a base word stands for: FN bit 0 by the destination, guard always, no lookahead (R59). -/
def baseExt (d : Code) (signed : Bool) (a b : Code) : Ext :=
  ⟨.ofNat 4 ((if isK d then 1 else 0) + (if signed then 2 else 0)), d, 0, ⟨false, 0⟩, src a, src b, src 0, 0, none⟩
def ofBase1 (f : Base1) : Ext := baseExt f.d false f.a 0
def ofBase2 (signed : Bool) (f : Base2) : Ext := baseExt f.d signed f.a f.b
def ofImm8 (f : BaseImm8) : Ext := baseExt f.d false f.a cLit
def ofShift (signed : Bool) (f : BaseShift) : Ext := baseExt f.d signed f.a cLit
def ofLit (signed : Bool) (f : BaseLit) : Ext := baseExt f.d signed f.a cLit
/-- The floating base forms have FN 0 (R59). -/
def ofBaseF (f : Base2) : Ext := ⟨0, f.d, 0, ⟨false, 0⟩, src f.a, src f.b, src 0, 0, none⟩
def ofLitF (f : BaseLit) : Ext := ⟨0, f.d, 0, ⟨false, 0⟩, src f.a, src cLit, src 0, 0, none⟩

/-- An operand as the unbounded value of R103, by S. -/
def Rd.int (r : Rd) (e : Ext) (f : Src) : Int :=
  if Ext.signed e then toSigned (Ext.wbits e) (r.x (Ext.wide e) f) else (r.x (Ext.wide e) f : Int)

/-- The write of an integer result with its flags. -/
def intOut (e : Ext) (x : Nat × Flags) : Writes := { writeInt e.d (Ext.wide e) (Ext.signed e) x.1 with flags := x.2 }

/-- An instruction of two integer operands with one exact result, wrapped or saturated (R103). -/
def semInt2 (e : Ext) (op : Int → Int → Int) : LaneSem :=
  pureSem (fun r => intOut e (finInt (Ext.wbits e) (Ext.signed e) (Ext.sat e) (op (r.int e e.a) (r.int e e.b))))

/-- An instruction of one operand taken as a W-bit word. -/
def semBits1 (e : Ext) (op : Nat → Nat → Nat) : LaneSem :=
  pureSem (fun r => intOut e (op (Ext.wbits e) (r.x (Ext.wide e) e.a), 0))

/-- An instruction of two operands taken as W-bit words. -/
def semBits2 (e : Ext) (op : Nat → Nat → Nat → Nat) : LaneSem :=
  pureSem (fun r => intOut e (op (Ext.wbits e) (r.x (Ext.wide e) e.a) (r.x (Ext.wide e) e.b), 0))

/-! ## Arithmetic and logic (R103) -/

/-- IMULH: floor(x · y / 2^W). -/
def mulHigh (e : Ext) : LaneSem :=
  pureSem (fun r => intOut e (wrapNat (Ext.wbits e) ((r.int e e.a * r.int e e.b) / ((2 ^ Ext.wbits e : Nat) : Int)), 0))

/-- IMAD: wrap(x · y + c). -/
def mulAdd (e : Ext) : LaneSem :=
  pureSem (fun r => intOut e (wrapNat (Ext.wbits e) (r.int e e.a * r.int e e.b + r.int e e.c), 0))

/-- IABS and INEG. -/
def semInt1 (e : Ext) (op : Int → Int) : LaneSem :=
  pureSem (fun r => intOut e (finInt (Ext.wbits e) (Ext.signed e) (Ext.sat e) (op (r.int e e.a))))

def bitAndn (w x y : Nat) : Nat := x &&& (2 ^ w - 1 - y)
/-- Left shift by B bits 7:0. -/
def shiftLeft (w x y : Nat) : Nat := (x * 2 ^ (y % 256)) % 2 ^ w
/-- Logical right shift. -/
def shiftRight (_w x y : Nat) : Nat := x / 2 ^ (y % 256)
/-- Arithmetic right shift: floor of the signed value. -/
def shiftRightS (w x y : Nat) : Nat := wrapNat w (toSigned w x / ((2 ^ (y % 256) : Nat) : Int))
def rotateLeft (w x y : Nat) : Nat :=
  let n := y % 256 % w
  (x * 2 ^ n) % 2 ^ w + x / 2 ^ (w - n)
def rotateRight (w x y : Nat) : Nat := rotateLeft w x ((w - y % 256 % w) % w)
/-- Bits from the top: the highest set one decides. -/
def leadingZeros (w x : Nat) : Nat := if x = 0 then w else w - 1 - Nat.log2 x
def bitList (w x : Nat) : List Bool := (List.range w).map (fun i => tb x i)
def trailingZeros (w x : Nat) : Nat := ((bitList w x).takeWhile (fun b => !b)).length
def popCount (w x : Nat) : Nat := ((bitList w x).filter id).length
def ofBits (l : List Bool) : Nat := l.foldr (fun b n => 2 * n + (if b then 1 else 0)) 0
def bitReverse (w x : Nat) : Nat := ofBits (bitList w x).reverse

/-- SHR by S. -/
def semShr (e : Ext) : LaneSem := semBits2 e (if Ext.signed e then shiftRightS else shiftRight)

/-! ## Fields and Morton codes (R104, R105) -/

/-- Position and end of the field that a specifier names. -/
def fieldOf (w spec : Nat) : Nat × Nat := (spec % 256, min (spec % 256 + spec / 256 % 256) w)

def bitField (signed : Bool) (w x spec : Nat) : Nat :=
  let (p, q) := fieldOf w spec
  if q ≤ p then 0
  else
    let v := x / 2 ^ p % 2 ^ (q - p)
    if signed then wrapNat w (toSigned (q - p) v) else v

def bitInsert (w a spec c : Nat) : Nat :=
  let (p, q) := fieldOf w spec
  if q ≤ p then c
  else c % 2 ^ p + (a % 2 ^ (q - p)) * 2 ^ p + c / 2 ^ q * 2 ^ q

def interleave (two : Bool) (a b c : Nat) : Nat :=
  if two then ofBits ((List.range 16).flatMap (fun i => [tb a i, tb b i]))
  else ofBits ((List.range 10).flatMap (fun i => [tb a i, tb b i, tb c i]))

def deinterleave (two : Bool) (x k : Nat) : Nat :=
  if two then ofBits ((List.range 16).map (fun i => tb x (2 * i + k)))
  else ofBits ((List.range 10).map (fun i => tb x (3 * i + k)))

/-! ## Selection, comparison, predicates, votes (R106–R109) -/

/-- The conditions of ISETP by FN bits 3:1 (R107). -/
def intCond (w c x y : Nat) : Bool :=
  match c with
  | 0 => x = y
  | 1 => x ≠ y
  | 2 => toSigned w x < toSigned w y
  | 3 => toSigned w x ≤ toSigned w y
  | 4 => x < y
  | _ => x ≤ y

/-- The combine of IMM16 with a predicate (R107). -/
def combine (r : Rd) (imm : Nat) (t : Bool) : Bool :=
  let q := r.th.pred (imm % 16) != tb imm 6
  match imm / 16 % 4 with
  | 0 => t
  | 1 => t && q
  | 2 => t || q
  | _ => t != q

/-- The result of VOTE for the participant in lane L, from each participant's lane and predicate (R109). -/
def voteBool (fn : Nat) (votes : List (Nat × Bool)) (lane : Nat) : Bool :=
  match fn with
  | 0 => votes.all (·.2)
  | 1 => votes.any (·.2)
  | 2 => votes.all (·.2) || votes.all (fun x => !x.2)
  | _ => match votes.find? (fun x => x.2) with
    | some x => x.1 = lane
    | none => false

def ballot (votes : List (Nat × Bool)) : Nat := ((votes.filter (fun x => x.2)).map (fun x => 2 ^ x.1)).sum

/-- The participants' lanes and predicates, ascending. -/
def votesOf (r : Rd) (a : Code) : List (Nat × Bool) :=
  r.act.filterMap (fun t => (r.s.thread? t).map (fun th => (t.lane, th.pred a.toNat)))

/-! ## Packing (R111) -/

def packB8 (imm a b : Nat) : Nat :=
  let byte (c : Nat) : Nat := if c < 4 then a / 256 ^ c % 256 else if c < 8 then b / 256 ^ (c - 4) % 256 else 0
  ((List.range 4).map (fun j => byte (imm / 16 ^ j % 16) * 256 ^ j)).sum

/-- Two converted halves. -/
def packHalves (f : Fmt) (a b : Word) : Nat × Flags :=
  let x := convV f .rne false (f32 a)
  let y := convV f .rne false (f32 b)
  (x.1 + 2 ^ 16 * y.1, x.2 ||| y.2)

def unpackInt (w i : Nat) (signed : Bool) (a : Nat) : Nat :=
  let v := a / 2 ^ (w * i) % 2 ^ w
  if signed then wrapNat 32 (toSigned w v) else v

/-! ## References (R112) -/

/-- REF_BOUNDS of a reference instruction, which has no address: the value of csr.taddr is free (R357) (DESIGN CHOICE, log entry 17). -/
def refBad (r : Rd) : LaneOut := .cause .refBounds (some (Config.freeDword (r.s.free - 1))) 0 0

def semRefmk (f : Ext) : LaneSem := fun r s =>
  let i := (r.x32 f.a).toNat
  let o := (r.x64 f.b).toNat
  if i < 2 ^ 20 ∧ o < 2 ^ 44 then .done s (writeInt f.d true false (mkRef i o).toNat) else refBad r

def semRefadd (f : Ext) : LaneSem := fun r s =>
  let a := r.x64 f.a
  let b : Int := if tb f.fn.toNat 0 then toSigned 64 (r.x64 f.b).toNat else toSigned 32 (r.x32 f.b).toNat
  let o := (refOff a : Int) + b
  if 0 ≤ o ∧ o < 2 ^ 44 then .done s (writeInt f.d true false (mkRef (refIndex a) o.toNat).toNat) else refBad r

def semRefget (f : Ext) : LaneSem := pureSem (fun r =>
  if tb f.fn.toNat 0 then writeInt f.d true false (refOff (r.x64 f.a)) else writeInt f.d false false (refIndex (r.x64 f.a)))

/-! ## The computation of each opcode -/


def semIadd (e : Ext) : LaneSem := semInt2 e (· + ·)
def semIsub (e : Ext) : LaneSem := semInt2 e (· - ·)
def semImul (e : Ext) : LaneSem := semInt2 e (· * ·)
def semImin (e : Ext) : LaneSem := semInt2 e min
def semImax (e : Ext) : LaneSem := semInt2 e max
def semAnd (e : Ext) : LaneSem := semBits2 e (fun _ x y => x &&& y)
def semOr (e : Ext) : LaneSem := semBits2 e (fun _ x y => x ||| y)
def semXor (e : Ext) : LaneSem := semBits2 e (fun _ x y => x ^^^ y)
def semAndn (e : Ext) : LaneSem := semBits2 e bitAndn
def semShl (e : Ext) : LaneSem := semBits2 e shiftLeft
def semRol (e : Ext) : LaneSem := semBits2 e rotateLeft
def semRor (e : Ext) : LaneSem := semBits2 e rotateRight
def semClz (e : Ext) : LaneSem := semBits1 e leadingZeros
def semCtz (e : Ext) : LaneSem := semBits1 e trailingZeros
def semPopc (e : Ext) : LaneSem := semBits1 e popCount
def semBrev (e : Ext) : LaneSem := semBits1 e bitReverse
def semMov (e : Ext) : LaneSem := semBits1 e (fun _ x => x)

/-- Base MOVHI: bits 31:16 of D replaced, the rest of D kept (R59). -/
def semMovhi (f : BaseImm16) : LaneSem := pureSem (fun r =>
  let old := (r.x64 ⟨f.d, 0, 0⟩).toNat
  if isK f.d then writeInt f.d true false (old - old % 2 ^ 32 + f.imm.toNat * 2 ^ 16 + old % 2 ^ 16)
  else writeV f.d (word (f.imm.toNat * 2 ^ 16 + (r.x32 ⟨f.d, 0, 0⟩).toNat % 2 ^ 16)))

/-- BFX and BFI (R104). -/
def semBfx (e : Ext) : LaneSem := semBits2 e (fun w x y => bitField (Ext.signed e) w x y)
def semBfi (e : Ext) : LaneSem := pureSem (fun r =>
  intOut e (bitInsert (Ext.wbits e) (r.x (Ext.wide e) e.a) (r.x (Ext.wide e) e.b) (r.x (Ext.wide e) e.c), 0))

/-- BITIL and BITDIL (R105). -/
def semBitil (e : Ext) : LaneSem := pureSem (fun r =>
  writeInt e.d false false (interleave (tb e.fn.toNat 2) (r.x32 e.a).toNat (r.x32 e.b).toNat (r.x32 e.c).toNat))
def semBitdil (e : Ext) : LaneSem := pureSem (fun r =>
  writeInt e.d false false (deinterleave (tb e.fn.toNat 2) (r.x32 e.a).toNat (e.imm.toNat % 4)))

/-- SEL (R106). -/
def semSel (e : Ext) : LaneSem := pureSem (fun r =>
  writeInt e.d (Ext.wide e) false (r.x (Ext.wide e) (if r.pr e.c.code then e.a else e.b)))

/-- ISETP (R107). -/
def semIsetp (e : Ext) : LaneSem := pureSem (fun r =>
  writeP e.d (combine r e.imm.toNat (intCond (Ext.wbits e) (e.fn.toNat / 2) (r.x (Ext.wide e) e.a) (r.x (Ext.wide e) e.b))))

/-- PLOP (R108). -/
def semPlop (e : Ext) : LaneSem := pureSem (fun r =>
  let b (c : Code) : Nat := if r.pr c then 1 else 0
  writeP e.d (tb e.imm.toNat (4 * b e.a.code + 2 * b e.b.code + b e.c.code)))

/-- VOTE (R109). -/
def semVote (e : Ext) : LaneSem := pureSem (fun r =>
  let votes := votesOf r e.a.code
  if e.fn = 3 then writeV e.d (word (ballot votes)) else writeP e.d (voteBool e.fn.toNat votes r.t.lane))

/-- CVT (R110) (DEDUCED, log entry 83). -/
def semCvt (e : Ext) : LaneSem := pureSem (fun r =>
  let imm := e.imm.toNat
  let sf := nfmt (imm % 16)
  let df := nfmt (imm / 16 % 16)
  let x := cvtBits sf df (RMode.ofCode (imm / 256 % 4)) (tb imm 10) (r.x (sf.width = 64) e.a)
  let signed := match df with
    | .int s _ => s
    | .flt _ => false
  { writeInt e.d (df.width = 64) signed (extendTo df x.1) with flags := x.2 })

/-- PACK (R111). -/
def semPack (e : Ext) : LaneSem := pureSem (fun r =>
  let a := r.x32 e.a
  let b := r.x32 e.b
  let x : Nat × Flags := match e.fn.toNat with
    | 0 => (packB8 e.imm.toNat a.toNat b.toNat, 0)
    | 1 => packHalves fp16 a b
    | _ => packHalves bf16 a b
  { writeInt e.d false false x.1 with flags := x.2 })

/-- UNPACK (R111). -/
def semUnpack (e : Ext) : LaneSem := pureSem (fun r =>
  let a := (r.x32 e.a).toNat
  let imm := e.imm.toNat
  let half := a / 2 ^ (16 * (imm % 2)) % 2 ^ 16
  match e.fn.toNat with
  | 0 => writeInt e.d false (tb imm 1) (unpackInt 16 (imm % 2) (tb imm 1) a)
  | 1 => writeInt e.d false (tb imm 2) (unpackInt 8 (imm % 4) (tb imm 2) a)
  | 2 =>
    let x := convV fp32 .rne false (unpack fp16 half)
    { writeInt e.d false false x.1 with flags := x.2 }
  | _ =>
    let x := convV fp32 .rne false (unpack bf16 half)
    { writeInt e.d false false x.1 with flags := x.2 })

/-! ## Meanings -/

/-- IADD (R103). -/
def execIadd (f : Ext) (s : State) : Host.Outcome State Fault Refusal := issue { form := .ext 0x00 f, sem := semIadd f } s
/-- ISUB (R103). -/
def execIsub (f : Ext) (s : State) : Host.Outcome State Fault Refusal := issue { form := .ext 0x01 f, sem := semIsub f } s
/-- IMUL (R103). -/
def execImul (f : Ext) (s : State) : Host.Outcome State Fault Refusal := issue { form := .ext 0x02 f, sem := semImul f } s
/-- IMULH (R103). -/
def execImulh (f : Ext) (s : State) : Host.Outcome State Fault Refusal := issue { form := .ext 0x03 f, sem := mulHigh f } s
/-- IMAD (R103). -/
def execImad (f : Ext) (s : State) : Host.Outcome State Fault Refusal := issue { form := .ext 0x04 f, sem := mulAdd f } s
/-- IMIN (R103). -/
def execImin (f : Ext) (s : State) : Host.Outcome State Fault Refusal := issue { form := .ext 0x05 f, sem := semImin f } s
/-- IMAX (R103). -/
def execImax (f : Ext) (s : State) : Host.Outcome State Fault Refusal := issue { form := .ext 0x06 f, sem := semImax f } s
/-- IABS (R103). -/
def execIabs (f : Ext) (s : State) : Host.Outcome State Fault Refusal := issue { form := .ext 0x07 f, sem := semInt1 f (fun x => (x.natAbs : Int)) } s
/-- INEG (R103). -/
def execIneg (f : Ext) (s : State) : Host.Outcome State Fault Refusal := issue { form := .ext 0x08 f, sem := semInt1 f (fun x => -x) } s
/-- AND (R103). -/
def execAnd (f : Ext) (s : State) : Host.Outcome State Fault Refusal := issue { form := .ext 0x09 f, sem := semAnd f } s
/-- OR (R103). -/
def execOr (f : Ext) (s : State) : Host.Outcome State Fault Refusal := issue { form := .ext 0x0A f, sem := semOr f } s
/-- XOR (R103). -/
def execXor (f : Ext) (s : State) : Host.Outcome State Fault Refusal := issue { form := .ext 0x0B f, sem := semXor f } s
/-- ANDN (R103). -/
def execAndn (f : Ext) (s : State) : Host.Outcome State Fault Refusal := issue { form := .ext 0x0C f, sem := semAndn f } s
/-- SHL (R103). -/
def execShl (f : Ext) (s : State) : Host.Outcome State Fault Refusal := issue { form := .ext 0x0D f, sem := semShl f } s
/-- SHR (R103). -/
def execShr (f : Ext) (s : State) : Host.Outcome State Fault Refusal := issue { form := .ext 0x0E f, sem := semShr f } s
/-- ROL (R103). -/
def execRol (f : Ext) (s : State) : Host.Outcome State Fault Refusal := issue { form := .ext 0x0F f, sem := semRol f } s
/-- ROR (R103). -/
def execRor (f : Ext) (s : State) : Host.Outcome State Fault Refusal := issue { form := .ext 0x10 f, sem := semRor f } s
/-- CLZ (R103). -/
def execClz (f : Ext) (s : State) : Host.Outcome State Fault Refusal := issue { form := .ext 0x11 f, sem := semClz f } s
/-- CTZ (R103). -/
def execCtz (f : Ext) (s : State) : Host.Outcome State Fault Refusal := issue { form := .ext 0x12 f, sem := semCtz f } s
/-- POPC (R103). -/
def execPopc (f : Ext) (s : State) : Host.Outcome State Fault Refusal := issue { form := .ext 0x13 f, sem := semPopc f } s
/-- BREV (R103). -/
def execBrev (f : Ext) (s : State) : Host.Outcome State Fault Refusal := issue { form := .ext 0x14 f, sem := semBrev f } s
/-- BFX (R104). -/
def execBfx (f : Ext) (s : State) : Host.Outcome State Fault Refusal := issue { form := .ext 0x15 f, sem := semBfx f } s
/-- BFI (R104). -/
def execBfi (f : Ext) (s : State) : Host.Outcome State Fault Refusal := issue { form := .ext 0x16 f, sem := semBfi f } s
/-- BITIL (R105). -/
def execBitil (f : Ext) (s : State) : Host.Outcome State Fault Refusal := issue { form := .ext 0x17 f, sem := semBitil f } s
/-- BITDIL (R105). -/
def execBitdil (f : Ext) (s : State) : Host.Outcome State Fault Refusal := issue { form := .ext 0x18 f, sem := semBitdil f } s
/-- SEL (R106). -/
def execSel (f : Ext) (s : State) : Host.Outcome State Fault Refusal := issue { form := .ext 0x19 f, sem := semSel f } s
/-- MOV (R106). -/
def execMov (f : Ext) (s : State) : Host.Outcome State Fault Refusal := issue { form := .ext 0x1A f, sem := semMov f } s
/-- ISETP (R107). -/
def execIsetp (f : Ext) (s : State) : Host.Outcome State Fault Refusal := issue { form := .ext 0x1B f, sem := semIsetp f } s
/-- PLOP (R108). -/
def execPlop (f : Ext) (s : State) : Host.Outcome State Fault Refusal := issue { form := .ext 0x1C f, sem := semPlop f } s
/-- VOTE (R109). -/
def execVote (f : Ext) (s : State) : Host.Outcome State Fault Refusal := issue { form := .ext 0x1D f, sem := semVote f } s
/-- CVT (R110). -/
def execCvt (f : Ext) (s : State) : Host.Outcome State Fault Refusal := issue { form := .ext 0x1E f, sem := semCvt f } s
/-- PACK (R111). -/
def execPack (f : Ext) (s : State) : Host.Outcome State Fault Refusal := issue { form := .ext 0x1F f, sem := semPack f } s
/-- UNPACK (R111). -/
def execUnpack (f : Ext) (s : State) : Host.Outcome State Fault Refusal := issue { form := .ext 0x20 f, sem := semUnpack f } s
/-- REFMK (R112). -/
def execRefmk (f : Ext) (s : State) : Host.Outcome State Fault Refusal := issue { form := .ext 0x21 f, sem := semRefmk f } s
/-- REFADD (R112). -/
def execRefadd (f : Ext) (s : State) : Host.Outcome State Fault Refusal := issue { form := .ext 0x22 f, sem := semRefadd f } s
/-- REFGET (R112). -/
def execRefget (f : Ext) (s : State) : Host.Outcome State Fault Refusal := issue { form := .ext 0x23 f, sem := semRefget f } s

/-! ## Base forms (R59, R60, R62) -/

/-- Base MOV (R59). -/
def execMovBase (f : Base1) (s : State) : Host.Outcome State Fault Refusal := issue { form := .base1 0x01 f, sem := semMov (ofBase1 f) } s
/-- Base CLZ (R59). -/
def execClzBase (f : Base1) (s : State) : Host.Outcome State Fault Refusal := issue { form := .base1 0x15 f, sem := semClz (ofBase1 f) } s
/-- Base CTZ (R59). -/
def execCtzBase (f : Base1) (s : State) : Host.Outcome State Fault Refusal := issue { form := .base1 0x16 f, sem := semCtz (ofBase1 f) } s
/-- Base POPC (R59). -/
def execPopcBase (f : Base1) (s : State) : Host.Outcome State Fault Refusal := issue { form := .base1 0x17 f, sem := semPopc (ofBase1 f) } s
/-- Base BREV (R59). -/
def execBrevBase (f : Base1) (s : State) : Host.Outcome State Fault Refusal := issue { form := .base1 0x18 f, sem := semBrev (ofBase1 f) } s
/-- Base iadd (R59). -/
def execIaddBase (f : Base2) (s : State) : Host.Outcome State Fault Refusal := issue { form := .base2 0x02 f, sem := semIadd (ofBase2 false f) } s
/-- Base iadd with a literal (R62). -/
def execIaddBaseLit (f : BaseLit) (s : State) : Host.Outcome State Fault Refusal := issue { form := .baseLit 0x02 f, sem := semIadd (ofLit false f) } s
/-- Base isub (R59). -/
def execIsubBase (f : Base2) (s : State) : Host.Outcome State Fault Refusal := issue { form := .base2 0x03 f, sem := semIsub (ofBase2 false f) } s
/-- Base isub with a literal (R62). -/
def execIsubBaseLit (f : BaseLit) (s : State) : Host.Outcome State Fault Refusal := issue { form := .baseLit 0x03 f, sem := semIsub (ofLit false f) } s
/-- Base imul (R59). -/
def execImulBase (f : Base2) (s : State) : Host.Outcome State Fault Refusal := issue { form := .base2 0x04 f, sem := semImul (ofBase2 false f) } s
/-- Base imul with a literal (R62). -/
def execImulBaseLit (f : BaseLit) (s : State) : Host.Outcome State Fault Refusal := issue { form := .baseLit 0x04 f, sem := semImul (ofLit false f) } s
/-- Base and (R59). -/
def execAndBase (f : Base2) (s : State) : Host.Outcome State Fault Refusal := issue { form := .base2 0x05 f, sem := semAnd (ofBase2 false f) } s
/-- Base and with a literal (R62). -/
def execAndBaseLit (f : BaseLit) (s : State) : Host.Outcome State Fault Refusal := issue { form := .baseLit 0x05 f, sem := semAnd (ofLit false f) } s
/-- Base or (R59). -/
def execOrBase (f : Base2) (s : State) : Host.Outcome State Fault Refusal := issue { form := .base2 0x06 f, sem := semOr (ofBase2 false f) } s
/-- Base or with a literal (R62). -/
def execOrBaseLit (f : BaseLit) (s : State) : Host.Outcome State Fault Refusal := issue { form := .baseLit 0x06 f, sem := semOr (ofLit false f) } s
/-- Base xor (R59). -/
def execXorBase (f : Base2) (s : State) : Host.Outcome State Fault Refusal := issue { form := .base2 0x07 f, sem := semXor (ofBase2 false f) } s
/-- Base xor with a literal (R62). -/
def execXorBaseLit (f : BaseLit) (s : State) : Host.Outcome State Fault Refusal := issue { form := .baseLit 0x07 f, sem := semXor (ofLit false f) } s
/-- Base andn (R59). -/
def execAndnBase (f : Base2) (s : State) : Host.Outcome State Fault Refusal := issue { form := .base2 0x08 f, sem := semAndn (ofBase2 false f) } s
/-- Base andn with a literal (R62). -/
def execAndnBaseLit (f : BaseLit) (s : State) : Host.Outcome State Fault Refusal := issue { form := .baseLit 0x08 f, sem := semAndn (ofLit false f) } s
/-- Base shl (R59). -/
def execShlBase (f : Base2) (s : State) : Host.Outcome State Fault Refusal := issue { form := .base2 0x09 f, sem := semShl (ofBase2 false f) } s
/-- Base shl with a literal (R62). -/
def execShlBaseLit (f : BaseLit) (s : State) : Host.Outcome State Fault Refusal := issue { form := .baseLit 0x09 f, sem := semShl (ofLit false f) } s
/-- Base shrN (R59). -/
def execShrNBase (f : Base2) (s : State) : Host.Outcome State Fault Refusal := issue { form := .base2 0x0A f, sem := semShr (ofBase2 false f) } s
/-- Base shrN with a literal (R62). -/
def execShrNBaseLit (f : BaseLit) (s : State) : Host.Outcome State Fault Refusal := issue { form := .baseLit 0x0A f, sem := semShr (ofLit false f) } s
/-- Base shrS (R59). -/
def execShrSBase (f : Base2) (s : State) : Host.Outcome State Fault Refusal := issue { form := .base2 0x0B f, sem := semShr (ofBase2 true f) } s
/-- Base shrS with a literal (R62). -/
def execShrSBaseLit (f : BaseLit) (s : State) : Host.Outcome State Fault Refusal := issue { form := .baseLit 0x0B f, sem := semShr (ofLit true f) } s
/-- Base iminS (R59). -/
def execIminSBase (f : Base2) (s : State) : Host.Outcome State Fault Refusal := issue { form := .base2 0x0C f, sem := semImin (ofBase2 true f) } s
/-- Base iminS with a literal (R62). -/
def execIminSBaseLit (f : BaseLit) (s : State) : Host.Outcome State Fault Refusal := issue { form := .baseLit 0x0C f, sem := semImin (ofLit true f) } s
/-- Base imaxS (R59). -/
def execImaxSBase (f : Base2) (s : State) : Host.Outcome State Fault Refusal := issue { form := .base2 0x0D f, sem := semImax (ofBase2 true f) } s
/-- Base imaxS with a literal (R62). -/
def execImaxSBaseLit (f : BaseLit) (s : State) : Host.Outcome State Fault Refusal := issue { form := .baseLit 0x0D f, sem := semImax (ofLit true f) } s
/-- Base iminN (R59). -/
def execIminNBase (f : Base2) (s : State) : Host.Outcome State Fault Refusal := issue { form := .base2 0x0E f, sem := semImin (ofBase2 false f) } s
/-- Base iminN with a literal (R62). -/
def execIminNBaseLit (f : BaseLit) (s : State) : Host.Outcome State Fault Refusal := issue { form := .baseLit 0x0E f, sem := semImin (ofLit false f) } s
/-- Base imaxN (R59). -/
def execImaxNBase (f : Base2) (s : State) : Host.Outcome State Fault Refusal := issue { form := .base2 0x0F f, sem := semImax (ofBase2 false f) } s
/-- Base imaxN with a literal (R62). -/
def execImaxNBaseLit (f : BaseLit) (s : State) : Host.Outcome State Fault Refusal := issue { form := .baseLit 0x0F f, sem := semImax (ofLit false f) } s
/-- Base rol (R59). -/
def execRolBase (f : Base2) (s : State) : Host.Outcome State Fault Refusal := issue { form := .base2 0x19 f, sem := semRol (ofBase2 false f) } s
/-- Base rol with a literal (R62). -/
def execRolBaseLit (f : BaseLit) (s : State) : Host.Outcome State Fault Refusal := issue { form := .baseLit 0x19 f, sem := semRol (ofLit false f) } s
/-- Base ror (R59). -/
def execRorBase (f : Base2) (s : State) : Host.Outcome State Fault Refusal := issue { form := .base2 0x1A f, sem := semRor (ofBase2 false f) } s
/-- Base ror with a literal (R62). -/
def execRorBaseLit (f : BaseLit) (s : State) : Host.Outcome State Fault Refusal := issue { form := .baseLit 0x1A f, sem := semRor (ofLit false f) } s
/-- Base iadd with an 8-bit immediate (R59). -/
def execIaddBaseImm (f : BaseImm8) (s : State) : Host.Outcome State Fault Refusal := issue { form := .imm8 0x1B f, sem := semIadd (ofImm8 f) } s
/-- Base and with an 8-bit immediate (R59). -/
def execAndBaseImm (f : BaseImm8) (s : State) : Host.Outcome State Fault Refusal := issue { form := .imm8 0x1F f, sem := semAnd (ofImm8 f) } s
/-- Base or with an 8-bit immediate (R59). -/
def execOrBaseImm (f : BaseImm8) (s : State) : Host.Outcome State Fault Refusal := issue { form := .imm8 0x20 f, sem := semOr (ofImm8 f) } s
/-- Base xor with an 8-bit immediate (R59). -/
def execXorBaseImm (f : BaseImm8) (s : State) : Host.Outcome State Fault Refusal := issue { form := .imm8 0x21 f, sem := semXor (ofImm8 f) } s
/-- Base shl by an immediate count (R60). -/
def execShlBaseImm (f : BaseShift) (s : State) : Host.Outcome State Fault Refusal := issue { form := .shift 0x1C f, sem := semShl (ofShift false f) } s
/-- Base shrN by an immediate count (R60). -/
def execShrNBaseImm (f : BaseShift) (s : State) : Host.Outcome State Fault Refusal := issue { form := .shift 0x1D f, sem := semShr (ofShift false f) } s
/-- Base shrS by an immediate count (R60). -/
def execShrSBaseImm (f : BaseShift) (s : State) : Host.Outcome State Fault Refusal := issue { form := .shift 0x1E f, sem := semShr (ofShift true f) } s
/-- MOVI (R60). -/
def execMovi (f : BaseImm16) (s : State) : Host.Outcome State Fault Refusal := issue { form := .imm16 0x22 f, sem := semMov (baseExt f.d false cLit 0) } s
/-- MOVHI (R59). -/
def execMovhi (f : BaseImm16) (s : State) : Host.Outcome State Fault Refusal := issue { form := .imm16 0x23 f, sem := semMovhi f } s

end Sys2Proof.Machine
end

