-- ==== Sys2Proof/Machine/Memory.lean ====
section
/-! DEFINITION. Loads, stores, prefetch, fences and monitors (R212–R223, R240, R241). -/
namespace Sys2Proof.Machine
open Sys2Proof

/-! ## Addresses (R213, R215) -/

/-- Index times scale plus displacement. -/
def Rd.memOff (r : Rd) (f : Mem) : Int := toSigned 32 (r.x32 f.b).toNat * (2 ^ f.scale.toNat : Nat) + f.disp.toInt

/-- The 64-byte blocks an access touches (R218). -/
def Access.blocks (a : Access) : List Nat := dedup (a.store.map (fun x => x.2.key / 64))

/-- The threads whose requests a tree combines. -/
def AtomTree.tids : AtomTree → List Tid
  | .leaf _ (.thread t _ _ _ _) _ => [t]
  | .leaf _ (.peer _) _ => []
  | .node _ a b => a.tids ++ b.tids

/-- Whether a batch request carries a term of a thread. -/
def TermReq.has (q : TermReq) (t : Tid) : Bool := q.terms.any (fun x => x.t = t)

/-- The blocks of a thread's immediate accesses, atomics, batch terms and loads from peers that are still on their way: an access to one of them
waits, and no load returns its thread's later write (R218, R429). -/
def inFlightBlocks (s : State) (t : Tid) : List Nat :=
  (s.late.filter (fun e => e.t = t)).flatMap (fun e => e.access.blocks) ++ (s.reqs.filter (fun q => q.tree.tids.contains t)).map (fun q => q.loc.key / 64)
    ++ (s.terms.filter (fun q => q.has t)).flatMap (fun q => q.terms.map (fun x => x.loc.key / 64))
    ++ s.remote.flatMap (fun q => match q.use with
      | .load u _ _ width _ _ _ _ => if u = t then (List.range width).map (fun i => (Loc.remote q.peer q.pctx q.pidx (q.off + i)).key / 64) else []
      | _ => [])

/-- Whether an address operand is tainted (R92, R443). -/
def Rd.addrTaint (r : Rd) (f : Mem) : Bool :=
  let one (u : FK) (x : Src) : Bool := match r.source x with
    | some th => (u.regs x.code).any (fun g => match g with
      | .v n => r.q.bound n = 0 && th.taint.getD n false
      | _ => false)
    | none => false
  one .ref f.a || one (.v 1) f.b

/-- Whether a LD.consume of the thread has still to return (R443). -/
def consuming (s : State) (t : Tid) : Bool := s.late.any (fun e => e.t = t && (match e.use with
  | .load _ _ _ c => c
  | .store _ => false))

/-- A checked global access of a thread: it stops, waits for a page, waits behind its own earlier request to the block (R218), or by a tainted
address behind its earlier LD.consume (R443) (DESIGN CHOICE, log entry 143), or goes on. -/
def memGlobalAt (r : Rd) (s : State) (f : Mem) (off : Int) (need : Need) (size : Nat) (go : Access → LaneOut) : LaneOut :=
  let ref := r.x64 f.a
  match checkRef s r.c.ctx need ref off size with
  | .waits root page => .stall (firstTouch s root page)
  | .bad c sub => .cause c (some (faultAddr ref off)) sub 0
  | .ok a =>
    if a.blocks.any (fun b => (inFlightBlocks s r.t).contains b) || (r.addrTaint f && consuming s r.t) then .stall s else go a

/-- The same at the address of index and displacement. -/
def memGlobal (r : Rd) (s : State) (f : Mem) (need : Need) (size : Nat) (go : Access → LaneOut) : LaneOut :=
  memGlobalAt r s f (r.memOff f) need size go

/-- A checked scratch access of a thread (R215): bounds, then alignment. -/
def memScratch (r : Rd) (f : Mem) (size : Nat) (go : Nat → LaneOut) : LaneOut :=
  let off : Int := (r.x32 f.a).toNat + r.memOff f
  let addr : Dword := dword (wrapNat 64 off)
  if off < 0 || off + size > r.c.shape.scratch then .cause .scratchBounds (some addr) 0 0
  else if off.toNat % size ≠ 0 then .cause .misaligned (some addr) 0 0
  else go off.toNat

/-! ## Immediate accesses (R220, R440) -/

/-- A thread's immediate access to the package's own memory sets out for its home, which performs it in no fixed order with those to other
blocks (R440) (DESIGN CHOICE, log entry 143). -/
def setOut (s : State) (t : Tid) (a : Access) (use : LateUse) : State :=
  { s with nextId := s.nextId + 1, late := s.late ++ [⟨s.nextId, t, s.issued, Config.homeDelay s.nextId, a, use⟩] }

/-! ## Loads (R219–R221) -/

/-- Bytes of a width code (R214). -/
def widthBytes (w : Nat) : Nat := 2 ^ w

/-- The words of loaded bytes: one register with the extension of S, or one for each four bytes. -/
def loadWords (bytes : List Byte) (signed : Bool) : List Word :=
  match bytes.length with
  | 1 => [if signed then (BitVec.ofNat 8 (leNat bytes)).signExtend 32 else word (leNat bytes)]
  | 2 => [if signed then (BitVec.ofNat 16 (leNat bytes)).signExtend 32 else word (leNat bytes)]
  | _ => (chunksOf 4 bytes.length bytes).map (fun b => word (leNat b))

/-- The eight samples of each packet of some bytes. -/
def loadPackets (bytes : List Byte) : List Packet :=
  (chunksOf 32 bytes.length bytes).map (fun p => (chunksOf 4 32 p).map (fun b => word (leNat b)))

/-- A load's register writes. -/
def loadWrites (d : Code) (spectral signed : Bool) (bytes : List Byte) : Writes :=
  if spectral then
    let ps := loadPackets bytes
    { w := (List.range ps.length).zip ps |>.map (fun x => (d.toNat + x.1, x.2)) }
  else writeVs d (loadWords bytes signed)

/-- A global load in one thread. A peer's bytes come with its answer (R414), and the home's, for the immediate class, when the home performs the
load (R440); a phased load takes the cell view over what its class reads, for every thread of the issue by one choice (R217). -/
def loadFrom (r : Rd) (s : State) (op : Nat) (f : Mem) (a : Access) (spectral signed imm consume : Bool) : LaneOut :=
  if a.isRemote then
    let p := a.peer
    let id := s.nextId
    .ok (sendRemote s p.1 p.2.1 p.2.2.1 p.2.2.2 (.read a.size)
        (.load r.t (faultAddr (r.x64 f.a) (r.memOff f)) f.d a.size signed spectral (consume || r.tainted (.mem op f)) r.pops)) {}
      (.hold (.remote id)) (.remote id)
  else if imm then .ok (setOut s r.t a (.load f.d signed (consume || r.tainted (.mem op f)) consume)) {} .next (.late s.nextId)
  else
    let x := if r.addrTaint f then homeRead s (some r.t.cell) a else phasedReadBy r.s.free s r.t.cell a
    .done x.2 (loadWrites f.d spectral signed x.1)

/-- LD (R219, R220): class 0 phased, 1 immediate, 2 consume, which taints. -/
def semLd (f : Mem) : LaneSem := fun r s =>
  let imm : Bool := f.opt ≠ 0
  memGlobal r s f (if imm then needLoadImm else needLoad) (widthBytes (f.fn.toNat % 8)) (fun a =>
    loadFrom r s 0x80 f a false (tb f.fn.toNat 3) imm (f.opt = 2))

/-- LDS (R219). -/
def semLds (f : Mem) : LaneSem := fun r s =>
  let n := widthBytes (f.fn.toNat % 8)
  memScratch r f n (fun o => .done s (loadWrites f.d false (tb f.fn.toNat 3) (scratchRead s r.t.cell o n)))

/-- LDW (R214, R219). -/
def semLdw (f : Mem) : LaneSem := fun r s =>
  let n := if tb f.fn.toNat 0 then 128 else 32
  if tb f.fn.toNat 1 then memScratch r f n (fun o => .done s (loadWrites f.d true false (scratchRead s r.t.cell o n)))
  else memGlobal r s f needLoad n (fun a => loadFrom r s 0x84 f a true false false false)

/-- A ULD's value in its k register: extended to 64 bits under S (R221). -/
def uldValue (bytes : List Byte) (signed : Bool) : Dword :=
  if signed then dword (wrapNat 64 (toSigned (8 * bytes.length) (leNat bytes))) else dword (leNat bytes)

/-- ULD (R221); a prologue's is of the immediate class (R304). -/
def semUld (f : Mem) : LaneSem := fun r s =>
  let n := widthBytes (f.fn.toNat % 8)
  let k := f.d.toNat - 0xC0
  memGlobal r s f (if r.prologue then needLoadImm else needLoad) n (fun a =>
    if a.isRemote then
      let p := a.peer
      let id := s.nextId
      .ok (sendRemote s p.1 p.2.1 p.2.2.1 p.2.2.2 (.read n) (.uload r.t (faultAddr (r.x64 f.a) (r.memOff f)) k n (tb f.fn.toNat 3))) {} (.hold (.remote id)) (.remote id)
    else
      let x := if r.prologue then homeRead s none a else phasedReadBy r.s.free s r.t.cell a
      .done x.2 { k := [(k, uldValue x.1 (tb f.fn.toNat 3))] })

/-! ## Stores (R219–R221) -/

/-- The bytes of a store's operand C: the low bytes of one register, or a group's. -/
def storeBytes (r : Rd) (c : Code) (n : Nat) : List Byte :=
  if n ≤ 4 then leBytes n (r.vreg (src c) 0).toNat else (List.range (n / 4)).flatMap (fun i => leBytes 4 (r.vreg (src c) i).toNat)

/-- The bytes of spectral registers. -/
def packetBytes (r : Rd) (c : Code) (n : Nat) : List Byte :=
  (List.range (n / 32)).flatMap (fun i => (r.packet (src c) i).flatMap (fun w => leBytes 4 w.toNat))

/-- An immediate store: on its way to the home, or sent to the peer at once (R220, R414, R440); a prologue's is performed at once. -/
def storeImm (r : Rd) (s : State) (f : Mem) (a : Access) (data : List Byte) : LaneOut :=
  if a.isRemote then
    let p := a.peer
    let id := s.nextId
    .ok (sendRemote s p.1 p.2.1 p.2.2.1 p.2.2.2 (.write data)
      (.store (some r.t) (faultAddr (r.x64 f.a) (r.memOff f)) r.t.cell r.pops)) {} (.hold (.remote id)) (.remote id)
  else if r.prologue then .done (immWrite s r.t a data) {}
  else .ok (setOut s r.t a (.store data)) {} .next (.late s.nextId)

/-- A phased store: into the cell view; one to a peer's buffer once the peer has made its checks (R220, R347, R406) (DEDUCED,
log entry 101). -/
def storePhased (r : Rd) (s : State) (f : Mem) (a : Access) (data : List Byte) : LaneOut :=
  match readyFor s (.thread r.t) none (.ok a) with
  | .ok _ => .done (phasedWrite s r.t a data) {}
  | .bad c sub => .cause c (some (faultAddr (r.x64 f.a) (r.memOff f))) sub 0
  | w => .stall (beginWait s (.thread r.t) w)

/-- ST (R219, R220). -/
def semSt (f : Mem) : LaneSem := fun r s =>
  let n := widthBytes f.fn.toNat
  let imm : Bool := f.opt ≠ 0
  memGlobal r s f (if imm then needStoreImm else needStore) n (fun a =>
    let data := storeBytes r f.c n
    if imm then storeImm r s f a data else storePhased r s f a data)

/-- STS (R219). -/
def semSts (f : Mem) : LaneSem := fun r s =>
  let n := widthBytes f.fn.toNat
  memScratch r f n (fun o => .done (scratchWrite s r.t.cell o (storeBytes r f.c n)) {})

/-- STW (R214, R219). -/
def semStw (f : Mem) : LaneSem := fun r s =>
  let n := if tb f.fn.toNat 0 then 128 else 32
  let data := packetBytes r f.c n
  if tb f.fn.toNat 1 then memScratch r f n (fun o => .done (scratchWrite s r.t.cell o data) {})
  else memGlobal r s f needStore n (fun a => storePhased r s f a data)

/-- UST (R221); a prologue's is of the immediate class (R304). -/
def semUst (f : Mem) : LaneSem := fun r s =>
  let n := widthBytes f.fn.toNat
  let data := leBytes n (r.x64 (src f.c)).toNat
  memGlobal r s f (if r.prologue then needStoreImm else needStore) n (fun a =>
    if r.prologue then storeImm r s f a data else storePhased r s f a data)

/-- PREF (R222): it writes nothing, never stops and changes no value; what a read may return after it, R439 lets it return without
(DEDUCED, log entry 9). One whose checks pass translates (R395). -/
def semPref (f : Mem) : LaneSem := fun r s =>
  match checkRef s r.c.ctx needLoad (r.x64 f.a) (r.memOff f) 1 with
  | .ok a => .done (markPages s false a.pages) {}
  | _ => .done s {}

/-! ## FENCE (R223, R432, R433, R437, R441) -/

/-- Whether an earlier access of the thread is still to be performed. -/
def accessesOpen (s : State) (t : Tid) : Bool :=
  s.late.any (fun e => e.t = t) || s.terms.any (fun q => q.has t) || s.reqs.any (fun q => q.tree.tids.contains t) || s.replies.any (fun q => q.tree.tids.contains t)
    || s.remote.any (fun q => match q.use with
      | .store (some x) _ _ _ => x = t
      | .atomic _ _ _ _ tree => tree.tids.contains t
      | _ => false)
    || (match s.thread? t with
        | some th => th.board.any (fun o => match o.awaits with
          | .atomic _ => true
          | .remote _ => true
          | _ => false)
        | none => false)

/-- Whether the cell's published stores to peers are still unacknowledged. -/
def publishedOpen (s : State) (cell : Nat) : Bool :=
  s.remote.any (fun q => match q.use with
    | .store none _ c _ => c = cell
    | _ => false)

/-- FENCE: bit 0 of FN acquires, bit 1 releases; the release first. -/
def semFence (f : Mem) : LaneSem := fun r s =>
  let sc := f.opt.toNat / 2 % 8
  if accessesOpen s r.t then .stall s
  else
    match (if tb f.fn.toNat 1 then releaseWaits s r.t.cell sc else none) with
    | some s => .stall s
    | none =>
    let s := if tb f.fn.toNat 1 then releaseAt s r.t.cell sc else s
    if tb f.fn.toNat 1 && decide (sc ≥ 2) && publishedOpen s r.t.cell then .stall s
    else .done (if tb f.fn.toNat 0 then acquireAt s r.c.core sc else s) {}

/-! ## Monitors (R240, R241) -/

/-- Monitor entries in use on a core, a thread's own aside. -/
def monitorsUsed (s : State) (core : Nat) (t : Tid) : Nat :=
  ((s.cells.filter (fun c => c.core = core && c.place = .core)).map (fun c =>
    ((List.range c.squads.length).zip c.squads |>.map (fun q =>
      ((List.range q.2.threads.length).zip q.2.threads |>.filter (fun th => th.2.mon.isSome && ⟨c.id, q.1, th.1⟩ ≠ t)).length)).sum)).sum

/-- MONARM (R240): with one of the core's 64 entries free, the block's monitor is armed and replaces an old one. -/
def semMonarm (f : Mem) : LaneSem := fun r s =>
  memGlobal r s f needMonitor 1 (fun a =>
    let s := markPages s false a.pages
    if monitorsUsed s r.c.core r.t ≥ 64 then .done s (writeV f.d 0)
    else .done (s.modThread r.t (fun th => { th with mon := some ⟨a.blocks.headD 0, a.pages, false, 0, 0, false⟩ })) (writeV f.d 1))

/-- MONWAIT (R241): a fired monitor, one that a sector reset has ended (R458), none, or a timeout of 0 return at once; otherwise the thread sleeps. -/
def semMonwait (f : Mem) : LaneSem := fun r s =>
  let free (s : State) : State := s.modThread r.t (fun th => { th with mon := none })
  let c := (r.x32 (src f.c)).toNat
  match (s.thread? r.t).bind Thread.mon with
  | none => .done s (writeV f.d 2)
  | some m =>
    if m.fired then .done (free s) (writeV f.d 1)
    else if m.ended then .done (free s) (writeV f.d 3)
    else if c = 0 then .done (free s) (writeV f.d 0)
    else .ok (s.modThread r.t (fun th => { th with mon := some { m with since := s.clk, timeout := c } })) {} (.wait (.monitor f.d (r.tainted (.mem 0x90 f)))) .done

/-- MONWAIT_TIMEOUT (R241): a sleep of C clocks ends with status 0. -/
def execMonwaitTimeout (t : Tid) (s : State) : Host.Outcome State Fault Refusal :=
  .next (match s.thread? t with
    | some th =>
      match th.wait, th.mon with
      | some (.monitor d taint), some m => if s.clk - m.since ≥ m.timeout then s.modThread t (fun th => th.endMonwait d taint 0 s.clk) else s
      | _, _ => s
    | none => s)

/-- LD (R219, R220). -/
def execLd (f : Mem) (s : State) : Host.Outcome State Fault Refusal := issue { form := .mem 0x80 f, sem := semLd f } s
/-- ST (R219, R220). -/
def execSt (f : Mem) (s : State) : Host.Outcome State Fault Refusal := issue { form := .mem 0x81 f, sem := semSt f } s
/-- LDS (R219). -/
def execLds (f : Mem) (s : State) : Host.Outcome State Fault Refusal := issue { form := .mem 0x82 f, sem := semLds f } s
/-- STS (R219). -/
def execSts (f : Mem) (s : State) : Host.Outcome State Fault Refusal := issue { form := .mem 0x83 f, sem := semSts f } s
/-- LDW (R219). -/
def execLdw (f : Mem) (s : State) : Host.Outcome State Fault Refusal := issue { form := .mem 0x84 f, sem := semLdw f } s
/-- STW (R219). -/
def execStw (f : Mem) (s : State) : Host.Outcome State Fault Refusal := issue { form := .mem 0x85 f, sem := semStw f } s
/-- ULD (R221). -/
def execUld (f : Mem) (s : State) : Host.Outcome State Fault Refusal := issue { form := .mem 0x86 f, sem := semUld f } s
/-- UST (R221): a uniform step that writes no register. -/
def execUst (f : Mem) (s : State) : Host.Outcome State Fault Refusal := issue { form := .mem 0x87 f, sem := semUst f } s
/-- PREF (R222). -/
def execPref (f : Mem) (s : State) : Host.Outcome State Fault Refusal := issue { form := .mem 0x88 f, sem := semPref f } s
/-- FENCE (R223). -/
def execFence (f : Mem) (s : State) : Host.Outcome State Fault Refusal := issue { form := .mem 0x89 f, sem := semFence f } s
/-- MONARM (R240). -/
def execMonarm (f : Mem) (s : State) : Host.Outcome State Fault Refusal := issue { form := .mem 0x8F f, sem := semMonarm f } s
/-- MONWAIT (R241). -/
def execMonwait (f : Mem) (s : State) : Host.Outcome State Fault Refusal := issue { form := .mem 0x90 f, sem := semMonwait f } s

end Sys2Proof.Machine
end

