-- ==== Sys2Proof/Machine/Atomic.lean ====
section
/-! DEFINITION. Fetch-and-operate, combining, batched ordered atomics and film accumulation (R224–R239). -/
namespace Sys2Proof.Machine
open Sys2Proof

/-! ## Operations at the home (R224–R226) -/

def faddBits (a b : Nat) : Nat := (faddV fp32 (unpack fp32 a) (unpack fp32 b)).1
def fsubBits (a b : Nat) : Nat := (faddV fp32 (unpack fp32 a) (fneg (unpack fp32 b))).1

/-- new(old, c) of R224 at W bits. -/
def atomNew (op : Nat) (wide : Bool) (old c : Dword) : Dword :=
  let w := if wide then 64 else 32
  let x := old.toNat % 2 ^ w
  let y := c.toNat % 2 ^ w
  let pick (b : Bool) : Nat := if b then x else y
  dword (match op with
    | 0 => (x + y) % 2 ^ w
    | 1 => x &&& y
    | 2 => x ||| y
    | 3 => x ^^^ y
    | 4 => pick (toSigned w x ≤ toSigned w y)
    | 5 => pick (toSigned w x ≥ toSigned w y)
    | 6 => pick (x ≤ y)
    | 7 => pick (x ≥ y)
    | 8 => y
    | _ => faddBits x y)

def atomBytes (wide : Bool) : Nat := if wide then 8 else 4

/-- The value at a home location. -/
def homeValue (s : State) (l : Loc) (n : Nat) : Dword := dword (leNat ((List.range n).map (fun i => readLoc s (l.add i))))

/-- A value written at a home location by parties of some cores: monitors fire, pages become dirty, and those cores drop their lines of it. -/
def homePut (s : State) (l : Loc) (n : Nat) (x : Dword) (pages : List (Nat × Nat)) (cores : List Nat) : State :=
  let ls := (List.range n).map l.add
  let s := writeHome s (ls.zip (leBytes n x.toNat))
  let s := markPages s true pages
  cores.foldl (fun s c => dropWords s c (ls.map (fun x => x.key / 4))) s

/-- One operation performed at its home: the old value, and the memory after it. A CAS that fails writes nothing (R225) (DEDUCED, log entry 12). -/
def performAt (s : State) (op : Nat) (wide : Bool) (l : Loc) (cas : Option (Dword × Dword)) (c : Dword)
    (pages : List (Nat × Nat)) (cores : List Nat) : Dword × State :=
  let n := atomBytes wide
  let old := homeValue s l n
  match cas with
  | some (cmp, new) => (old, if old = cmp then homePut s l n new pages cores else markPages s false pages)
  | none => (old, homePut s l n (atomNew op wide old c) pages cores)

/-! ## Combining (R230, R231) -/

/-- The operand of a tree: that of its halves, the lower first; a swap's is the higher's. -/
def AtomTree.combined (op : Nat) (wide : Bool) : AtomTree → Dword
  | .leaf _ _ x => x
  | .node _ a b => atomNew op wide (a.combined op wide) (b.combined op wide)

/-- The order key of a thread's request (R231). -/
def orderKey (s : State) (t : Tid) (c : Cell) (q : Squad) : Nat :=
  (((s.rank * 2 ^ 10 + c.core) * 4 + q.partition) * 32 + t.lane) * 64 + q.slot

/-- A sector's place on the ring of six stops, and the sector at a place (R14). -/
def ringPlace (sector : Nat) : Nat := if sector < 3 then sector else 8 - sector
def ringSector (place : Nat) : Nat := if place % 6 < 3 then place % 6 else 8 - place % 6

/-- The ring stops from one sector to another, the shorter way round and clockwise when the two are equal (R14). -/
def ringStops (a b : Nat) : List Point :=
  let d := (ringPlace b + 6 - ringPlace a) % 6
  if d ≤ 3 then (List.range (d + 1)).map (fun i => .stop (ringSector (ringPlace a + i)))
  else (List.range (7 - d)).map (fun i => .stop (ringSector (ringPlace a + 6 - i)))

/-- The combining points between a core and a location's home slice, or the peer that holds it (R14, R16, R24). -/
def pathFrom (core : Nat) (l : Loc) : List Point :=
  let h := homeSlice l
  match l with
  | .remote _ _ _ _ => .lsu core :: ringStops (core / 24) 0 ++ [.egress]
  | _ => if h / 8 = core / 24 then [.lsu core, .port (h / 8) h] else .lsu core :: ringStops (core / 24) (h / 8) ++ [.port (h / 8) h]

/-- The combining points between the link switch and a home slice (R16, R24). -/
def pathIn (l : Loc) : List Point := .ingress :: ringStops 0 (homeSlice l / 8) ++ [.port (homeSlice l / 8) (homeSlice l)]

/-- Whether a request may combine (R230): ATOM or RED of the ops 0 to 8. -/
def AtomReq.combines (q : AtomReq) : Bool := q.cas.isNone && decide (q.op ≤ 8)

/-- The conditions of R230 on a pair that stands at one point. -/
def AtomReq.partner (a b : AtomReq) : Bool :=
  a.combines && b.combines && a.op = b.op && a.wide = b.wide && a.loc = b.loc && a.ctx = b.ctx && !a.path.isEmpty && a.path.head? = b.path.head?

/-- The entries of a point's split buffer that a tree's combinations hold (R230, R231). -/
def AtomTree.entries (p : Point) : AtomTree → Nat
  | .leaf _ _ _ => 0
  | .node x a b => (if x = p then 1 else 0) + a.entries p + b.entries p

/-- Entries of a point's split buffer in use: those of requests and of replies that have not passed it (R230, R231, R236). -/
def splitUsed (s : State) (p : Point) : Nat :=
  (s.reqs.map (fun q => q.tree.entries p)).sum + (s.replies.map (fun q => q.tree.entries p)).sum
    + (s.remote.map (fun r => match r.use with
      | .atomic _ _ _ _ t => t.entries p
      | _ => 0)).sum
    + (s.terms.map (fun q => q.entries.count p)).sum + (s.batches.map (fun b => b.entries.count p)).sum

/-- Whether a point's split buffer of 64 entries has one free. -/
def splitFree (s : State) (p : Point) : Bool := decide (splitUsed s p < 64)

/-- Two requests as one at a point, which carries the lower key. -/
def AtomReq.merge (p : Point) (a b : AtomReq) : AtomReq :=
  let (lo, hi) := if a.key ≤ b.key then (a, b) else (b, a)
  { lo with operand := atomNew lo.op lo.wide lo.operand hi.operand, tree := .node p lo.tree hi.tree, since := min a.since b.since,
            pages := lo.pages ++ hi.pages.filter (fun x => !lo.pages.contains x) }

/-- A request that no combining point holds any more: at its home it stands to be performed; a peer's goes out, and the peer's answer is
awaited (R242, R414). -/
def leavePoints (s : State) (q : AtomReq) : State :=
  match q.loc with
  | .remote p c i o =>
    sendRemote s p c i o (match q.cas with
      | some (x, y) => .cas q.wide x y
      | none => .atomic (BitVec.ofNat 4 q.op) q.wide q.operand) (.atomic q.op q.wide q.loc q.key q.tree)
  | _ => { s with reqs := s.reqs ++ [q] }

/-- A request arrives at the point it names first: with a partner present, and an entry of the split buffer free, the two go on as one
(DEDUCED, log entry 37). -/
def arriveReq (s : State) (q : AtomReq) : State :=
  match q.path with
  | [] => leavePoints s q
  | p :: _ =>
    match s.reqs.find? (AtomReq.partner q) with
    | some x => if splitFree s p then { s with reqs := s.reqs.map (fun y => if y.id == x.id then q.merge p x else y) } else { s with reqs := s.reqs ++ [q] }
    | none => { s with reqs := s.reqs ++ [q] }

/-- How long a request waits for a partner at its point: the window of its context, or not at all with no entry free (R230). -/
def windowOfPoint (s : State) (ctx : Nat) (path : List Point) : Nat :=
  if path.head?.any (splitFree s) then ((s.ctx? ctx).map (·.combwin)).getD 0 else 0

/-! ## Combining of batch terms (R232, R236) -/

/-- The node that a node of a lattice tree of n terms is: an odd survivor is the node above it (R45). -/
def survivor : Nat → Nat → Nat → Nat → Nat × Nat
  | 0, _, level, index => (level, index)
  | fuel + 1, n, level, index =>
    let width := (n + 2 ^ level - 1) / 2 ^ level
    if width > 1 && index % 2 = 0 && index + 1 = width then survivor fuel n (level + 1) (index / 2) else (level, index)

/-- Whether two batch requests at one point carry the sums of the left and the right child of one node of their batch's tree (R236). -/
def TermReq.siblings (a b : TermReq) : Bool :=
  match a.terms, b.terms with
  | x :: _, y :: _ =>
    x.ctx = y.ctx && x.loc = y.loc && x.batch = y.batch && x.count = y.count && x.fadd = y.fadd && x.wide = y.wide
      && !a.path.isEmpty && a.path.head? = b.path.head? && decide (x.key < x.count) && decide (y.key < y.count)
      && a.level = b.level && a.index / 2 = b.index / 2 && a.index ≠ b.index
  | _, _ => false

/-- The batch's addition (R232). -/
def batchAdd (fadd wide : Bool) (a b : Dword) : Dword := atomNew (if fadd then 9 else 0) wide a b

/-- Two batch requests as one at a point, which carries their node's sum (R236). -/
def TermReq.merge (p : Point) (a b : TermReq) : TermReq :=
  let (lo, hi) := if a.index ≤ b.index then (a, b) else (b, a)
  match lo.terms with
  | [] => lo
  | x :: _ =>
    let up := survivor 24 x.count (lo.level + 1) (lo.index / 2)
    { lo with level := up.1, index := up.2, sum := batchAdd x.fadd x.wide lo.sum hi.sum, terms := lo.terms ++ hi.terms,
              since := min lo.since hi.since, entries := lo.entries ++ hi.entries ++ [p] }

/-- A batch request arrives at the point it names first. -/
def arriveTerm (s : State) (q : TermReq) : State :=
  match q.path with
  | [] => { s with terms := s.terms ++ [q] }
  | p :: _ =>
    match s.terms.find? (TermReq.siblings q) with
    | some x => if splitFree s p then { s with terms := s.terms.map (fun y => if y.id == x.id then q.merge p x else y) } else { s with terms := s.terms ++ [q] }
    | none => { s with terms := s.terms ++ [q] }

/-- COMBINE_TIMEOUT (R230): a request that has waited csr.combwin clocks goes on to its next point. -/
def execCombineTimeout (req : Nat) (s : State) : Host.Outcome State Fault Refusal :=
  .next (match s.reqs.find? (fun q => q.id == req), s.terms.find? (fun q => q.id == req) with
    | some q, _ =>
      if q.path.isEmpty || s.clk - q.since < windowOfPoint s q.ctx q.path then s
      else arriveReq { s with reqs := s.reqs.filter (fun x => x.id ≠ req) } { q with path := q.path.drop 1, since := s.clk }
    | none, some q =>
      if q.path.isEmpty || s.clk - q.since < windowOfPoint s ((q.terms.head?.map (·.ctx)).getD 0) q.path then s
      else arriveTerm { s with terms := s.terms.filter (fun x => x.id ≠ req) } { q with path := q.path.drop 1, since := s.clk }
    | none, none => s)

/-- The cores of a tree's threads. -/
def treeCores (s : State) (t : AtomTree) : List Nat := dedup (t.tids.map (fun x => coreOf s x.cell))

/-- A request performed at its home, whose reply sets out. -/
def performReq (s : State) (q : AtomReq) : State :=
  let x := performAt { s with reqs := s.reqs.filter (fun y => y.id ≠ q.id) } q.op q.wide q.loc q.cas q.operand q.pages (treeCores s q.tree)
  { x.2 with replies := x.2.replies ++ [⟨q.id, q.op, q.wide, q.loc, x.1, q.tree⟩] }

/-- ATOMIC_PERFORM (R224, R225): a request at its home. -/
def execAtomicPerform (req : Nat) (s : State) : Host.Outcome State Fault Refusal :=
  .next (match s.reqs.find? (fun q => q.id == req) with
    | some q => if q.path.isEmpty then performReq s q else s
    | none => s)

/-- The registers of a value at width W. -/
def wideRegs (d : Code) (wide : Bool) (x : Dword) : List (Nat × Word) :=
  if wide then [(d.toNat, lo32 x), (d.toNat + 1, hi32 x)] else [(d.toNat, lo32 x)]

/-- A long-latency result arrives in a thread that has not exited: its registers are written and its scoreboard entry retires. -/
def Thread.receive (th : Thread) (aw : Awaits) (w : Writes) (taint : Bool) : Thread :=
  if th.state = .exited then th
  else
    let board := (th.board.map (fun o => if o.awaits = aw then { o with awaits := .done } else o)).filter (fun o => o.window ≠ 0 || o.awaits ≠ .done)
    { th.apply w taint with board := board }

/-! ## Immediate accesses at their homes (R217, R220, R440) -/

/-- The blocks that the accesses of one issue cover together with some: those of each access that covers one of them, and so on. -/
def joinBlocks (l : List LateAccess) : Nat → List Nat → List Nat
  | 0, bs => bs
  | n + 1, bs => joinBlocks l n (dedup (bs ++ (l.filter (fun e => e.access.blocks.any bs.contains)).flatMap (fun e => e.access.blocks)))

/-- What a home performs in one with an access: the accesses of the bundle's other threads to its blocks, in ascending lanes (R217). -/
def lateGroup (s : State) (e : LateAccess) : List LateAccess :=
  let l := s.late.filter (fun x => x.issue = e.issue)
  let bs := joinBlocks l l.length e.access.blocks
  l.filter (fun x => x = e || x.access.blocks.any bs.contains)

/-- One immediate access performed at its home: a store's bytes stand there; a load's are written and its scoreboard entry retires. -/
def performOne (s : State) (e : LateAccess) : State :=
  match e.use with
  | .store data => immWrite s e.t e.access data
  | .load d signed taint _ =>
    let x := homeRead s (some e.t.cell) e.access
    x.2.modThread e.t (fun th => th.receive (.late e.id) (loadWrites d false signed x.1) taint)

/-- An access performed at its home, with those of its issue that it is one access with. -/
def performLate (s : State) (e : LateAccess) : State :=
  let g := lateGroup s e
  g.foldl performOne { s with late := s.late.filter (fun x => !g.contains x) }

/-- The same of each access in turn, where another has not taken it along. -/
def performLates (s : State) (l : List LateAccess) : State := l.foldl (fun s e => if s.late.contains e then performLate s e else s) s

/-- What follows once a peer has answered one lane of an issue: its squad's turn (R229) and its nested causes (R355) are settled with the last. -/
def settleHeld (s : State) (t : Tid) (performed : Bool) : State := settleSquad (settleTurn s t performed) t.cell t.squad

/-- A lane that has performed counts in the progress words of its issue's records (R365). -/
def addProgress (s : State) (t : Tid) (issue : Nat) : State :=
  s.modSquad t.cell t.squad (fun q => { q with collected := q.collected.map (fun r =>
    if r.issue = issue then { r with progress := r.progress ||| (1#64 <<< t.lane) } else r) })

/-- A thread held for a peer's answer: the effect of the answer, registers that hold a value of their own (R91), and the thread goes on after
its instruction (R347), counted among the lanes that performed it (R365). -/
def finishHeld (s : State) (t : Tid) (id : Nat) (w : Writes) (taint : Bool) (pops : List Nat) : State :=
  match s.thread? t with
  | none => s
  | some th =>
    if th.wait ≠ some (.remote id) then s
    else
      let s := s.modThread t (fun th => (((th.receive (.remote id) w taint).popQueues pops).goTo th.npc s.clk))
      settleHeld (addProgress (s.modSquad t.cell t.squad (fun q => q.untag (w.v.map (·.1)))) t th.waitAt) t true

/-- A thread whose access the peer refused stops at its instruction, its scoreboard entry gone, on the cause that the peer named, as one of
its issue's threads (R347, R353, R406); the records of that issue count it among those that stopped (R365). -/
def refuseHeld (s : State) (t : Tid) (id : Nat) (ref : Dword) (c : Cause) : State :=
  match s.thread? t with
  | none => s
  | some th =>
    if th.wait ≠ some (.remote id) then s
    else
      let s := s.modThread t (fun th => { th with board := th.board.filter (fun o => o.awaits ≠ .remote id), wait := none })
      let s := raiseAt s th.waitAt t c ref 0 0
      let s := match s.squad? t.cell t.squad with
      | none => s
      | some q =>
        let open' (l : Nat) : Bool := match q.threads[l]? with
          | some x => x.waitAt = th.waitAt && (match x.wait with
            | some (.remote _) => true
            | _ => false)
          | none => false
        let stopped : BitVec 32 := (q.collected.filter (fun r => r.issue = th.waitAt)).foldl (fun m r => m ||| r.lanes) 0
        let waiting : BitVec 32 := (List.range 32).foldl (fun m l => if open' l then m ||| (1#32 <<< l) else m) 0
        let word : Dword := hi32 th.waitLanes ++ (lo32 th.waitLanes &&& ~~~(stopped ||| waiting))
        s.modSquad t.cell t.squad (fun q => { q with collected := q.collected.map (fun r => if r.issue = th.waitAt then { r with progress := word } else r) })
      settleHeld s t false

/-- A reply to a peer's request leaves; a write's or an atomic's enters the replay filter (R242, R415). -/
def respond (s : State) (r : PeerRequest) (data : List Byte) (cause : Nat) : State :=
  let s := if opOrdered r.op then { s with filter := s.filter ++ [⟨r.src, r.port, r.tag, data, cause, s.clk⟩] } else s
  s.emit (.response r.src ⟨r.port, r.tag, data, cause⟩)

/-- A reply reaches whoever made the request (R224, R242): D is written and the atomic retires; a RED has its acknowledgement; a peer is
answered. -/
def deliverAtom (s : State) (id : Nat) (who : AtomWho) (wide : Bool) (v : Dword) : State :=
  match who with
  | .peer r => respond s r (leBytes (atomBytes wide) v.toNat) 0
  | .thread t d _ taint pops =>
    let w : Writes := match d with
      | some d => { v := wideRegs d wide v }
      | none => {}
    if (s.thread? t).any (fun th => th.wait = some (.remote id)) then finishHeld s t id w taint pops
    else if d.isSome then s.modThread t (fun th => th.receive (.atomic id) w taint) else s

/-- A peer's refusal reaches every request that a tree combines (R242, R406). -/
def refuseTree (c : Cause) : State → AtomTree → State
  | s, .leaf id (.thread t _ ref _ _) _ => refuseHeld s t id ref c
  | s, .leaf _ (.peer r) _ => respond s r [] c.code
  | s, .node _ a b => refuseTree c (refuseTree c s a) b

/-- REPLY_SPLIT (R231): at each combining point the lower half receives the value and the higher the value after the lower's operand. -/
def execReplySplit (reply : Nat) (s : State) : Host.Outcome State Fault Refusal :=
  .next (match s.replies.find? (fun q => q.id == reply) with
    | none => s
    | some q =>
      let s := { s with replies := s.replies.filter (fun x => x.id ≠ reply) }
      match q.tree with
      | .leaf id who _ => deliverAtom s id who q.wide q.value
      | .node _ a b =>
        let hi := atomNew q.op q.wide q.value (a.combined q.op q.wide)
        { s with nextId := s.nextId + 1,
                 replies := s.replies ++ [AtomReply.mk q.id q.op q.wide q.loc q.value a, AtomReply.mk s.nextId q.op q.wide q.loc hi b] })

/-! ## ATOM, RED and CAS (R224–R229) -/

/-- Whether a strict kernel refuses an atomic as of class N (R229); `kind` is the opcode. -/
def detAtomic (strict : Bool) (kind fn sc : Nat) : Bool :=
  strict && ((kind ≠ 0x8C && fn = 9) || (sc > 1 && (kind ≠ 0x8D || fn = 8)))

/-- One thread's atomic: refused, sent to the peer, performed in its turn (R229), or sent towards the home. -/
def semAtomic (kind : Nat) (f : Mem) : LaneSem := fun r s =>
  let wide := tb f.opt.toNat 0
  let sc := f.opt.toNat / 2 % 8
  let op := f.fn.toNat
  let c := src f.c
  let two (i : Nat) : Dword := if wide then r.vreg c (i + 1) ++ r.vreg c i else (r.vreg c i).setWidth 64
  let cas : Option (Dword × Dword) := if kind = 0x8C then some (two 0, two (if wide then 2 else 1)) else none
  let operand : Dword := if kind = 0x8C then 0 else dword (r.x wide c)
  let d : Option Code := if kind = 0x8D then none else some f.d
  let taint := r.tainted (.mem kind f)
  if detAtomic r.c.strict kind op sc then .cause .detViolation none 2 0
  else
    memGlobal r s f needAtomic (atomBytes wide) (fun a =>
      let id := s.nextId
      let l := ((a.store.head?).map (·.2)).getD (.dev 0)
      let who : AtomWho := .thread r.t d (faultAddr (r.x64 f.a) (r.memOff f)) taint r.pops
      let q : AtomReq := ⟨id, r.c.ctx, op, wide, l, cas, operand, orderKey s r.t r.c r.q,
        if cas.isSome || op = 9 then [] else pathFrom r.c.core l, s.clk, a.pages, .leaf id who operand⟩
      if s.replies.any (fun p => p.loc = l && p.tree.tids.contains r.t) then .stall s
      else if a.isRemote then .ok (arriveReq { s with nextId := id + 1 } q) {} (.hold (.remote id)) (.remote id)
      else if r.c.strict && sc = 1 && (kind ≠ 0x8D || op = 8) then
        let x := performAt s op wide l cas operand a.pages [r.c.core]
        .done x.2 (match d with
          | some d => { v := wideRegs d wide x.1 }
          | none => {})
      else .ok (arriveReq { s with nextId := id + 1 } q) {} .next (.atomic id))

/-- ATOM (R224). -/
def execAtom (f : Mem) (s : State) : Host.Outcome State Fault Refusal := issue { form := .mem 0x8A f, sem := semAtomic 0x8A f } s
/-- CAS (R225). -/
def execCas (f : Mem) (s : State) : Host.Outcome State Fault Refusal := issue { form := .mem 0x8C f, sem := semAtomic 0x8C f } s
/-- RED (R224). -/
def execRed (f : Mem) (s : State) : Host.Outcome State Fault Refusal := issue { form := .mem 0x8D f, sem := semAtomic 0x8D f } s

/-! ## Batched ordered atomics (R232–R236) -/

/-- ATOMB: the term sets out, and D and the guard predicate are pending (R235). -/
def semAtomb (f : Mem) : LaneSem := fun r s =>
  let wide := tb f.opt.toNat 0
  let b := (r.x64 f.b).toNat
  memGlobalAt r s f f.disp.toInt needHomeAtomic (atomBytes wide) (fun a =>
    let l := ((a.store.head?).map (·.2)).getD (.dev 0)
    let x : Term := ⟨s.nextId, r.t, r.c.core, r.c.ctx, l, b % 2 ^ 16, b / 2 ^ 16 % 2 ^ 24, b / 2 ^ 40, f.fn = 1, wide,
      dword (r.x wide (src f.c)), f.d, f.g.p.toNat, r.tainted (.mem 0x8B f), a.pages⟩
    let node := survivor 24 x.count 0 x.key
    .ok (arriveTerm { s with nextId := s.nextId + 1 }
      ⟨s.nextId, node.1, node.2, x.value, [x], pathFrom r.c.core l, s.clk, []⟩) {} .next .batch)

/-- ATOMB (R232): the guard predicate is written as well. -/
def execAtomb (f : Mem) (s : State) : Host.Outcome State Fault Refusal :=
  issue { form := .mem 0x8B f, xw := [.p f.g.p.toNat], sem := semAtomb f } s

/-- Replies to some terms: a value by key, or the abort. -/
def sendReplies (s : State) (ts : List Term) (v : Term → Option Dword) : State :=
  ts.foldl (fun s t => { s with nextId := s.nextId + 1, batchReplies := s.batchReplies ++ [⟨s.nextId, t.t, v t, t.wide, t.d, t.p, t.taint⟩] }) s

/-- The fault record of an aborted batch (R365). -/
def abortRecord (s : State) (ctx batch terms count : Nat) : State :=
  writeRecord s ctx ⟨5, 0, 0, 0, 0xFFFF, 0, 0xFF, 0, 0, 0, 0, 0, 0, dword (batch + terms % 2 ^ 24 * 2 ^ 16 + count * 2 ^ 40)⟩

/-- A batch aborts (R234) with the terms it has received: memory unchanged, every contributor told, a record written (DESIGN CHOICE, log entry 38). -/
def abortBatch (s : State) (b : Batch) : State :=
  sendReplies (abortRecord { s with batches := s.batches.filter (fun x => x.id ≠ b.id) } b.ctx b.batch b.terms.length b.count)
    b.terms (fun _ => none)

/-- Whether a term is one of a batch's (R232). -/
def Batch.of (b : Batch) (t : Term) : Bool := b.ctx = t.ctx && b.loc = t.loc && b.batch = t.batch

/-- The batch that a first term opens. -/
def Batch.opened (id : Nat) (t : Term) (now : Nat) : Batch := ⟨id, t.ctx, t.loc, t.batch, t.count, t.fadd, t.wide, [], now, [], []⟩

/-- A batch with the terms of a request. -/
def Batch.gain (b : Batch) (q : TermReq) (now : Nat) : Batch :=
  { b with terms := b.terms ++ q.terms, lastAt := now, entries := b.entries ++ q.entries,
           pages := q.terms.foldl (fun l t => l ++ t.pages.filter (fun p => !l.contains p)) b.pages }

/-- The batches open on a page abort, with the terms on their way to it (R234, R400). -/
def settleTerms (s : State) (root page : Nat) : State :=
  let flying (q : TermReq) : Bool := q.terms.any (fun t => t.pages.contains (root, page))
  let gather (s : State) (q : TermReq) : State :=
    match q.terms with
    | [] => s
    | t :: _ =>
      match s.batches.find? (fun b => b.of t) with
      | some b => { s with batches := s.batches.map (fun x => if x.id == b.id then b.gain q s.clk else x) }
      | none => { s with nextId := s.nextId + 1, batches := s.batches ++ [(Batch.opened s.nextId t s.clk).gain q s.clk] }
  let s := (s.terms.filter flying).foldl gather { s with terms := s.terms.filter (fun q => !flying q) }
  (s.batches.filter (fun b => b.pages.contains (root, page))).foldl abortBatch s

/-- A frame's pages are POISONED, and the batches open there abort (R398, R234); a brine image that cannot be read is lost. -/
def poisonFrame (s : State) (frame : Nat) : State :=
  let hit (p : PageEntry) : Bool := decide (p.ilv ≠ 4) && ((p.state = .resident && p.loc = frame) || (p.state = .migrating && !p.inImage && p.loc = frame)
    || (p.state = .expanding && p.target = some frame))
  let ps := s.pages.filter hit
  let s := ps.foldl (fun s p =>
    let s := settleTerms s p.root p.page
    s.modPage p.root p.page (fun q => { q with state := .poisoned, loc := frame, target := none, inImage := false })) s
  let s := { s with brine := s.brine.filter (fun (b : BrineImage) => !ps.any (fun (p : PageEntry) => decide (p.state = PageState.expanding) && p.loc == b.addr)) }
  { s with upsets := s.upsets.filter (fun u => !(u.spoils.any (fun x => decide (x.1 / 2 ^ 17 * 2 ^ 17 = frame)))) }

/-- The memory port or the slice finds an uncorrectable error in a frame: its pages are POISONED and a record of KIND 2 is written (R398, R461). -/
def poison (s : State) (frame : Nat) : State :=
  let x := (spoiltFrame s frame).getD (frame, 0x140 + frame / 2 ^ 36)
  report (poisonFrame s frame) x.2 2 x.1

/-- The frame of a location that holds an uncorrectable error which nothing has met yet (R461). -/
def badFrame (s : State) (l : Loc) : Option Nat :=
  match l with
  | .dev pa => if (spoiltFrame s (pa / 2 ^ 17 * 2 ^ 17)).isSome then some (pa / 2 ^ 17 * 2 ^ 17) else none
  | _ => none

/-- The root completes (R233): one step on the location, and a prefix to every contributor; an uncorrectable error met there poisons the page
and aborts the batch (R234). -/
def completeBatch (s : State) (b : Batch) : State :=
  match badFrame s b.loc with
  | some frame => poison s frame
  | none =>
    let xs := (List.range b.count).map (fun k => ((b.terms.find? (fun t => t.key = k)).map (·.value)).getD 0)
    let n := atomBytes b.wide
    let add := batchAdd b.fadd b.wide
    let v := homeValue s b.loc n
    let s := homePut { s with batches := s.batches.filter (fun x => x.id ≠ b.id) } b.loc n (add v (lattice add 0 xs)) b.pages
      (dedup (b.terms.map (·.core)))
    sendReplies s b.terms (fun t => some (add v (latticePrefix add 0 xs t.key)))

/-- BATCH_TERM_ARRIVAL (R233, R234): the terms of a request join their batch, open one where the slice has an entry free, abort it, or wait. -/
def execBatchTermArrival (term : Nat) (s : State) : Host.Outcome State Fault Refusal :=
  .next (match s.terms.find? (fun q => q.id == term) with
    | none => s
    | some q =>
      match q.terms with
      | [] => s
      | t :: _ =>
        let s' := { s with terms := s.terms.filter (fun x => x.id ≠ term) }
        let bad (b : Batch) : Bool := b.count ≠ t.count || b.fadd != t.fadd || b.wide != t.wide || t.key ≥ t.count
          || q.terms.any (fun y => b.terms.any (fun x => x.key = y.key))
        let join (s : State) (b : Batch) : State :=
          let b := b.gain q s.clk
          let s := { s with batches := s.batches.map (fun x => if x.id == b.id then b else x) }
          if b.terms.length = b.count then completeBatch s b else s
        if !q.path.isEmpty then s
        else
          match s.batches.find? (fun b => b.of t) with
          | some b => if bad b then abortBatch s' (b.gain q s.clk) else join s' b
          | none =>
            if t.key ≥ t.count then sendReplies (abortRecord s' t.ctx t.batch q.terms.length t.count) q.terms (fun _ => none)
            else if (s.batches.filter (fun b => homeSlice b.loc = homeSlice t.loc)).length ≥ 32 then s
            else
              let b := Batch.opened s'.nextId t s'.clk
              join { s' with nextId := s'.nextId + 1, batches := s'.batches ++ [b] } b)

/-- BATCH_TIMEOUT (R234): csr.batchto clocks without a term abort the batch. -/
def execBatchTimeout (batch : Nat) (s : State) : Host.Outcome State Fault Refusal :=
  .next (match s.batches.find? (fun b => b.id == batch) with
    | some b =>
      let limit := ((s.ctx? b.ctx).map (·.batchto)).getD 0
      if s.clk - b.lastAt ≥ limit then abortBatch s b else s
    | none => s)

/-- A batch reply arrives (R233–R235): D and the guard predicate, or the predicate false. -/
def Thread.receiveBatch (th : Thread) (b : BatchReply) (now : Nat) : Thread :=
  if th.state = .exited then th
  else
    let regs := match b.value with
      | some x => if isV b.d then wideRegs b.d b.wide x else []
      | none => []
    let own : List Reg := (if isV b.d then (List.range (wreg b.wide)).map (fun i => Reg.v (b.d.toNat + i)) else []) ++ [.p b.p]
    let board := (th.board.map (fun o => if o.awaits = .batch && o.writes = own then { o with awaits := .done } else o)).filter
      (fun o => o.window ≠ 0 || o.awaits ≠ .done)
    let th : Thread := { th.apply { v := regs, p := [(b.p, b.value.isSome)] } b.taint with board := board }
    th.endWait (· = .reply) false false now

/-- BATCH_REPLY (R235). -/
def execBatchReply (reply : Nat) (s : State) : Host.Outcome State Fault Refusal :=
  .next (match s.batchReplies.find? (fun b => b.id == reply) with
    | none => s
    | some b => ({ s with batchReplies := s.batchReplies.filter (fun x => x.id ≠ reply) }).modThread b.t (fun th => th.receiveBatch b s.clk))

/-! ## Film accumulation (R238, R239) -/

/-- The compensated addition of R238 on a pair of FP32 values. -/
def filmAdd (sum comp x : Nat) : Nat × Nat :=
  let s1 := faddBits sum x
  let mag (n : Nat) : FVal := unpack fp32 (n % 2 ^ 31)
  let e := if fltV (mag x) (mag sum) || feqV (mag x) (mag sum) then faddBits (fsubBits sum s1) x else faddBits (fsubBits x s1) sum
  (s1, faddBits comp e)

/-- FILMADD: the pair's first thread of the phase is kept, and in a strict kernel any other is refused. -/
def semFilmadd (f : Mem) : LaneSem := fun r s =>
  let x := (r.x32 (src f.c)).toNat
  memGlobal r s f needHomeAtomic 8 (fun a =>
    let l := ((a.store.head?).map (·.2)).getD (.dev 0)
    let owner := s.owners.find? (fun o => o.loc = l)
    let barred : Bool := r.c.strict && (match owner with
      | some o => decide (o.t ≠ r.t)
      | none => false)
    if barred then .cause .detViolation none 3 0
    else
      let v := (homeValue s l 8).toNat
      let y := filmAdd (v % 2 ^ 32) (v / 2 ^ 32) x
      let s := if owner.isSome then s else { s with owners := s.owners ++ [⟨l, r.t, r.c.gang, a.pages⟩] }
      .done (homePut s l 8 (dword (y.1 + 2 ^ 32 * y.2)) a.pages [r.c.core]) {})

/-- FILMADD (R238). -/
def execFilmadd (f : Mem) (s : State) : Host.Outcome State Fault Refusal := issue { form := .mem 0x8E f, sem := semFilmadd f } s

end Sys2Proof.Machine
end

