-- ==== Sys2Proof/Machine/Barrier.lean ====
section
/-! DEFINITION. Barrier slots, SYNC and PHASE (R372–R389). -/
namespace Sys2Proof.Machine
open Sys2Proof

/-! ## Slots -/

/-- The thread index that stands for none (R373). -/
def noTix : Nat := 0x7FF

/-- A slot as cell start leaves it (R373). -/
def Slot.start : Slot := ⟨.free, 0, 0, 0, 0, false, [], [], noTix, noTix, noTix, noTix, [], 0⟩

/-- An ARMED slot whose phase's conditions hold completes it (R374). -/
def Slot.settle (x : Slot) : Slot :=
  if x.state = .armed && x.arrived = x.expect && decide (x.pending = 0) then
    { x with pbit := !x.pbit, closer := x.maxtix, tlast := x.lasttix, arrived := 0, maxtix := noTix, lasttix := noTix, state := .completing,
             completed := x.completed + 1 }
  else x

/-- One arrival with its bytes on an ARMED slot (R378); a transfer processor's has no thread index. -/
def Slot.arrive (x : Slot) (tix : Option Nat) (bytes : Int) : Slot :=
  let x := { x with pending := x.pending + bytes, arrived := x.arrived + 1 }
  let x := match tix with
    | some t => { x with maxtix := if x.maxtix = noTix then t else max x.maxtix t, lasttix := t }
    | none => x
  x.settle

/-- The range of PENDING (R378). -/
def pendingOk (i : Int) : Bool := decide (-(2 ^ 47 : Int) ≤ i) && decide (i ≤ 2 ^ 47 - 1)

/-- BARINIT's new setup (R377). -/
def Slot.init (x : Slot) (e : Nat) : Slot :=
  { x with expect := e, arrived := 0, pending := 0, gen := x.gen + 1, maxtix := noTix, lasttix := noTix, state := .armed,
           pbit := if x.state = .armed then x.pbit else false }

def cellSlot? (s : State) (cell n : Nat) : Option Slot := (s.cell? cell).bind (fun c => c.slots[n]?)
def modSlot (s : State) (cell n : Nat) (f : Slot → Slot) : State := s.modCell cell (fun c => { c with slots := c.slots.modify n f })

/-- The slot a value names (R372): bits 5:0 with no higher bit set, below the cell's count. -/
def slotOf (c : Cell) (a : Nat) : Option (Nat × Slot) := if a < 64 then (c.slots[a]?).map (fun x => (a, x)) else none

/-- The thread of an index in the cell. -/
def tidOf (cell tix : Nat) : Tid := ⟨cell, tix / 32, tix % 32⟩

/-- Wakes the waiters of a slot whose wait is over (R374, R381): after a completion those whose token differs from PBIT, after
BARINV all, with closer and status false. Contexts held by XBWAIT go on and XMXM operations lose their wait. -/
def wakeWaiters (s : State) (cell n : Nat) (freed : Bool) : State :=
  match s.cell? cell, cellSlot? s cell n with
  | some c, some x =>
    let over' (token : Bool) : Bool := freed || token != x.pbit
    let ends (latest : Bool) (w : Wait) : Bool := match w with
      | .slot m token _ _ _ l => m = n && over' token && (l && !c.strict) == latest
      | _ => false
    let stays (tix : Nat) : Bool := (s.thread? (tidOf cell tix)).any (fun th => th.waitsFor (fun w => match w with
      | .slot m token _ _ _ _ => m = n && !over' token
      | _ => false))
    let wake (tix : Nat) (th : Thread) : Thread :=
      let th' := (th.endWait (ends false) (!freed && tix = x.closer) (!freed) s.clk).endWait (ends true) (!freed && tix = x.tlast) (!freed) s.clk
      { th' with release := if th.waitsFor (fun w => ends false w || ends true w) then .slot n x.completed else th.release }
    let left := x.waitmap.filter stays
    let s := x.waitmap.foldl (fun s tix => s.modThread (tidOf cell tix) (wake tix)) s
    let s := modSlot s cell n (fun y => { y with waitmap := left })
    let heldOn (xp : XpCtx) : Bool := match xp.waitOn with
      | .slot m pb => m = n && over' pb
      | _ => false
    let s := s.modCell cell (fun c => { c with xps := c.xps.map (fun xp =>
      let xp := { xp with pendmx := xp.pendmx.map (fun p => match p.wait with
        | some (m, pb) => if m = n && over' pb then { p with wait := none } else p
        | none => p) }
      if heldOn xp then { xp with waitOn := .none, state := if xp.state = .waiting then .running else xp.state } else xp) })
    modSlot s cell n (fun y => { y with xwait := y.xwait.filter (fun i => match (s.xp? ⟨cell, i⟩) with
      | some xp => (match xp.waitOn with
        | .slot m _ => m = n
        | _ => false) || xp.pendmx.any (fun p => match p.wait with
        | some (m, _) => m = n
        | none => false)
      | none => false) })
  | _, _ => s

/-- A slot is freed (R381): its waiters are woken, and the old generation's arrivals and bytes count no more. -/
def invalidate (s : State) (cell n : Nat) : State :=
  modSlot (wakeWaiters s cell n true) cell n (fun x => { x with gen := x.gen + 1, arrived := 0, pending := 0, expect := 0, state := .free })

/-- A thread whose arrival or BARINV a slot has held goes on, an arrival with its token (R374, R378). -/
def endHeld (s : State) (cell n tix : Nat) (token : Bool) : State :=
  s.modThread (tidOf cell tix) (fun th => th.endWait (fun w => match w with
    | .held m _ => m = n
    | _ => false) token true s.clk)

/-- An arrival that was held and cannot be counted raises BAR_STATE in its thread (R378, R383); one that the thread has left for the handler
meets it when the thread executes it again. -/
def failHeld (s : State) (cell n tix sub : Nat) : State :=
  let t := tidOf cell tix
  let here (w : Wait) : Bool := match w with
    | .held m _ => m = n
    | _ => false
  match s.thread? t with
  | some th =>
    if th.wait.any here then settleNested (raisePc { s with issued := s.issued + 1 } t .barState sub) cell
    else s.modThread t (fun th => if th.heldWait.any here then { th with heldWait := none } else th)
  | none => s

/-! ## Slot instructions (R376–R384) -/

/-- BAR_STATE and BAR_BUSY with their subcodes (R383). -/
def barState (n : Nat) : LaneOut := .cause .barState none n 0
def barBusy (n : Nat) : LaneOut := .cause .barBusy none n 0

/-- The slot operand in a thread, as the bundle's earlier lanes left it. -/
def slotArg (r : Rd) (s : State) (f : Ext) : Option (Nat × Slot) := (s.cell? r.t.cell).bind (fun c => slotOf c (r.x32 f.a).toNat)

def semBarinit (f : Ext) : LaneSem := fun r s =>
  match slotArg r s f with
  | none => barState 1
  | some (n, x) =>
    let b := (r.x32 f.b).toNat
    if b = 0 ∨ b ≥ 2 ^ 16 then barState 4
    else if x.state = .completing then barBusy 3
    else if !x.waitmap.isEmpty || !x.xwait.isEmpty then barBusy 1
    else if x.pending ≠ 0 then barBusy 2
    else
      let s := modSlot s r.t.cell n (fun x => x.init b)
      .done (s.modCell r.t.cell (fun c => { c with orphans := c.orphans + x.arrived })) {}

/-- The bytes of BARARV: 32 bits of a lane register, lane or tix, 64 of a k register or the literal, or a pair (R378). -/
def ararvBytes (r : Rd) (f : Ext) : Nat :=
  match f.fn.toNat with
  | 0 => 0
  | 1 => if isK f.b.code || f.b.code = cLit then (r.x64 f.b).toNat else (r.x32 f.b).toNat
  | _ => (r.vreg f.b 1 ++ r.vreg f.b 0).toNat

/-- An arrival or a BARINV that meets a COMPLETING slot is held there, and its thread waits (R374, R375) (DEDUCED, log entry 35). -/
def holdAt (r : Rd) (s : State) (n d : Nat) (h : SlotHeld) : LaneOut :=
  .ok (modSlot s r.t.cell n (fun x => { x with held := x.held ++ [h] })) {} (.wait (.held n d)) .unit

/-- BARARV (R378): a release at cell scope, so the thread's earlier accesses have been performed (R384, R438) (DEDUCED, log entry 35). -/
def semBararv (f : Ext) : LaneSem := fun r s =>
  match slotArg r s f with
  | none => barState 1
  | some (n, x) =>
    if x.state = .free then barState 2
    else if accessesOpen s r.t then .stall s
    else if x.state = .completing then holdAt r s n f.d.toNat (.arrive (tixOf r.t) (ararvBytes r f) x.gen)
    else if x.arrived = x.expect then barState 3
    else if !pendingOk (x.pending + ararvBytes r f) then barState 4
    else .done (modSlot s r.t.cell n (fun x => x.arrive (some (tixOf r.t)) (ararvBytes r f))) (writeP f.d x.pbit)

/-- A thread joins the waiters of a slot. -/
def joinSlot (s : State) (r : Rd) (n : Nat) (w : Wait) : LaneOut :=
  .ok (modSlot s r.t.cell n (fun x => { x with waitmap := x.waitmap.filter (· ≠ tixOf r.t) ++ [tixOf r.t] })) {} (.wait w) .unit

def semBarwait (f : Ext) : LaneSem := fun r s =>
  match slotArg r s f with
  | none => barState 1
  | some (n, x) =>
    let last : Bool := f.fn = 1 && !r.c.strict
    let token := r.pr f.b.code
    if x.state = .free then barState 2
    else if x.pbit ≠ token then
      .done (s.modThread r.t (fun th => { th with release := .slot n x.completed })) { p := [(f.d.toNat, decide (tixOf r.t = (if last then x.tlast else x.closer))), (f.c.code.toNat, true)] }
    else joinSlot s r n (.slot n token f.d.toNat f.c.code.toNat false last)

def semBartest (f : Ext) : LaneSem := fun r s =>
  match slotArg r s f with
  | none => barState 1
  | some (n, x) =>
    let token := r.pr f.b.code
    if x.state = .free then barState 2
    else if !r.c.strict then .done s (writeP f.d (x.pbit != token))
    else if x.pbit ≠ token then .done (s.modThread r.t (fun th => { th with release := .slot n x.completed })) (writeP f.d true)
    else joinSlot s r n (.slot n token f.d.toNat f.d.toNat true false)

def semBarinv (f : Ext) : LaneSem := fun r s =>
  match slotArg r s f with
  | none => barState 1
  | some (n, x) =>
    match x.state with
    | .free => .done s {}
    | .completing => holdAt r s n 0 (.inv (tixOf r.t))
    | .armed => .done (invalidate s r.t.cell n) {}

/-- The state word of BARQRY (R382). -/
def slotWord (x : Slot) : Nat :=
  (match x.state with
    | .free => 0
    | .armed => 1
    | .completing => 2) + (if x.pbit then 4 else 0) + x.gen.toNat * 2 ^ 8 + (x.arrived % 2 ^ 16) * 2 ^ 16

def semBarqry (f : Ext) : LaneSem := fun r s =>
  match slotArg r s f with
  | none => barState 1
  | some (_, x) =>
    .done s (writeV f.d (word (if f.fn = 0 then slotWord x else wrapNat 32 (min (max x.pending (intLo true 32)) (intHi true 32)))))

/-- BARINIT (R377). -/
def execBarinit (f : Ext) (s : State) : Host.Outcome State Fault Refusal := issue { form := .ext 0xD0 f, sem := semBarinit f } s
/-- BARARV (R378). -/
def execBararv (f : Ext) (s : State) : Host.Outcome State Fault Refusal := issue { form := .ext 0xD1 f, sem := semBararv f } s
/-- BARWAIT (R379): it also writes the status predicate C. -/
def execBarwait (f : Ext) (s : State) : Host.Outcome State Fault Refusal := issue { form := .ext 0xD2 f, sem := semBarwait f } s
/-- BARTEST (R380). -/
def execBartest (f : Ext) (s : State) : Host.Outcome State Fault Refusal := issue { form := .ext 0xD3 f, sem := semBartest f } s
/-- BARINV (R381). -/
def execBarinv (f : Ext) (s : State) : Host.Outcome State Fault Refusal := issue { form := .ext 0xD4 f, sem := semBarinv f } s
/-- BARQRY (R382). -/
def execBarqry (f : Ext) (s : State) : Host.Outcome State Fault Refusal := issue { form := .ext 0xD5 f, sem := semBarqry f } s

/-! ## SYNC (R385) -/

/-- A wait at SYNC in the handler (R385). -/
def isHandlerSync (w : Wait) : Bool := match w with
  | .handlerSync _ => true
  | _ => false

/-- One thread's arrival: it waits, or with the last of the mask all are released. The handler's threads use the second record. -/
def semSync (f : Ext) : LaneSem := fun r s =>
  match s.squad? r.t.cell r.t.squad with
  | none => .stall s
  | some q =>
    let handler : Bool := q.trap = .active && r.th.inHandler
    let m := r.x32 f.a
    let bit : BitVec 32 := 1#32 <<< r.t.lane
    let lanes (x : BitVec 32) : List Nat := (List.range 32).filter (fun l => x.getLsbD l)
    let put (s : State) (x : Option SyncRec) : State :=
      s.modSquad r.t.cell r.t.squad (fun q => if handler then { q with hsync := x } else { q with sync := x })
    let gone (l : Nat) : Bool := match q.threads[l]? with
      | some th => th.state = .exited
      | none => true
    let arrive (x : SyncRec) : LaneOut :=
      let x := { x with arrived := x.arrived ||| bit }
      if x.arrived = x.mask then
        let others := (lanes x.mask).filter (· ≠ r.t.lane)
        let free (th : Thread) : Thread :=
          { th.endWait (if handler then isHandlerSync else isSync) false true s.clk with release := .sync s.issued }
        .done (put ((others.foldl (fun s l => s.modThread ⟨r.t.cell, r.t.squad, l⟩ free) s).modThread r.t
          (fun th => { th with release := .sync s.issued })) none) {}
      else .ok (put s (some x)) {} (.wait (if handler then .handlerSync r.pops else .sync r.pops)) .unit
    match if handler then q.hsync else q.sync with
    | none =>
      if !m.getLsbD r.t.lane then .cause .maskDisagree none 2 0
      else if (lanes m).any gone then .cause .maskDisagree none 1 0
      else arrive ⟨m, 0⟩
    | some x =>
      if x.mask = m then arrive x
      else .causeIn (put ((lanes x.arrived).foldl (fun s l => raisePc s ⟨r.t.cell, r.t.squad, l⟩ .maskDisagree 0) s) none) .maskDisagree none 0 0

/-- SYNC (R385). -/
def execSync (f : Ext) (s : State) : Host.Outcome State Fault Refusal := issue { form := .ext 0xD6 f, sem := semSync f } s

/-! ## PHASE (R386–R388) -/

/-- PHASE (R386): the thread arrives and waits. -/
def execPhase (f : Ext) (s : State) : Host.Outcome State Fault Refusal :=
  issue { form := .ext 0xD7 f, sem := fun _ s => .ok s {} (.wait (.phase f.d.toNat)) .unit } s

def isPhase (w : Wait) : Bool := match w with
  | .phase _ => true
  | _ => false
def isPhaseWait (th : Thread) : Bool := th.waitsFor isPhase

/-- The cells of a gang in ascending index in the gang. -/
def gangCells (s : State) (g : Gang) : List Cell :=
  let cs := s.cells.filter (fun c => c.gang == g.id)
  (List.range g.count).flatMap (fun i => cs.filter (fun c => c.gindex == i))

/-- The threads of a cell that a phase counts: those of the cell's own squads that have not exited (DEDUCED, log entry 34). -/
def phaseThreads (c : Cell) : List (Nat × Nat × Thread) :=
  ((List.range c.squads.length).zip c.squads).flatMap (fun x =>
    if x.2.handler.isSome then [] else
      ((List.range x.2.threads.length).zip x.2.threads).filterMap (fun y => if y.2.state = .exited then none else some (x.1, y.1, y.2)))

/-- Every thread of the gang that has not exited has arrived, and some thread has (R387). -/
def phaseReady (s : State) (g : Gang) : Bool :=
  let ths := (gangCells s g).flatMap phaseThreads
  !ths.isEmpty && ths.all (fun x => isPhaseWait x.2.2)

/-- Whether a request to a peer is a transfer that a cell of some made (R25, R446): a published write, a write of a transfer context or of a
run, or a read of a run's. -/
def transferOf (ids : List Nat) (r : RemoteReq) : Bool :=
  match r.use with
  | .store none _ c _ => ids.contains c
  | .store (some _) _ _ _ => false
  | .ask (.xp x) => ids.contains x.cell && opOrdered r.op
  | .ask (.run c _ _) => ids.contains c
  | .atomic _ _ _ _ tree => tree.tids.any (fun t => ids.contains t.cell)
  | _ => false

/-- Whether an immediate access, an atomic or a batch term is still on its way to its home, for a thread of some cells. -/
def onTheWay (s : State) (ids : List Nat) : Bool :=
  s.late.any (fun e => ids.contains e.t.cell) || s.reqs.any (fun q => q.tree.tids.any (fun t => ids.contains t.cell)) || s.terms.any (fun q => q.terms.any (fun x => ids.contains x.t.cell))

/-- The gang's transfers tagged with the ending phase have landed (R25, R265): runs, tensor copies, those saved with a cell included, and the
requests to peers; and what its threads sent to memory has been performed (R438, R446). -/
def phaseDrained (s : State) (g : Gang) : Bool :=
  let ids := (gangCells s g).map (·.id)
  !onTheWay s ids &&
  (gangCells s g).all (fun c => c.runs.all (fun r => decide (r.phase > g.phase)) && c.xps.all (fun x => x.rem = 0 || decide (x.xphase > g.phase))
      && c.tcopy.all (fun t => decide (t.phase > g.phase)))
    && s.cores.all (fun k => k.tcopy.all (fun t => !(ids.contains t.cell) || decide (t.phase > g.phase)))
    && s.remote.all (fun r => !transferOf ids r)

/-- PHASE_COMPLETE: the ordered steps of R387, in a context that runs (R286). Writes to peers are sent first, and the phase completes once they
are acknowledged. -/
def execPhaseComplete (gang : Nat) (s : State) : Host.Outcome State Fault Refusal :=
  .next (match s.gang? gang with
    | none => s
    | some g =>
      let cells := gangCells s g
      if !(cells.all (fun c => ctxLive s c.ctx)) then s
      else match (if phaseReady s g && phaseDrained s g then viewHeld s (cells.map (·.id)) else none) with
      | some x => firstTouch s x.1 x.2
      | none =>
      if phaseReady s g && phaseDrained s g && cells.any (fun c => c.view.any (fun x => isRemoteLoc x.1)) then
        publish s (cells.map (·.id))
      else if phaseReady s g && phaseDrained s g then
        let s := publish s (cells.map (·.id))
        let s := cells.foldl (fun s c => acquireAt s c.core (g.scope + 1)) s
        let s := { s with owners := s.owners.filter (fun o => o.gang ≠ gang) }
        let s := s.modGang gang (fun g => { g with phase := g.phase + 1 })
        let s := { s with cells := s.cells.map (fun c => if c.gang = gang then { c with phase := c.phase + 1 } else c) }
        let live := cells.filter (fun c => !(phaseThreads c).isEmpty)
        let closer : Option (Nat × Nat × Nat) := live.getLast?.bind (fun c => (phaseThreads c).getLast?.map (fun x => (c.id, x.1, x.2.1)))
        cells.foldl (fun s c => (phaseThreads c).foldl (fun s x =>
          s.modThread ⟨c.id, x.1, x.2.1⟩ (fun th =>
            { th.endWait isPhase (closer = some (c.id, x.1, x.2.1)) true s.clk with release := .phase g.phase })) s) s
      else s)

end Sys2Proof.Machine
end

