-- ==== Sys2Proof/Machine/Fetch.lean ====
section
/-! DEFINITION. Fetching an instruction (R56, R249): its bytes from the code buffer, and what a fetch that fails raises. -/
namespace Sys2Proof.Machine
open Sys2Proof

/-- How a fetch ends: the words, a wait for a page in motion or a peer, or a cause. -/
inductive Fetched where
  | words (ws : List Word)
  | waits (r : Ready)
  | bad (c : Cause) (sub : Nat)
  deriving DecidableEq, Repr

/-- Little-endian words of a byte list. -/
def wordsOf (b : List Byte) : List Word := (chunksOf 4 b.length b).map (fun x => word (leNat x))

/-- A word that a kernel's program fetches: what its home holds, or freely another value that the word has had since the launch (R57)
(DESIGN CHOICE, log entry 61). -/
def wordChoice (s : State) (kernel w : Nat) (now : Word) : Word :=
  match (s.codeWords.filter (fun x => x.1 = kernel && x.2.1 = w)).map (·.2.2) with
  | [] => now
  | olds => (now :: olds).getD ((Config.freeDword (2 ^ 1000 * (s.free + 1) + w)).toNat % (olds.length + 1)) now

/-- Some bytes of a code buffer as a kernel's program fetches them; kernel 0 is none, whose words nothing has replaced (R56, R57, R414). -/
def codeBytes (s : State) (who : Asker) (kernel ctx : Nat) (code : Dword) (off n : Nat) : Ready × List Byte :=
  let r := readyFor s who none (checkBuffer s ctx needExec (refIndex code) off n 1)
  match r with
  | .ok a =>
    let b := (homeRead s none a).1
    let one (i : Nat) (x : List Byte) : List Byte := leBytes 4 (wordChoice s kernel (off / 4 + i) (word (leNat x))).toNat
    let ws := chunksOf 4 b.length b
    (r, if off % 4 = 0 && n % 4 = 0 then ((List.range ws.length).zip ws).flatMap (fun x => one x.1 x.2) else b)
  | _ => (r, [])

/-- The whole instruction at an offset of a code buffer (R55, R56): of several causes the one with the lowest code (R74)
(DEDUCED, log entry 60). -/
def fetchCode (s : State) (who : Asker) (kernel ctx : Nat) (code : Dword) (pc : Word) : Fetched :=
  let odd : Bool := pc.toNat % 4 ≠ 0
  let waits (r : Ready) : Fetched := if odd then .bad .misaligned 0 else .waits r
  match codeBytes s who kernel ctx code pc.toNat 4 with
  | (.bad k sub, _) => .bad k sub
  | (.ok _, b) =>
    let n := lenWords ((wordsOf b).headD 0)
    match codeBytes s who kernel ctx code pc.toNat (4 * n) with
    | (.bad k sub, _) => .bad k sub
    | (.ok _, b) => if odd then .bad .misaligned 0 else .words (wordsOf b)
    | (r, _) => waits r
  | (r, _) => waits r

/-- A fetch has translated through the pages of the bytes that it took (R395, R402). -/
def markFetch (s : State) (ctx : Nat) (code : Dword) (off n : Nat) : State :=
  match checkBuffer s ctx needExec (refIndex code) off n 1 with
  | .ok a => markPages s false a.pages
  | _ => s

/-- What a cell's program has fetched at an offset: the pages are marked, and the answers from a peer used up. -/
def fetchedBy (s : State) (cell : Nat) (pc : Word) (ws : List Word) : State :=
  dropAsks (match s.cell? cell with
    | some c => markFetch s c.ctx c.code pc.toNat (4 * ws.length)
    | none => s) (.cell cell)

/-- What a context has fetched at its word. -/
def fetchedXp (s : State) (x : Xid) : State :=
  match s.cell? x.cell, s.xp? x with
  | some c, some xp => markFetch s c.ctx c.code (8 * xp.xpc) 8
  | _, _ => s

/-- The whole instruction at a thread's program counter (R55, R56). -/
def fetchAt (s : State) (cell : Nat) (pc : Word) : Fetched :=
  match s.cell? cell with
  | none => .bad .refInvalid 0
  | some c => fetchCode s (.cell cell) c.kernel c.ctx c.code pc

/-- The decoded instruction at a thread's program counter, when there is one. -/
def instrAt (s : State) (cell : Nat) (pc : Word) : Option Instr :=
  match fetchAt s cell pc with
  | .words ws => ((decode ws).map (·.1)).toOption
  | _ => none

/-- The length of the instruction at an offset, 4 where its fetch fails (R362). -/
def lengthAt (s : State) (cell : Nat) (pc : Word) : Nat :=
  match fetchAt s cell pc with
  | .words (w :: _) => 4 * lenWords w
  | _ => 4

/-- Every thread of a bundle stops on one cause at its instruction, csr.taddr being its offset (R56, R74); inside the handler it is nested
(R355). -/
def raiseAll (s : State) (ts : List Tid) (c : Cause) (info : Nat) : State :=
  (dedup (ts.map (·.cell))).foldl settleNested (ts.foldl (fun s t => raisePc s t c info) { s with issued := s.issued + 1 })

/-- A fetch that touches a page in motion waits (R56), as does one from a peer's buffer: the threads stall; a brined page starts its
expansion, and the peer is asked once for their cell (R414). -/
def fetchWaits (s : State) (cell : Nat) (ts : List Tid) (r : Ready) : State :=
  ts.foldl (fun s t => s.modThread t Thread.stallAt) (beginWait s (.cell cell) r)

/-- How many core clocks a step takes (R5, R122) (DESIGN CHOICE, log entry 6). -/
def stepClocks (s : State) : Nat := 1 + Config.extraClocks s.issued

/-- The 64-bit transfer word a context stands at (R246, R249), with the check it fails. -/
def fetchXp (s : State) (x : Xid) : Fetched :=
  match s.cell? x.cell, s.xp? x with
  | some c, some xp =>
    match codeBytes s (.xp x) c.kernel c.ctx c.code (8 * xp.xpc) 8 with
    | (.bad k sub, _) => .bad k sub
    | (.ok _, b) => .words (wordsOf b)
    | (r, _) => .waits r
  | _, _ => .bad .refInvalid 0

end Sys2Proof.Machine
end

