-- ==== Sys2Proof/Machine/Matrix.lean ====
section
/-! DEFINITION. The matrix array and the rind (R34–R37, R47–R50, R189–R211): the checks at issue, the array queue and its
operations. -/
namespace Sys2Proof.Machine
open Sys2Proof

/-! ## Tiles and panels (R189, R190) -/

def Tile.zero : Tile := ⟨[], false, 0⟩
def Tile.at' (t : Tile) (i : Nat) : Nat := match t.elems.find? (fun e => e.1 == i) with
  | some e => e.2.toNat
  | none => 0

/-- A tile's elements from a function of 64 · row + column. -/
def Tile.ofFun (t : Tile) (f : Nat → Nat) (fl : Flags) : Tile :=
  { t with elems := (List.range 2048).filterMap (fun i => let x : BitVec 56 := .ofNat 56 (f i); if x = 0 then none else some (i, x)),
           flags := t.flags ||| fl }

/-- Replaces or inserts an entry of a list kept in ascending key order. -/
def setKey {α : Type} (k : Nat) (v : α) : List (Nat × α) → List (Nat × α)
  | [] => [(k, v)]
  | (i, x) :: r => if k < i then (k, v) :: (i, x) :: r else if k = i then (k, v) :: r else (i, x) :: setKey k v r

def getKey {α : Type} (l : List (Nat × α)) (k : Nat) : Option α := (l.find? (fun e => e.1 == k)).map (·.2)

def Panel.empty : Panel := ⟨false, 0, 0, [], []⟩
def Cell.panel (c : Cell) (n : Nat) : Panel := (getKey c.bank n).getD Panel.empty
def Cell.panelAt (c : Cell) (n : Nat) : PanelIssue := (getKey c.panelIssue n).getD ⟨false, 0, 0⟩

/-- Group size of a code (R197). -/
def groupSize (gsz : Nat) : Nat := 32 * 2 ^ gsz

/-- Bytes of a column's scale strip. -/
def stripBytes (fmt gsz : Nat) : Nat :=
  match fmt with
  | 0 | 1 => 12
  | 2 => 24
  | 3 => 4 * (384 / groupSize gsz)
  | 4 => 4 * (768 / groupSize gsz)
  | _ => 0

/-- SC of R190. -/
def columnBytes (fmt gsz : Nat) : Nat := 384 + stripBytes fmt gsz

/-- Elements of a clock group (R200). -/
def groupElems (fmt : Nat) : Nat := if fmt = 2 || fmt = 4 then 32 else if fmt ≥ 5 then 8 else 16

/-- Bytes of an A row (R200). -/
def rowBytes (fmt kg : Nat) : Nat :=
  match fmt with
  | 0 | 1 => 33 * ((16 * kg + 31) / 32)
  | 2 => 17 * kg
  | _ => 16 * kg

/-! ## Element values (R30, R34, R37) -/

def nibble (b : List Byte) (k : Nat) : Nat := (b.getD (k / 2) 0).toNat / 16 ^ (k % 2) % 16

/-- The values of an A row as it lies in scratch. -/
def rowVals (fmt ke : Nat) (b : List Byte) : List FVal :=
  (List.range ke).map (fun k =>
    match fmt with
    | 2 => mxValue e2m1 (b.getD (17 * (k / 32) + 16) 0).toNat (nibble (b.drop (17 * (k / 32))) (k % 32))
    | 5 => unpack bf16 (byteField b (2 * k) 2)
    | 6 => unpack fp16 (byteField b (2 * k) 2)
    | n => mxValue (mxElemFmt n) (b.getD (33 * (k / 32) + 32) 0).toNat (b.getD (33 * (k / 32) + k % 32) 0).toNat)

/-- The values of an MXMV row, whose elements carry no block scale (R203). -/
def laneVals (fmt ke : Nat) (b : List Byte) : List FVal :=
  (List.range ke).map (fun k =>
    match fmt with
    | 5 => unpack bf16 (byteField b (2 * k) 2)
    | 6 => unpack fp16 (byteField b (2 * k) 2)
    | _ => unpack e4m3 (b.getD k 0).toNat)

/-- The values of a panel's column. -/
def colVals (fmt ke : Nat) (data strip : List Byte) : List FVal :=
  (List.range ke).map (fun k =>
    match fmt with
    | 2 => mxValue e2m1 (strip.getD (k / 32) 0).toNat (nibble data k)
    | 5 => unpack bf16 (byteField data (2 * k) 2)
    | 6 => unpack fp16 (byteField data (2 * k) 2)
    | n => mxValue (mxElemFmt n) (strip.getD (k / 32) 0).toNat (data.getD k 0).toNat)

/-- The unsigned elements of a grouped-integer row or column (R34). -/
def intVals (fmt ke : Nat) (b : List Byte) : List Nat :=
  (List.range ke).map (fun k => if fmt = 4 then nibble b k else (b.getD k 0).toNat)

/-! ## Group sums (R47–R50) -/

/-- An exact product; a zero has the sign of the rule of FP32 products (R48) (DESIGN CHOICE, log entry 133). -/
def exactProd (a b : FVal) : FVal × Flags :=
  match a, b with
  | .fin n m e, .fin n' m' e' => (.fin (n != n') (m * m') (e + e'), 0)
  | x, y =>
    if isNaN x || isNaN y then (.nan false, snanFlag [x, y])
    else if isZero x || isZero y then (.nan false, fNV)
    else (.inf (isNeg x != isNeg y), 0)

/-- Exact addition of finite values; a sum of zero is -0 where both addends are (R47) (DESIGN CHOICE, log entry 114). -/
def exactSum (a b : FVal) : FVal :=
  match a, b with
  | .fin n m e, .fin n' m' e' =>
    let x := dyAdd (sgn n m) e (sgn n' m') e'
    .fin (if x.1 = 0 then n && n' && m == 0 && m' == 0 else x.1 < 0) x.1.natAbs x.2
  | _, _ => .nan false

/-- Step 1 and 2 of R47: the exact sum of products, rounded once into acc56; a NaN product decides before infinities of
both signs (DESIGN CHOICE, log entry 113). -/
def groupSum (ps : List (FVal × Flags)) : FVal × Flags :=
  let fl := ps.foldl (fun f p => f ||| p.2) 0
  let vs := ps.map (·.1)
  let isInf (n : Bool) (v : FVal) : Bool := match v with
    | .inf m => m = n
    | _ => false
  if vs.any isNaN then (.nan false, fl)
  else if vs.any (isInf true) && vs.any (isInf false) then (.nan false, fl ||| fNV)
  else if vs.any (isInf true) then (.inf true, fl)
  else if vs.any (isInf false) then (.inf false, fl)
  else
    match vs with
    | [] => (.fin false 0 0, fl)
    | v :: rest =>
      let r := convV acc56 .rne false (rest.foldl exactSum v)
      (unpack acc56 r.1, fl ||| r.2)

/-- R50: the products summed in the lattice in acc56. -/
def groupLattice (ps : List (FVal × Flags)) : FVal × Flags :=
  let xs := ps.map (fun p => let r := convV acc56 .rne false p.1; (r.1, p.2 ||| r.2))
  let r := lattice (addNode acc56) (0, 0) xs
  (unpack acc56 r.1, r.2)

/-- Step 3 of R47: one further rounding into the element. -/
def accumulate (elem : Nat) (s : FVal × Flags) : Nat × Flags :=
  let r := faddV acc56 (unpack acc56 elem) s.1
  (r.1, s.2 ||| r.2)

/-- R36, R49: an exact addition into the integer accumulator, saturating. -/
def sat56 (elem : Nat) (part : Int) : Nat × Flags :=
  let v := toSigned 56 elem + part
  if v < intLo true 56 then (wrapNat 56 (intLo true 56), fSAT)
  else if v > intHi true 56 then (wrapNat 56 (intHi true 56), fSAT)
  else (wrapNat 56 v, 0)

/-- Scale and zero point of a scale word (R35). -/
def scaleOf (w : Nat) : FVal × Int := (unpack fp16 (w % 2 ^ 16), ((w / 2 ^ 16 % 2 ^ 8 : Nat) : Int))

/-- One clock group of a grouped-integer operation (R48, R49), from the elements and scale words (DESIGN CHOICE, log entry 133). -/
def intGroup (elem : Nat) (iacc : Bool) (qa qb : List Nat) (wa wb : Nat) : Nat × Flags :=
  let (sa, za) := scaleOf wa
  let (sb, zb) := scaleOf wb
  let ds := (qa.zip qb).map (fun x => ((x.1 : Int) - za, (x.2 : Int) - zb))
  let part := (ds.map (fun x => x.1 * x.2)).foldl (· + ·) 0
  if iacc then sat56 elem part
  else
    let finite (v : FVal) : Bool := match v with
      | .fin _ _ _ => true
      | _ => false
    if finite sa && finite sb then
      let sig := exactProd sa sb
      let p := exactProd (ofInt part) sig.1
      let r := convV acc56 .rne false p.1
      accumulate elem (unpack acc56 r.1, sig.2 ||| p.2 ||| r.2)
    else
      let prods := ds.map (fun x =>
        let a := exactProd (ofInt x.1) sa
        let b := exactProd (ofInt x.2) sb
        let p := exactProd a.1 b.1
        (p.1, a.2 ||| b.2 ||| p.2))
      accumulate elem (groupSum prods)

/-- The groups of one element in ascending K. -/
def floatGroups (lat : Bool) (e : Nat) : Nat → List FVal → List FVal → Nat → Nat × Flags
  | 0, _, _, elem => (elem, 0)
  | kg + 1, a, b, elem =>
    let ps := ((a.take e).zip (b.take e)).map (fun x => exactProd x.1 x.2)
    let r := accumulate elem (if lat then groupLattice ps else groupSum ps)
    let rest := floatGroups lat e kg (a.drop e) (b.drop e) r.1
    (rest.1, r.2 ||| rest.2)

def intGroups (iacc : Bool) (e g : Nat) : Nat → Nat → List Nat → List Nat → List Word → List Word → Nat → Nat × Flags
  | 0, _, _, _, _, _, elem => (elem, 0)
  | kg + 1, q, a, b, wa, wb, elem =>
    let j := q * e / g
    let r := intGroup elem iacc (a.take e) (b.take e) (wa.getD j 0).toNat (wb.getD j 0).toNat
    let rest := intGroups iacc e g kg (q + 1) (a.drop e) (b.drop e) wa wb r.1
    (rest.1, r.2 ||| rest.2)

/-! ## Performing an operation (R192, R199–R207) -/

/-- Columns of a panel: data and strip bytes. -/
def Panel.column (p : Panel) (c : Nat) : List Byte × List Byte :=
  (memReadN p.data (384 * c) 384, memReadN p.strip (96 * c) 96)

/-- A tile after a float product of rows by the columns of a panel. -/
def mulFloat (t : Tile) (p : Panel) (fmt kg : Nat) (rows : List (Nat × List FVal)) : Tile :=
  let e := groupElems fmt
  let cols := (List.range 64).map (fun c => let x := p.column c; colVals fmt (e * kg) x.1 x.2)
  let cells := rows.flatMap (fun r => ((List.range 64).zip cols).map (fun c =>
    (64 * r.1 + c.1, floatGroups (fmt ≥ 5) e kg r.2 c.2 (t.at' (64 * r.1 + c.1)))))
  t.ofFun (fun i => match cells.find? (fun x => x.1 == i) with
    | some x => x.2.1
    | none => t.at' i) (cells.foldl (fun f x => f ||| x.2.2) 0)

/-- The scale words of a strip. -/
def stripWords (b : List Byte) : List Word := (chunksOf 4 b.length b).map (fun x => word (leNat x))

/-- A tile after a grouped-integer product. -/
def mulInt (t : Tile) (p : Panel) (fmt kg : Nat) (iacc : Bool) (rows : List (Nat × List Nat × List Word)) : Tile :=
  let e := groupElems fmt
  let cols := (List.range 64).map (fun c => let x := p.column c; (intVals fmt (e * kg) x.1, stripWords x.2))
  let cells := rows.flatMap (fun r => ((List.range 64).zip cols).map (fun c =>
    (64 * r.1 + c.1, intGroups iacc e (groupSize p.gsz) kg 0 r.2.1 c.2.1 r.2.2 c.2.2 (t.at' (64 * r.1 + c.1)))))
  t.ofFun (fun i => match cells.find? (fun x => x.1 == i) with
    | some x => x.2.1
    | none => t.at' i) (cells.foldl (fun f x => f ||| x.2.2) 0)

/-- An element as MXRD and MXST convert it (R205). -/
def tileOut (fn : Nat) (sat : Bool) (elem : Nat) : Nat × Flags :=
  if fn = 3 then
    let v := toSigned 56 elem
    let y := max (intLo true 32) (min (intHi true 32) v)
    (wrapNat 32 y, if y = v then 0 else fSAT)
  else convV (if fn = 0 then fp32 else if fn = 1 then fp16 else bf16) .rne sat (unpack acc56 elem)

/-- Results of an array operation reach the threads that have not exited. -/
def Thread.receiveArray (th : Thread) (n : Nat) (ws : List Word) : Thread :=
  if th.state = .exited then th
  else
    let regs := (List.range ws.length).map (fun i => Reg.v (n + i))
    let board := (th.board.map (fun o => if o.awaits = .array && o.writes = regs then { o with awaits := .done } else o)).filter
      (fun o => o.window ≠ 0 || o.awaits ≠ .done)
    { th.apply { v := (List.range ws.length).zip ws |>.map (fun x => (n + x.1, x.2)) } false with board := board }

def Cell.tile (c : Cell) (i : Nat) : Tile := c.tiles.getD i Tile.zero
def Cell.setTile (c : Cell) (i : Nat) (t : Tile) : Cell := { c with tiles := c.tiles.set i t }

/-- The aligned scratch words of some bytes. -/
def wordsIn (off n : Nat) : List Nat := if n = 0 then [] else (List.range ((off + n - 1) / 4 - off / 4 + 1)).map (off / 4 + ·)

/-- The scratch words that an operation reads (R199, R200). -/
def ArrayOp.reads : ArrayOp → List Nat
  | .mxbld _ base pitch fmt gsz => (List.range 64).flatMap (fun i => wordsIn (base + i * pitch) (columnBytes fmt gsz))
  | .mxm fmt _ _ base pitch kg _ _ => (List.range 32).flatMap (fun r => wordsIn (base + r * pitch) (rowBytes fmt kg))
  | _ => []

/-- What MXST writes of a tile (R206): the bytes by offset, with the flags. Where rows overlap the higher row's stand (DESIGN CHOICE,
log entry 108). -/
def storeTile (t : Tile) (fn base pitch : Nat) (sat : Bool) : List (Nat × List Byte) × Flags :=
  let z := if fn = 1 || fn = 2 then 2 else 4
  let outs := (List.range 2048).map (fun i => (base + i / 64 * pitch + i % 64 * z, tileOut fn sat (t.at' i)))
  (outs.map (fun o => (o.1, leBytes z o.2.1)), outs.foldl (fun f o => f ||| o.2.2) 0)

/-- The words that an operation writes to scratch, with their values. -/
def ArrayOp.stores (c : Cell) : ArrayOp → List (Nat × Word)
  | .mxst fn tile base pitch sat =>
    let out := (storeTile (c.tile tile) fn base pitch sat).1.foldl (fun (m : Memory) o => memWriteL m o.1 o.2) []
    ((List.range 32).flatMap (fun r => wordsIn (base + r * pitch) (if fn = 1 || fn = 2 then 128 else 256))).map
      (fun w => (w, word (leNat (memReadN out (4 * w) 4))))
  | _ => []

/-- Whether an operation reads or writes scratch. -/
def ArrayOp.scratchy : ArrayOp → Bool
  | .mxbld _ _ _ _ _ => true
  | .mxm _ _ _ _ _ _ _ _ => true
  | .mxst _ _ _ _ _ => true
  | _ => false

def putWords (m : Memory) (ws : List (Nat × Word)) : Memory := ws.foldl (fun m w => memWriteL m (4 * w.1) (leBytes 4 w.2.toNat)) m

/-- An operation's scratch accesses begin (R194): some of its words, freely, are read or written now and the others when it is performed,
so that each word which another agent writes or reads meanwhile is the old one or the new one by itself (DESIGN CHOICE, log entry 107). -/
def beginOp (s : State) (core : Nat) (e : ArrayEntry) : State :=
  match s.cell? e.cell with
  | none => s
  | some c =>
    let now (w : Nat) : Bool := Config.freeBool s.free w
    let got := e.op.reads.filter now
    let put := (e.op.stores c).filter (fun w => now w.1)
    let ws := got.map (fun w => (w, word (leNat (memReadN c.scratch (4 * w) 4)))) ++ put
    let s := { s with free := s.free + 1 }.modCore core (fun k => { k with array := k.array.map (fun (x : ArrayEntry) => if x.id = e.id then { x with begun := true, words := ws } else x) })
    s.modCell e.cell (fun c => { c with scratch := putWords c.scratch put })

/-- One operation on its cell, with the state for its scratch and its threads; `words` are those it has read or written already. -/
def performOp (s : State) (cell : Nat) (op : ArrayOp) (words : List (Nat × Word) := []) : State :=
  match s.cell? cell with
  | none => s
  | some c =>
    let seen : Memory := putWords c.scratch words
    let scr (off n : Nat) : List Byte := memReadN seen off n
    let putTile (i : Nat) (t : Tile) : State := s.modCell cell (fun c => c.setTile i t)
    match op with
    | .mxbld panel base pitch fmt gsz =>
      let col (i : Nat) : List Byte × List Byte :=
        let b := scr (base + i * pitch) (columnBytes fmt gsz)
        if fmt ≤ 2 then
          let n := if fmt = 2 then 16 else 32
          let blocks := chunksOf (n + 1) b.length b
          (blocks.flatMap (·.take n), blocks.flatMap (·.drop n))
        else (b.take 384, b.drop 384)
      let cols := (List.range 64).map (fun i => (i, col i))
      let data := cols.foldl (fun m x => memWriteL m (384 * x.1) x.2.1) []
      let strip := cols.foldl (fun m x => memWriteL m (96 * x.1) x.2.2) []
      s.modCell cell (fun c => { c with bank := setKey panel ⟨true, fmt, gsz, data, strip⟩ c.bank })
    | .mxm fmt tile panel base pitch kg iacc scales =>
      let p := c.panel panel
      let rows := List.range 32
      if fmt = 3 || fmt = 4 then
        putTile tile (mulInt (c.tile tile) p fmt kg iacc (rows.map (fun r =>
          (r, intVals fmt (groupElems fmt * kg) (scr (base + r * pitch) (rowBytes fmt kg)), scales.getD r []))))
      else
        putTile tile (mulFloat (c.tile tile) p fmt kg (rows.map (fun r =>
          (r, rowVals fmt (groupElems fmt * kg) (scr (base + r * pitch) (rowBytes fmt kg))))))
    | .mxmv fmt tile panel kg rows =>
      putTile tile (mulFloat (c.tile tile) (c.panel panel) fmt kg (rows.map (fun r =>
        (r.1, laneVals fmt (groupElems fmt * kg) (r.2.flatMap (fun w => leBytes 4 w.toNat))))))
    | .mxz tile mode => putTile tile { Tile.zero with mode := mode }
    | .mxrd fn tile col nm1 sat d lanes =>
      let t := c.tile tile
      let half := fn = 1 || fn = 2
      let one (lane j : Nat) : Nat × Flags :=
        if half then
          let x := tileOut fn sat (t.at' (64 * lane + col + 2 * j))
          let y := tileOut fn sat (t.at' (64 * lane + col + 2 * j + 1))
          (x.1 + 2 ^ 16 * y.1, x.2 ||| y.2)
        else tileOut fn sat (t.at' (64 * lane + col + j))
      let outs := lanes.map (fun l => (l, (List.range (nm1 + 1)).map (one l.lane)))
      let fl : Flags := outs.foldl (fun f o => o.2.foldl (fun g x => g ||| x.2) f) 0
      outs.foldl (fun s o => s.modThread o.1 (fun th => th.receiveArray d (o.2.map (fun x => word x.1))))
        (putTile tile { t with flags := t.flags ||| fl })
    | .mxwr fn tile col rows =>
      let t := c.tile tile
      let conv (w : Word) : Nat × Flags :=
        if fn = 3 then (wrapNat 56 (toSigned 32 w.toNat), 0) else convV acc56 .rne false (unpack fp32 w.toNat)
      let new := rows.flatMap (fun r => (List.range r.2.length).zip r.2 |>.map (fun x => (64 * r.1 + col + x.1, conv x.2)))
      putTile tile (t.ofFun (fun i => match new.find? (fun x => x.1 == i) with
        | some x => x.2.1
        | none => t.at' i) (new.foldl (fun f x => f ||| x.2.2) 0))
    | .mxst fn tile base pitch sat =>
      let t := c.tile tile
      let out := storeTile t fn base pitch sat
      let put : Memory := if words.isEmpty then out.1.foldl (fun m o => memWriteL m o.1 o.2) c.scratch
        else putWords c.scratch ((op.stores c).filter (fun w => !(words.any (fun x => x.1 == w.1))))
      s.modCell cell (fun c => ({ c with scratch := put }).setTile tile { t with flags := t.flags ||| out.2 })
    | .mxqry tile d lanes =>
      let t := c.tile tile
      let w := word (t.flags.toNat + (if t.mode then 256 else 0))
      lanes.foldl (fun s l => s.modThread l (fun th => th.receiveArray d [w])) s

/-- ARRAY_OP_PERFORM (R192): the first operation of a core's array queue, in two steps when it uses scratch (R194); a product wakes the
sub-arrays (R196). -/
def execArrayOpPerform (core : Nat) (s : State) : Host.Outcome State Fault Refusal :=
  .next (match s.core? core with
    | none => s
    | some k =>
      match k.array with
      | [] => s
      | e :: rest =>
        if e.op.scratchy && !e.begun then beginOp s core e
        else
        let wakes : Bool := match e.op with
          | .mxm _ _ _ _ _ _ _ _ => true
          | .mxmv _ _ _ _ _ => true
          | _ => false
        let s := s.modCore core (fun k =>
          { k with array := rest, awake := if wakes then 15 else k.awake, usedAt := if wakes then s.clk else k.usedAt,
                   idleLimit := if wakes then k.mxidle else k.idleLimit })
        performOp s e.cell e.op e.words)

/-- SUBARRAY_GATE (R196, R460): csr.mxidle clocks without a product, as the idle count took it, gate the sub-arrays. -/
def execSubarrayGate (core : Nat) (s : State) : Host.Outcome State Fault Refusal :=
  .next (match s.core? core with
    | some k => if k.idleLimit ≠ 0 && s.clk - k.usedAt ≥ k.idleLimit then s.modCore core (fun k => { k with awake := 0 }) else s
    | none => s)

/-! ## Checks at issue (R191, R199, R200, R203, R205, R206, R208, R209) -/

/-- Scratch alignment, then bounds, with the offset at fault: the base where only the pitch is no multiple of 4 (DESIGN CHOICE, log entry 109). -/
def mxScratch (c : Cell) (op : ArrayOp) : Option (Cause × Nat) :=
  let outside (lo n : Nat) : Option Nat := if lo ≥ c.shape.scratch then some lo else if lo + n > c.shape.scratch then some c.shape.scratch else none
  let check (base pitch : Nat) (ranges : List (Nat × Nat)) : Option (Cause × Nat) :=
    if base % 4 ≠ 0 || pitch % 4 ≠ 0 then some (.misaligned, base)
    else (ranges.findSome? (fun r => outside r.1 r.2)).map (fun o => (Cause.scratchBounds, o))
  match op with
  | .mxbld _ base pitch fmt gsz => check base pitch [(base, 63 * pitch + columnBytes fmt gsz)]
  | .mxm fmt _ _ base pitch kg _ _ => check base pitch ((List.range 32).map (fun r => (base + r * pitch, rowBytes fmt kg)))
  | .mxst fn _ base pitch _ =>
    check base pitch ((List.range 32).map (fun r => (base + r * pitch, if fn = 1 || fn = 2 then 128 else 256)))
  | _ => none

/-- MATRIX_STATE subcodes 3, 4 and 5 against the issue state, lowest first. -/
def mxIssue (c : Cell) (op : ArrayOp) : Option Nat :=
  let mode (i : Nat) : Bool := c.tileIssue.getD i false
  let product (fmt tile panel : Nat) (iacc : Bool) : Option Nat :=
    let p := c.panelAt panel
    if !p.loaded then some 3 else if p.fmt ≠ fmt then some 4 else if mode tile != iacc then some 5 else none
  match op with
  | .mxm fmt tile panel _ _ _ iacc _ => product fmt tile panel iacc
  | .mxmv fmt tile panel _ _ => product fmt tile panel false
  | .mxrd fn tile _ _ _ _ _ => if mode tile != decide (fn = 3) then some 5 else none
  | .mxwr fn tile _ _ => if mode tile != decide (fn = 3) then some 5 else none
  | .mxst fn tile _ _ _ => if mode tile != decide (fn = 3) then some 5 else none
  | _ => none

/-- The issue state after an operation has issued. -/
def mxIssued (c : Cell) (op : ArrayOp) : Cell :=
  match op with
  | .mxbld panel _ _ fmt gsz => { c with panelIssue := setKey panel ⟨true, fmt, gsz⟩ c.panelIssue }
  | .mxz tile mode => { c with tileIssue := c.tileIssue.set tile mode }
  | _ => c

/-- The tile or loaded panel whose ownership a strict kernel checks. -/
def mxOwned : ArrayOp → Nat
  | .mxbld panel _ _ _ _ => panel
  | .mxm _ tile _ _ _ _ _ _ => tile
  | .mxmv _ tile _ _ _ => tile
  | .mxz tile _ => tile
  | .mxrd _ tile _ _ _ _ _ => tile
  | .mxwr _ tile _ _ => tile
  | .mxst _ tile _ _ _ => tile
  | .mxqry tile _ _ => tile

/-- An operation enters the array queue and the issue state. -/
def mxPush (s : State) (cell : Nat) (op : ArrayOp) : State :=
  let id := s.nextId
  (({ s with nextId := id + 1 }).modCore (coreOf s cell) (fun k => { k with array := k.array ++ [ArrayEntry.mk id cell op false []] })).modCell cell
    (fun c => mxIssued c op)

/-- Entries a core's array queue has in use. -/
def queueUsed (s : State) (core : Nat) : Nat := ((s.core? core).map (fun k => k.array.length)).getD 0

def squadCount (c : Cell) : Nat := c.shape.squads

/-- Whether a strict kernel's squad may name the operation's tile or panel (R209). -/
def mxOwns (c : Cell) (squad : Nat) (op : ArrayOp) : Bool := !c.strict || mxOwned op % squadCount c = squad

/-- The checks of an operation in a thread, in the order of R208, then the queue: an entry for this thread. -/
def mxThread (r : Rd) (s : State) (op : ArrayOp) : LaneOut :=
  let c := (s.cell? r.t.cell).getD r.c
  if !mxOwns c r.t.squad op then .cause .detViolation none 4 0
  else
    match mxScratch c op, mxIssue c op with
    | some (k, o), _ => .cause k (some (dword o)) 0 0
    | none, some sub => .cause .matrixState none sub 0
    | none, none => if queueUsed s c.core ≥ 16 then .stall s else .ok (mxPush s r.t.cell op) {} .next .array

/-- The same with one entry for each cell of the bundle, which its threads that pass share and the first of them makes (R207). -/
def mxBundle (r : Rd) (s : State) (op : List Tid → ArrayOp) : LaneOut :=
  let part := r.act.filter (fun t => t.cell = r.t.cell && mxOwns r.c t.squad (op []))
  let earlier := (dedup (r.act.map (·.cell))).takeWhile (· ≠ r.t.cell)
  let o := op part
  if !mxOwns r.c r.t.squad o then .cause .detViolation none 4 0
  else
    match mxIssue r.c o with
    | some sub => .cause .matrixState none sub 0
    | none =>
      if queueUsed r.s r.c.core + earlier.length ≥ 16 then .stall s
      else .ok (if part.head? = some r.t then mxPush s r.t.cell o else s) {} .next .array

/-! ## Instructions -/

def Rd.kval (r : Rd) (f : Src) : Nat := (r.x64 f).toNat

/-- MXBLD (R199). -/
def semMxbld (e : Ext) : LaneSem := fun r s =>
  mxThread r s (.mxbld e.d.toNat (r.kval e.a) (r.kval e.b) (e.imm.toNat % 16) (e.imm.toNat / 16 % 4))

/-- Registers of scale words a lane gives (R202): NG of the panel's group size in the issue state (DESIGN CHOICE, log entry 131). -/
def scaleRegs (c : Cell) (fmt : Nat) (e : Ext) : List Nat :=
  if fmt = 3 || fmt = 4 then
    let p := c.panelAt e.b.code.toNat
    let g := groupSize p.gsz
    let ng := if p.loaded then (groupElems fmt * (e.imm.toNat % 32) + g - 1) / g else 1
    (List.range ng).map (fun j => e.imm.toNat / 64 % 256 + j)
  else []

/-- The scale words of a lane. -/
def laneScales (q : Squad) (regs : List Nat) (lane : Nat) : List Word :=
  match q.threads[lane]? with
  | some th => regs.map (fun n => readVReg q th n)
  | none => []

/-- MXM (R200–R202); scales come from every lane of the squad. -/
def semMxm (fmt : Nat) (e : Ext) : LaneSem := fun r s =>
  let regs := scaleRegs r.c fmt e
  mxThread r s (.mxm fmt e.d.toNat e.b.code.toNat (r.kval e.a) (r.kval e.c) (e.imm.toNat % 32) (tb e.imm.toNat 5)
    (if regs.isEmpty then [] else (List.range 32).map (laneScales r.q regs)))

/-- SREG to SREG + NG − 1 are lane registers within the budget and not bound (R197, R198, R202). -/
def scalesFit (fmt : Nat) (e : Ext) (s : State) (t : Tid) : Option Cause :=
  match s.cell? t.cell, s.squad? t.cell t.squad, s.thread? t with
  | some c, some q, some th =>
    let regs := scaleRegs c fmt e
    if regs.all (fun n => decide (n < 192) && decide (n < th.v.length) && q.bound n = 0) then none else some .operandNamespace
  | _, _, _ => none

/-- The specification of an MXM at issue: its scale registers are read from all lanes. -/
def mxmSpec (op fmt : Nat) (e : Ext) (s : State) : Spec :=
  let regs := match (curBundle s).head?.bind (fun t => s.cell? t.cell) with
    | some c => (scaleRegs c fmt e).map Reg.v
    | none => []
  { form := .ext op e, xr := regs, xall := regs, extra := scalesFit fmt e, sem := semMxm fmt e }

/-- MXMV (R203). -/
def semMxmv (e : Ext) : LaneSem := fun r s =>
  let fmt := if e.fn = 0 then 6 else if e.fn = 1 then 5 else 0
  let kg := e.imm.toNat % 8
  mxBundle r s (fun ts => .mxmv fmt e.d.toNat e.b.code.toNat kg (ts.map (fun t =>
    (t.lane, (List.range (4 * kg)).map (fun i => ((r.q.threads[t.lane]?).map (fun th => readVReg r.q th (e.a.code.toNat + i))).getD 0))))) 

/-- MXZ (R204). -/
def semMxz (e : Ext) : LaneSem := fun r s => mxThread r s (.mxz e.d.toNat (e.fn = 1))

/-- MXRD (R205). -/
def semMxrd (e : Ext) : LaneSem := fun r s =>
  mxBundle r s (fun ts => .mxrd e.fn.toNat e.a.code.toNat (e.imm.toNat % 64) (e.imm.toNat / 64 % 16) (tb e.imm.toNat 10) e.d.toNat ts)

/-- MXWR (R205). -/
def semMxwr (e : Ext) : LaneSem := fun r s =>
  mxBundle r s (fun ts => .mxwr e.fn.toNat e.d.toNat (e.imm.toNat % 64) (ts.map (fun t =>
    (t.lane, (List.range (e.imm.toNat / 64 % 16 + 1)).map (fun i =>
      ((r.q.threads[t.lane]?).map (fun th => readVReg r.q th (e.a.code.toNat + i))).getD 0)))))

/-- MXST (R206). -/
def semMxst (e : Ext) : LaneSem := fun r s =>
  mxThread r s (.mxst e.fn.toNat e.a.code.toNat (r.kval e.b) (r.kval e.c) (tb e.imm.toNat 10))

/-- MXQRY (R207). -/
def semMxqry (e : Ext) : LaneSem := fun r s =>
  match e.fn.toNat with
  | 0 =>
    let k := s.core? r.c.core
    .done s (writeV e.d (word (((k.map (·.awake.toNat)).getD 0) + 16 * (k.map (·.array.length)).getD 0)))
  | 1 =>
    match mxBundle r s (fun ts => .mxqry e.a.code.toNat e.d.toNat ts) with
    | .ok s' w g _ => .ok s' w g .array
    | o => o
  | _ =>
    let p := r.c.panelAt e.a.code.toNat
    .done s (writeV e.d (word ((if p.loaded then 1 else 0) + 16 * p.fmt + 256 * p.gsz)))

/-- MXBLD (R199). -/
def execMxbld (f : Ext) (s : State) : Host.Outcome State Fault Refusal := issue { form := .ext 0xC0 f, sem := semMxbld f } s
/-- MXM.e4m3 (R200). -/
def execMxmE4m3 (f : Ext) (s : State) : Host.Outcome State Fault Refusal := issue (mxmSpec 0xC1 0 f s) s
/-- MXM.e5m2 (R200). -/
def execMxmE5m2 (f : Ext) (s : State) : Host.Outcome State Fault Refusal := issue (mxmSpec 0xC2 1 f s) s
/-- MXM.e2m1 (R200). -/
def execMxmE2m1 (f : Ext) (s : State) : Host.Outcome State Fault Refusal := issue (mxmSpec 0xC3 2 f s) s
/-- MXM.i8g (R200, R202). -/
def execMxmI8g (f : Ext) (s : State) : Host.Outcome State Fault Refusal := issue (mxmSpec 0xC4 3 f s) s
/-- MXM.i4g (R200, R202). -/
def execMxmI4g (f : Ext) (s : State) : Host.Outcome State Fault Refusal := issue (mxmSpec 0xC5 4 f s) s
/-- MXM.bf16 (R200). -/
def execMxmBf16 (f : Ext) (s : State) : Host.Outcome State Fault Refusal := issue (mxmSpec 0xC6 5 f s) s
/-- MXM.f16 (R200). -/
def execMxmF16 (f : Ext) (s : State) : Host.Outcome State Fault Refusal := issue (mxmSpec 0xC7 6 f s) s
/-- MXMV (R203). -/
def execMxmv (f : Ext) (s : State) : Host.Outcome State Fault Refusal := issue { form := .ext 0xC8 f, sem := semMxmv f } s
/-- MXZ (R204). -/
def execMxz (f : Ext) (s : State) : Host.Outcome State Fault Refusal := issue { form := .ext 0xC9 f, sem := semMxz f } s
/-- MXRD (R205). -/
def execMxrd (f : Ext) (s : State) : Host.Outcome State Fault Refusal := issue { form := .ext 0xCA f, sem := semMxrd f } s
/-- MXWR (R205). -/
def execMxwr (f : Ext) (s : State) : Host.Outcome State Fault Refusal := issue { form := .ext 0xCB f, sem := semMxwr f } s
/-- MXST (R206). -/
def execMxst (f : Ext) (s : State) : Host.Outcome State Fault Refusal := issue { form := .ext 0xCC f, sem := semMxst f } s
/-- MXQRY (R207). -/
def execMxqry (f : Ext) (s : State) : Host.Outcome State Fault Refusal := issue { form := .ext 0xCD f, sem := semMxqry f } s

end Sys2Proof.Machine
end

