-- ==== Sys2Proof/Machine/Transfer.lean ====
section
/-! DEFINITION. The transfer processor (R245–R276): the transfer words, the landing of runs, TCOPY, and the instructions by which
a squad drives it. -/
namespace Sys2Proof.Machine
open Sys2Proof

/-! ## Contexts (R245, R246) -/

def Gen.empty : Gen := ⟨false, false, 0, 1, 0, [], [], [], false⟩

/-- A context at its start values. -/
def XpCtx.start : XpCtx :=
  ⟨List.replicate 32 0, 0, List.replicate 8 Gen.empty, [], .idle, 0, 0, 0, 0, [], .none, false, [], 0, 0, 0, [], none⟩

def xpIllegal : Nat := 0x30
def xpLoop : Nat := 0x31
def xpPc : Nat := 0x32
def xpGen : Nat := 0x33
def xpQueue : Nat := 0x34
def xpBar : Nat := 0x35
def mcastTarget : Nat := 0x13

def XState.num : XState → Nat
  | .idle => 0
  | .running => 1
  | .waiting => 2
  | .stopped => 3
  | .exited => 4
  | .killed => 5

/-- STATE as XSTAT gives it (R246, R266): a context that has executed XEXIT is WAITING while a held operation waits on its slot. -/
def XpCtx.shown (x : XpCtx) : XState :=
  if x.state = .running && x.exiting && x.pendmx.any (fun m => m.wait.isSome) then .waiting else x.state

/-- XSTAT (R246). -/
def XpCtx.stat (x : XpCtx) : Dword :=
  dword (x.shown.num + x.code % 256 * 2 ^ 8 + min x.mcdrop 0xFFFF * 2 ^ 16 + min x.qdisc 0xFFFF * 2 ^ 32)

/-- The next transfer word of a context can issue: its cell is resident, it is RUNNING, waits for nothing, has no failed element to stop at and
has not executed XEXIT. -/
def xpCanIssue (s : State) (x : Xid) : Bool :=
  match s.cell? x.cell, s.xp? x with
  | some c, some p => c.resident && ctxLive s c.ctx && p.state = .running && p.waitOn = .none && p.fail.isNone && !p.exiting
  | _, _ => false

/-- A fault record of a context's stop (R267, R365). -/
def xpRecord (s : State) (x : Xid) (source code : Nat) (addr : Dword) (pc : Nat) (progress : Dword) : State :=
  match s.cell? x.cell with
  | none => s
  | some c =>
    let info := x.ctx + 256 * code
    writeRecord s c.ctx ⟨source, code, info % 256, 0, c.core, x.ctx, 0xFF, c.index, 0, pc, 0, addr, info, progress⟩

/-- Ends the waits a context has on slots. -/
def dropXwait (s : State) (x : Xid) : State :=
  s.modCell x.cell (fun c => { c with slots := c.slots.map (fun y => { y with xwait := y.xwait.filter (· ≠ x.ctx) }) })

/-- Threads that are STALLED on a queue of a context that has exited or is killed stop at that moment (R358). -/
def orphanWaiters (s : State) (x : Xid) : State :=
  match s.cell? x.cell with
  | none => s
  | some c =>
    let waits : List (Tid × Nat) := ((List.range c.squads.length).zip c.squads).flatMap (fun y =>
      y.2.threads.filterMap (fun th =>
        let mine := th.wants.filter (fun n => y.2.bound n = x.ctx)
        if th.state = .stalled then (orphanOf c y.2 th mine).map (fun o => (⟨x.cell, y.1, th.lane⟩, o.1 + 256 * o.2.1 + 65536 * o.2.2)) else none))
    if waits.isEmpty then s
    else settleNested (waits.foldl (fun s y => raisePc s y.1 .queueOrphan y.2) { s with issued := s.issued + 1 }) x.cell

/-- A kill (R270): nothing more issues and PENDMX is discarded; what still waits on the context's queues is orphaned (R358). -/
def xpKill (s : State) (x : Xid) : State :=
  orphanWaiters ((dropAsks (dropXwait s x) (.xp x)).modXp x (fun p =>
    { p with state := .killed, pendmx := [], rem := 0, waitOn := .none, fail := none, exiting := false })) x

/-- A stop at a word (R267): STOPPED with its code, a record, and XP_STOPPED in the cell; `mx` is the word of an XMXM that csr.tinfo names
(R263) (DESIGN CHOICE, log entry 110). A transfer-only cell has no squad to trap: its context is killed and its kernel ends FAULTED (R308)
(DESIGN CHOICE, log entry 110). -/
def xpStopAt (s : State) (x : Xid) (code : Nat) (addr : Dword) (pc low : Nat) (mx : Nat := 0) : State :=
  let s := xpRecord s x 1 code addr pc (dword (low % 2 ^ 32 + pc % 2 ^ 32 * 2 ^ 32))
  let s := s.modXp x (fun p => { p with state := .stopped, code := code, waitOn := .none })
  match s.cell? x.cell with
  | none => s
  | some c =>
    if ((s.kernel? c.kernel).map (·.xpOnly)).getD false then
      doomCode (xpKill s x) c.kernel 4
    else raiseXp s x.cell x.ctx (code + 256 * mx)

/-- A stop at the word of XPC, with the elements moved by this execution of a data word. -/
def xpStop (s : State) (x : Xid) (code : Nat) (addr : Dword) : State :=
  match s.xp? x with
  | none => s
  | some p => xpStopAt s x code addr p.xpc (if p.rem = 0 then 0 else p.moved)

/-- The fetch of a word failed (R249, R246): outside the code buffer or without the right to execute it is XP_PC. -/
def xpFetchStop (s : State) (x : Xid) (c : Cause) : State :=
  let code := if c = .refBounds || c = .refRights then xpPc else c.code
  match s.cell? x.cell, s.xp? x with
  | some ce, some p => xpStop s x code (faultAddr (mkRef (refIndex ce.code) 0) ((8 * p.xpc : Nat) : Int))
  | _, _ => s

/-- The context keeps its STATE while its word waits for the words before it or for a peer (R246, R254, R414). -/
def xpPause (s : State) (x : Xid) (w : XWaitOn) : State := s.modXp x (fun p => { p with waitOn := w })

/-- A page in motion makes the context WAITING (R269). -/
def xpPageWait (s : State) (x : Xid) (root page : Nat) : State :=
  (firstTouch s root page).modXp x (fun p => { p with state := .waiting, waitOn := .page root page })

def xpHold (s : State) (x : Xid) (w : XWaitOn) : State := s.modXp x (fun p => { p with state := .waiting, waitOn := w })

/-- A word that asks a peer for an access's bytes waits for them (R414). -/
def xpAsk (s : State) (x : Xid) (a : Access) : State := xpPause (askPeer s (.xp x) a (.read a.size)) x .remote

/-- A fetch of the context waits for a page or a peer (R249, R269). -/
def xpFetchWait (s : State) (x : Xid) (r : Ready) : State :=
  match r with
  | .page root page => xpPageWait s x root page
  | .peer a => xpAsk s x a
  | _ => s

/-- After a word: what it has asked peers for is kept only while it waits for a page or a peer. -/
def xpSettle (s : State) (x : Xid) : State :=
  match (s.xp? x).map XpCtx.waitOn with
  | some XWaitOn.remote => s
  | some (XWaitOn.page _ _) => s
  | _ => dropAsks s (.xp x)

/-- Goes on to a word. -/
def xpGo (s : State) (x : Xid) (pc : Nat) : State := s.modXp x (fun p => { p with xpc := pc })
def xpNext (s : State) (x : Xid) : State := s.modXp x (fun p => { p with xpc := p.xpc + 1 })

/-- What a slot held while it was COMPLETING happens in order once it is ARMED (R374, R375, R378): an arrival of an old generation is discarded
into csr.orphans, and what meets the slot COMPLETING anew is held again. -/
def releaseHeld (s : State) (cell n : Nat) : List SlotHeld → State
  | [] => s
  | h :: rest =>
    match cellSlot? s cell n with
    | none => s
    | some x =>
      let orphan (s : State) : State := s.modCell cell (fun c => { c with orphans := c.orphans + 1 })
      if x.state = .completing then modSlot s cell n (fun y => { y with held := y.held ++ h :: rest })
      else
        let s := match h with
          | .inv tix => endHeld (if x.state = .armed then invalidate s cell n else s) cell n tix true
          | .arrive tix bytes gen =>
            if gen ≠ x.gen then endHeld (orphan s) cell n tix x.pbit
            else if x.arrived = x.expect then failHeld s cell n tix 3
            else if !pendingOk (x.pending + bytes) then failHeld s cell n tix 4
            else endHeld (modSlot s cell n (fun y => y.arrive (some tix) bytes)) cell n tix x.pbit
          | .xarrive ctx bytes gen =>
            let holds : Bool := (s.xp? ⟨cell, ctx⟩).any (fun p => p.waitOn = .held)
            let goes (s : State) : State := if holds then s.modXp ⟨cell, ctx⟩ (fun p => { p with xpc := p.xpc + 1, waitOn := .none }) else s
            if gen ≠ x.gen then goes (orphan s)
            else if x.arrived = x.expect || !pendingOk (x.pending + bytes) then (if holds then xpStop s ⟨cell, ctx⟩ xpBar 0 else s)
            else goes (modSlot s cell n (fun y => y.arrive none bytes))
        releaseHeld s cell n rest

/-- SLOT_WAKE: a COMPLETING slot wakes its waiters, is ARMED again, and takes what it has held (R374). -/
def execSlotWake (cell slot : Nat) (s : State) : Host.Outcome State Fault Refusal :=
  .next (match cellSlot? s cell slot with
    | some x =>
      if x.state = .completing then
        releaseHeld (modSlot (wakeWaiters s cell slot false) cell slot (fun y => ({ y with state := .armed, held := [] }).settle)) cell slot x.held
      else s
    | none => s)

/-- The context in execution with its cell. -/
def onXp (s : State) (g : Xid → Cell → XpCtx → State) : Host.Outcome State Fault Refusal :=
  .next (match s.cur with
    | .xp x =>
      match s.cell? x.cell, s.xp? x with
      | some c, some p => g x c p
      | _, _ => s
    | _ => s)

/-- Reading and writing an x register; x0 reads 0 and ignores writes. -/
def XpCtx.reg (p : XpCtx) (n : Nat) : Dword := if n = 0 then 0 else p.x.getD n 0
def XpCtx.set (p : XpCtx) (n : Nat) (v : Dword) : XpCtx := if n = 0 then p else { p with x := p.x.set n v }

def xpImm (f : Xp) : Dword := f.imm.signExtend 64
def XpCtx.ra (p : XpCtx) (f : Xp) : Dword := p.reg f.a.toNat
def XpCtx.rb (p : XpCtx) (f : Xp) : Dword := p.reg f.b.toNat

/-- A scalar word: D written, on to the next word (R251). -/
def xpScalar (f : Xp) (s : State) (v : XpCtx → Dword) : Host.Outcome State Fault Refusal :=
  onXp s (fun x _ p => xpNext (s.modXp x (fun q => q.set f.d.toNat (v p))) x)

/-! ## Scalar words (R251) -/

/-- XNOP (R250). -/
def execXnop (_ : Xp) (s : State) : Host.Outcome State Fault Refusal := onXp s (fun x _ _ => xpNext s x)
/-- XLI (R251): with HI the immediate goes above D's low half. -/
def execXli (f : Xp) (s : State) : Host.Outcome State Fault Refusal :=
  xpScalar f s (fun p => if f.fl = 0 then xpImm f else f.imm ++ lo32 (p.reg f.d.toNat))
/-- XADD (R251). -/
def execXadd (f : Xp) (s : State) : Host.Outcome State Fault Refusal := xpScalar f s (fun p => p.ra f + p.rb f)
/-- XADDI (R251). -/
def execXaddi (f : Xp) (s : State) : Host.Outcome State Fault Refusal := xpScalar f s (fun p => p.ra f + xpImm f)
/-- XSUB (R251). -/
def execXsub (f : Xp) (s : State) : Host.Outcome State Fault Refusal := xpScalar f s (fun p => p.ra f - p.rb f)
/-- XMUL (R251). -/
def execXmul (f : Xp) (s : State) : Host.Outcome State Fault Refusal := xpScalar f s (fun p => p.ra f * p.rb f)
/-- XAND (R251). -/
def execXand (f : Xp) (s : State) : Host.Outcome State Fault Refusal := xpScalar f s (fun p => p.ra f &&& p.rb f)
/-- XIOR (R251). -/
def execXior (f : Xp) (s : State) : Host.Outcome State Fault Refusal := xpScalar f s (fun p => p.ra f ||| p.rb f)
/-- XXOR (R251). -/
def execXxor (f : Xp) (s : State) : Host.Outcome State Fault Refusal := xpScalar f s (fun p => p.ra f ^^^ p.rb f)
/-- XSHL (R251). -/
def execXshl (f : Xp) (s : State) : Host.Outcome State Fault Refusal := xpScalar f s (fun p => p.ra f <<< ((p.rb f).toNat % 64))
/-- XSHR (R251). -/
def execXshr (f : Xp) (s : State) : Host.Outcome State Fault Refusal :=
  xpScalar f s (fun p => if f.fl = 0 then p.ra f >>> ((p.rb f).toNat % 64) else (p.ra f).sshiftRight ((p.rb f).toNat % 64))

/-! ## Branches and loops (R252, R253) -/

/-- Length in words of the cell's code buffer. -/
def codeWords (s : State) (c : Cell) : Nat := ((btEntry? s c.ctx (refIndex c.code)).map (fun e => e.length / 8)).getD 0

def xpTarget (f : Xp) (p : XpCtx) : Int := (p.xpc : Int) + f.imm.toInt

/-- A branch (R252). -/
def xpBranch (f : Xp) (s : State) (cond : XpCtx → Bool) : Host.Outcome State Fault Refusal :=
  onXp s (fun x c p =>
    if !cond p then xpNext s x
    else if xpTarget f p < 0 || xpTarget f p ≥ codeWords s c then xpStop s x xpPc (faultAddr (mkRef (refIndex c.code) 0) (8 * xpTarget f p))
    else xpGo s x (xpTarget f p).toNat)

/-- XB (R252). -/
def execXb (f : Xp) (s : State) : Host.Outcome State Fault Refusal := xpBranch f s (fun _ => true)
/-- XBEQ (R252). -/
def execXbeq (f : Xp) (s : State) : Host.Outcome State Fault Refusal := xpBranch f s (fun p => p.ra f = p.rb f)
/-- XBNE (R252). -/
def execXbne (f : Xp) (s : State) : Host.Outcome State Fault Refusal := xpBranch f s (fun p => p.ra f ≠ p.rb f)

/-- Below, signed or with N unsigned. -/
def xpBelow (f : Xp) (p : XpCtx) : Bool := if f.fl = 0 then (p.ra f).slt (p.rb f) else (p.ra f).ult (p.rb f)
/-- XBLT (R252). -/
def execXblt (f : Xp) (s : State) : Host.Outcome State Fault Refusal := xpBranch f s (xpBelow f)
/-- XBGE (R252). -/
def execXbge (f : Xp) (s : State) : Host.Outcome State Fault Refusal := xpBranch f s (fun p => !xpBelow f p)

/-- XLOOP (R253) (DEDUCED, log entry 99). -/
def execXloop (f : Xp) (s : State) : Host.Outcome State Fault Refusal :=
  onXp s (fun x c p =>
    let n := p.ra f
    let t := xpTarget f p
    let addr := faultAddr (mkRef (refIndex c.code) 0) (8 * t)
    if n = 0 then xpGo s x (wrapNat 64 (t + 1))
    else if p.loops.length ≥ 4 then xpStop s x xpLoop 0
    else
      match codeBytes s (.xp x) c.kernel c.ctx c.code (8 * t.toNat) 8 with
      | (.page r g, _) => xpPageWait s x r g
      | (.peer a, _) => xpAsk s x a
      | (.bad _ _, _) => xpStop s x xpLoop addr
      | (.ok _, b) =>
        let s := markFetch s c.ctx c.code (8 * t.toNat) 8
        if t < 0 || byteField b 0 1 ≠ 0x11 then xpStop s x xpLoop addr
        else xpNext (s.modXp x (fun q => { q with loops := ⟨n, p.xpc + 1, t.toNat⟩ :: q.loops })) x)

/-- XLEND (R253). -/
def execXlend (_ : Xp) (s : State) : Host.Outcome State Fault Refusal :=
  onXp s (fun x _ p =>
    match p.loops with
    | [] => xpStop s x xpLoop 0
    | l :: rest =>
      if l.count = 1 then xpNext (s.modXp x (fun q => { q with loops := rest })) x
      else xpGo (s.modXp x (fun q => { q with loops := { l with count := l.count - 1 } :: rest })) x l.start)

/-! ## Places (R215, R247) -/

/-- A checked place, a page or a peer that it waits for, or a cause with its address. -/
inductive PlaceR where
  | ok (p : Place)
  | waits (root page : Nat)
  | peer (a : Access)
  | bad (c : Cause) (addr : Dword)
  deriving DecidableEq, Repr

def scratchPlace (c : Cell) (off : Int) (n align : Nat) : PlaceR :=
  if off < 0 || off + n > c.shape.scratch then .bad .scratchBounds (dword (wrapNat 64 off))
  else if off.toNat % align ≠ 0 then .bad .misaligned (dword (wrapNat 64 off))
  else .ok (.scratch c.id off.toNat n)

def globPlace (s : State) (c : Cell) (need : Need) (ref : Dword) (disp : Int) (n align : Nat) : PlaceR :=
  match checkBuffer s c.ctx need (refIndex ref) ((refOff ref : Int) + disp) n align with
  | .ok a => .ok (.glob a)
  | .waits r p => .waits r p
  | .bad k _ => .bad k (faultAddr ref disp)

/-- The address operand of XLD, XST, XGSET and XSTAMP: scratch or a reference, with the displacement. -/
def xpPlace (s : State) (c : Cell) (need : Need) (scr : Bool) (base : Dword) (disp : Int) (n align : Nat) : PlaceR :=
  if scr then scratchPlace c ((lo32 base).toNat + disp) n align else globPlace s c need base disp n align

/-- A place to be read: one at a peer is ready once the peer has answered (R414). -/
def PlaceR.ready (s : State) (who : Asker) (cell : Nat) (addr : Dword) (r : PlaceR) : PlaceR :=
  match r with
  | .ok (.glob a) =>
    match readyFor s who (some cell) (.ok a) with
    | .ok a => .ok (.glob a)
    | .peer a => .peer a
    | .page r g => .waits r g
    | .bad k _ => .bad k addr
  | _ => r

/-- A word goes on with its place, waits for it, or stops on its check (R215, R267, R269). -/
def withPlace (s : State) (x : Xid) (r : PlaceR) (k : Place → State) : State :=
  match r with
  | .ok p => k p
  | .waits r g => xpPageWait s x r g
  | .peer a => xpAsk s x a
  | .bad k a => xpStop s x k.code a

def readPlace (s : State) (cell : Nat) : Place → List Byte × State
  | .scratch k off n => (scratchRead s k off n, s)
  | .glob a => phasedRead s cell a

def writePlace (s : State) (cell : Nat) (data : List Byte) : Place → State
  | .scratch k off _ => scratchWrite s k off data
  | .glob a => homeWrite s (some cell) a data

/-- The bytes a place stands for, for the order of a context's own accesses. -/
def placeKeys : Place → List (Nat × Nat)
  | .scratch k off n => (List.range n).map (fun i => (k + 1, off + i))
  | .glob a => a.store.map (fun x => (0, x.2.key))

def overlaps (a b : List (Nat × Nat)) : Bool := a.any (fun x => b.contains x)
def Run.reads (r : Run) : List (Nat × Nat) := r.elems.flatMap (fun e => placeKeys e.src)
def Run.writes (r : Run) : List (Nat × Nat) := r.elems.flatMap (fun e => e.dst.flatMap placeKeys)

/-- Whether a context's word on some bytes has to wait for its own transfers (R254). -/
def xpConflict (c : Cell) (x : Xid) (write : Bool) (keys : List (Nat × Nat)) : Bool :=
  c.runs.any (fun r => r.ctx = x.ctx && (overlaps r.writes keys || (write && overlaps r.reads keys)))

def Place.isRemote : Place → Bool
  | .glob a => a.isRemote
  | _ => false

/-! ## Memory words (R254) -/

/-- The value an XLD of a width gives. -/
def xldValue (width : Nat) (b : List Byte) : Dword :=
  if width = 1 then (BitVec.ofNat 32 (leNat b)).signExtend 64 else dword (leNat b)

/-- XLD (R254). -/
def execXld (f : Xp) (s : State) : Host.Outcome State Fault Refusal :=
  onXp s (fun x c p =>
    let w := f.fl.toNat % 4
    let n := if w = 2 then 8 else 4
    withPlace s x ((xpPlace s c needLoad (tb f.fl.toNat 2) (p.ra f) f.imm.toInt n n).ready s (.xp x) x.cell (faultAddr (p.ra f) f.imm.toInt)) (fun pl =>
      if xpConflict c x false (placeKeys pl) then xpPause s x .order
      else
        let y := readPlace s x.cell pl
        xpNext (y.2.modXp x (fun q => q.set f.d.toNat (xldValue w y.1))) x))

/-- Whether an earlier transfer of a context has not landed, among runs below a number (R264); each XST and XSTAMP has when its word ends. -/
def xpInFlight (s : State) (x : Xid) (upto : Nat) : Bool :=
  ((s.cell? x.cell).map (fun c => c.runs.any (fun r => r.ctx = x.ctx && r.id < upto))).getD false
    || s.remote.any (fun q => q.id < upto && opOrdered q.op && (match q.use with
      | .ask (.xp y) => y = x
      | .ask (.run c r _) => c = x.cell && ((s.cell? c).map (fun c => c.runs.any (fun z => z.id = r && z.ctx = x.ctx))).getD false
      | _ => false))

/-- A word's own write: at a peer the word waits until it has been performed there (R254, R414, R435). -/
def xpWrite (s : State) (x : Xid) (pl : Place) (addr : Dword) (data : List Byte) : State :=
  match pl with
  | .glob a =>
    match putFor s (.xp x) (some x.cell) a data with
    | .waits s => xpPause s x .remote
    | .done s => xpNext s x
    | .bad k => xpStop s x k.code addr
  | _ => xpNext (writePlace s x.cell data pl) x

/-- XST (R254, R435). -/
def execXst (f : Xp) (s : State) : Host.Outcome State Fault Refusal :=
  onXp s (fun x c p =>
    let n := if f.fl.toNat % 4 = 2 then 8 else 4
    withPlace s x (xpPlace s c needStore (tb f.fl.toNat 2) (p.ra f) f.imm.toInt n n) (fun pl =>
      if xpConflict c x true (placeKeys pl) then xpPause s x .order
      else xpWrite s x pl (faultAddr (p.ra f) f.imm.toInt) (leBytes n (p.rb f).toNat)))

/-- XSTAMP (R254): once everything earlier has landed, an immediate store of 8 bytes. -/
def execXstamp (f : Xp) (s : State) : Host.Outcome State Fault Refusal :=
  onXp s (fun x c p =>
    withPlace s x (xpPlace s c needStoreImm (tb f.fl.toNat 2) (p.rb f) f.imm.toInt 8 8) (fun pl =>
      if (s.cell? x.cell).any (fun c => c.runs.any (fun r => r.ctx = x.ctx)) then xpPause s x .order
      else xpWrite s x pl (faultAddr (p.rb f) f.imm.toInt) (leBytes 8 (p.ra f).toNat)))

/-! ## Generators (R247, R248, R255) -/

/-- A tensor layout record: the generator, or none for an invalid record. -/
def parseGen (b : List Byte) : Option Gen :=
  let base := byteField b 0 8
  let rank := byteField b 8 1
  let esz := byteField b 9 1
  let space := byteField b 10 1
  let ext (j : Nat) : Nat := byteField b (12 + 4 * j) 4
  let str (j : Nat) : Int := toSigned 64 (byteField b (32 + 8 * j) 8)
  let rule (j : Nat) : Bool :=
    if j < rank then ext j ≥ 1 && str j % ((2 ^ esz : Nat) : Int) = 0 else ext j = 0 && str j = 0
  if 1 ≤ rank && rank ≤ 5 && esz ≤ 4 && space ≤ 1 && byteField b 11 1 = 0 && byteField b 82 46 = 0
      && (space = 0 || base < 2 ^ 32) && (List.range 5).all rule then
    some ⟨true, space = 1, dword base, rank, esz, (List.range rank).map ext, (List.range rank).map str, List.replicate rank 0, false⟩
  else none

/-- The box of a record: none where BOX breaks its rule. -/
def parseBox (b : List Byte) : Option (List Nat) :=
  let rank := byteField b 8 1
  let box (j : Nat) : Nat := byteField b (72 + 2 * j) 2
  if (List.range 5).all (fun j => if j < rank then box j ≥ 1 else box j = 0) then some ((List.range rank).map box) else none

def sumProd (xs : List Nat) (ys : List Int) : Int := ((xs.zip ys).map (fun x => (x.1 : Int) * x.2)).foldl (· + ·) 0

/-- Offset of the current element from the base. -/
def Gen.disp (g : Gen) : Int := sumProd g.idx g.str

/-- A linear index as indices in odometer order. -/
def unrank : List Nat → Nat → List Nat
  | [], _ => []
  | e :: r, n => n % e :: unrank r (n / e)

def rankOf : List Nat → List Nat → Nat
  | e :: es, i :: is => i + e * rankOf es is
  | _, _ => 0

/-- One step of n elements in odometer order; WRAP says whether it went past the last element (R247, DEDUCED, log entry 95). -/
def Gen.advance (g : Gen) (n : Nat) : Gen :=
  let total := g.ext.foldl (· * ·) 1
  let lin := rankOf g.ext g.idx + n
  { g with idx := if n = 0 then g.idx else unrank g.ext (lin % total), wrap := n ≠ 0 && total ≤ lin }

/-- The address of a generator's element, moved by `more` bytes, as a stop names it (R215, R267). -/
def Gen.addr (g : Gen) (more : Int) : Dword :=
  if g.scratch then dword (wrapNat 64 ((lo32 g.base).toNat + g.disp + more)) else faultAddr g.base (g.disp + more)

/-- The checked place of a generator's element, moved by `more` bytes. -/
def genPlace (s : State) (c : Cell) (g : Gen) (need : Need) (more : Int) : PlaceR :=
  let n := 2 ^ g.esz
  if g.scratch then scratchPlace c ((lo32 g.base).toNat + g.disp + more) n n else globPlace s c need g.base (g.disp + more) n n

def XpCtx.gen (p : XpCtx) (n : Nat) : Gen := p.gens.getD n Gen.empty
def XpCtx.setGen (p : XpCtx) (n : Nat) (g : Gen) : XpCtx := { p with gens := p.gens.set n g }

/-- XGSET (R248, R255). -/
def execXgset (f : Xp) (s : State) : Host.Outcome State Fault Refusal :=
  onXp s (fun x c p =>
    withPlace s x ((xpPlace s c needLoad (tb f.fl.toNat 2) (p.ra f) f.imm.toInt 128 128).ready s (.xp x) x.cell (faultAddr (p.ra f) f.imm.toInt)) (fun pl =>
      if xpConflict c x false (placeKeys pl) then xpPause s x .order
      else
        let y := readPlace s x.cell pl
        match parseGen y.1 with
        | some g => xpNext (y.2.modXp x (fun q => q.setGen f.dg.toNat g)) x
        | none => xpStop y.2 x xpGen 0))

/-- XGPOS (R255). -/
def execXgpos (f : Xp) (s : State) : Host.Outcome State Fault Refusal :=
  onXp s (fun x _ p =>
    let g := p.gen f.dg.toNat
    let idx := (List.range g.rank).map (fun j => (p.reg (f.a.toNat + j)).toNat)
    if !g.valid then xpStop s x xpGen 0
    else if f.a.toNat + g.rank - 1 > 31 then xpStop s x xpIllegal 0
    else if (idx.zip g.ext).any (fun y => y.1 ≥ y.2) then xpStop s x xpGen 0
    else xpNext (s.modXp x (fun q => q.setGen f.dg.toNat { g with idx := idx, wrap := false })) x)

/-- The count of a word: x(A), or IMM when A is 0 (R250). -/
def XpCtx.count (p : XpCtx) (f : Xp) : Nat := if f.a = 0 then (xpImm f).toNat else (p.ra f).toNat

/-- XGSTEP (R255). -/
def execXgstep (f : Xp) (s : State) : Host.Outcome State Fault Refusal :=
  onXp s (fun x _ p =>
    let g := p.gen f.dg.toNat
    if !g.valid then xpStop s x xpGen 0
    else
      let g := if f.fl = 0 then g else { g with idx := List.replicate g.rank 0 }
      let g := g.advance (p.count f)
      xpNext (s.modXp x (fun q => (q.setGen f.dg.toNat g).set f.d.toNat (if g.wrap then 1 else 0))) x)

/-! ## Data words (R256–R261, R265) -/

/-- What a data word does with each element. -/
inductive Move where
  | copy
  | gather (list : Dword)
  | cast (targets : List Nat)
  | conv (sel : BitVec 12)
  deriving DecidableEq, Repr

/-- Runs in flight on a core's data engine, of which it holds 64 (R10). -/
def runsOn (s : State) (core : Nat) : Nat := ((s.cells.filter (fun c => c.core = core)).map (fun c => c.runs.length)).sum

/-- The 64-byte block of a place, as a run may cover one on each side (R258). -/
def placeBlock : Place → Nat × Nat
  | .scratch k off _ => (k + 1, off / 64)
  | .glob a => (0, ((a.store.head?).map (fun x => x.2.key / 64)).getD 0)

def elemBlocks (e : RunElem) : (Nat × Nat) × List (Nat × Nat) := (placeBlock e.src, e.dst.map placeBlock)

/-- How the issue of elements ends. -/
inductive MoveEnd where
  | done
  | full
  | wait (root page : Nat)
  | peer (a : Access)
  | stop (c : Cause) (addr : Dword)
  deriving DecidableEq, Repr

/-- The place of an element's index in XGATH's list (R257). -/
def indexPlace (s : State) (c : Cell) (x : Xid) (list : Dword) (e : Nat) : PlaceR :=
  (globPlace s c needLoad list ((4 * e : Nat) : Int) 4 4).ready s (.xp x) c.id (faultAddr list ((4 * e : Nat) : Int))

/-- The element at the generators: its places, or why it does not issue. -/
def moveElem (s : State) (c : Cell) (x : Xid) (m : Move) (sg dg : Gen) (e : Nat) : Except MoveEnd RunElem :=
  let place (r : PlaceR) (k : Place → Except MoveEnd RunElem) : Except MoveEnd RunElem :=
    match r with
    | .ok p => k p
    | .waits r g => .error (.wait r g)
    | .peer a => .error (.peer a)
    | .bad c a => .error (.stop c a)
  let source (k : Place → Dword → Except MoveEnd RunElem) : Except MoveEnd RunElem :=
    match m with
    | .gather list =>
      place (indexPlace s c x list e) (fun ip =>
        let more := toSigned 32 (leNat (readPlace s c.id ip).1) * sg.str.getD 0 0
        place (genPlace s c sg needLoad more) (fun p => k p (sg.addr more)))
    | _ => place (genPlace s c sg needLoad 0) (fun p => k p (sg.addr 0))
  source (fun src at' =>
    match m with
    | .cast targets =>
      let live := (targets.filterMap s.cell?).filter (fun t => t.state ≠ .exited)
      match live.findSome? (fun t => match genPlace s t dg needStore 0 with
        | .ok _ => none
        | .waits r g => some (MoveEnd.wait r g)
        | .peer a => some (MoveEnd.peer a)
        | .bad k a => some (MoveEnd.stop k a)) with
      | some err => .error err
      | none =>
        let n := 2 ^ dg.esz
        .ok ⟨src, targets.map (fun t => .scratch t ((lo32 dg.base).toNat + dg.disp).toNat n), at', dg.addr 0⟩
    | _ => place (genPlace s c dg needStore 0) (fun d => .ok ⟨src, [d], at', dg.addr 0⟩))

/-- What reading the indices of some elements leaves: their pages accessed (R257, R402). -/
def readIndices (s : State) (c : Cell) (x : Xid) (m : Move) (es : List Nat) : State :=
  match m with
  | .gather list => es.foldl (fun s e => match indexPlace s c x list e with
    | .ok ip => (readPlace s c.id ip).2
    | _ => s) s
  | _ => s

/-- The index of an element of XGATH is still to be written by an earlier run of the context, or of this word, that has not landed
(R257, R258, DEDUCED, log entry 97). -/
def indexBusy (s : State) (c : Cell) (x : Xid) (m : Move) (e : Nat) (rs : List (List RunElem)) : Bool :=
  match m with
  | .gather list =>
    match globPlace s c needLoad list ((4 * e : Nat) : Int) 4 4 with
    | .ok ip => xpConflict c x false (placeKeys ip) || rs.any (fun r => r.any (fun y => y.dst.any (fun d => overlaps (placeKeys d) (placeKeys ip))))
    | _ => false
  | _ => false

/-- Issues elements into runs until the word is done, the engine is full, a page or a peer is waited for or a check fails; with each run
the generators at its first element, and that element's number. `same`: SG and DG are one
generator, which moves on once for each element (DEDUCED, log entry 96). -/
def issueElems (s : State) (c : Cell) (x : Xid) (m : Move) (same : Bool) (total room : Nat) :
    Nat → Gen → Gen → Nat → List (Gen × Gen × Nat × List RunElem) → Gen × Gen × Nat × List (Gen × Gen × Nat × List RunElem) × MoveEnd
  | 0, sg, dg, rem, rs => (sg, dg, rem, rs, .full)
  | fuel + 1, sg, dg, rem, rs =>
    if rem = 0 then (sg, dg, rem, rs, .done)
    else if indexBusy s c x m (total - rem) (rs.map (·.2.2.2)) then (sg, dg, rem, rs, .full)
    else
      match moveElem s c x m sg dg (total - rem) with
      | .error e => (sg, dg, rem, rs, e)
      | .ok el =>
        let sg' := match m with
          | .gather _ => if same then sg.advance 1 else sg
          | _ => sg.advance 1
        let go := issueElems s c x m same total room fuel sg' (dg.advance 1) (rem - 1)
        let joins (es : List RunElem) : Bool := es.head?.any (fun y => elemBlocks y = elemBlocks el)
        match rs with
        | (a, b, n, es) :: rest =>
          if joins es then go ((a, b, n, es ++ [el]) :: rest)
          else if rs.length ≥ room then (sg, dg, rem, rs, .full)
          else go ((sg, dg, total - rem, [el]) :: rs)
        | [] => if room = 0 then (sg, dg, rem, rs, .full) else go [(sg, dg, total - rem, [el])]

/-- The cells a mask of XMCAST may name: the gang's cells in the issuing cell's cluster, in ascending k22 (R261). -/
def castCells (s : State) (c : Cell) : List Nat :=
  match s.gang? c.gang with
  | some g => ((gangCells s g).filter (fun d => d.core / 6 = c.core / 6)).map (·.id)
  | none => [c.id]

/-- The counting slots of a transfer with their generations as it issues, or none where one is FREE or not held (R259). -/
def countSlots (s : State) (n : Nat) (cells : List Nat) : Option (List (Nat × Nat × BitVec 8)) :=
  let one (k : Nat) : Option (Nat × Nat × BitVec 8) :=
    match (s.cell? k).bind (slotOf · n) with
    | some (n, y) => if y.state = .free then none else some (k, n, y.gen)
    | none => none
  let l := cells.map one
  if l.all Option.isSome then some (l.filterMap id) else none

/-- Elements that one execution of a data word may issue: 64 runs of at most 64 elements. -/
def elemFuel : Nat := 4200

/-- Whether an element reads or writes at a peer. -/
def RunElem.remote (e : RunElem) : Bool := e.src.isRemote || e.dst.any Place.isRemote

/-- A data word: at its first execution its checks and its slots, then elements as far as the engine takes them (DEDUCED, log entry 98);
a word with elements at a peer ends once the peer has performed them, so that a check that fails there stops it (R267, R406), and an element
that fails its check stops the context once the runs before it have landed (DESIGN CHOICE, log entry 111) (DEDUCED, log entry 98). -/
def xpData (f : Xp) (s : State) (total : XpCtx → Nat) (move : XpCtx → Cell → Except Nat Move) (sizes : Gen → Gen → Bool) :
    Host.Outcome State Fault Refusal :=
  onXp s (fun x c p =>
    let sg := p.gen f.sg.toNat
    let dg := p.gen f.dg.toNat
    let n := total p
    if n = 0 then xpNext s x
    else if !sg.valid || !dg.valid then xpStop s x xpGen 0
    else if !sizes sg dg then xpStop s x xpGen 0
    else
      match move p c with
      | .error code => xpStop s x code 0
      | .ok m =>
        let receivers : List Nat := match m with
          | .cast ts => ts.filter (fun t => match s.cell? t with
            | some d => d.state ≠ .exited
            | none => false)
          | _ => [c.id]
        let slots := if f.d = 0 then some [] else countSlots s (p.reg f.d.toNat).toNat receivers
        match (if p.rem = 0 then slots else some p.xcount) with
        | none => xpStop s x xpBar 0
        | some count =>
          let phase := if p.rem = 0 then c.phase else p.xphase
          let rem := if p.rem = 0 then n else p.rem
          let moved := if p.rem = 0 then 0 else p.moved
          let word := if p.rem = 0 then s.nextId else p.xword
          let before := if p.rem = 0 then [] else p.counted
          let cv : Option (BitVec 12) := match m with
            | .conv sel => some sel
            | _ => none
          let stays : Bool := match m with
            | .gather _ => f.sg ≠ f.dg
            | _ => false
          let mk (y : Gen × Gen × Nat × List RunElem) (id : Nat) : Run :=
            ⟨id, x.ctx, y.2.2.2, List.range y.2.2.2.length, (List.range y.2.2.2.length).filter (fun i => before.contains (y.2.2.1 + i)), 2 ^ dg.esz, 0, false,
              cv, count, phase, some ⟨p.xpc, word, f.sg.toNat, f.dg.toNat, y.1, y.2.1, stays, y.2.2.1, n, n - rem - moved⟩⟩
          let r := issueElems s c x m (f.sg = f.dg) n (64 - runsOn s c.core) elemFuel sg dg rem []
          let rem' := r.2.2.1
          let runs := ((List.range r.2.2.2.1.length).zip r.2.2.2.1.reverse).map (fun y => mk y.2 (s.nextId + y.1))
          let far : Bool := (c.runs ++ runs).any (fun y => y.ctx = x.ctx && y.at'.any (fun a => a.pc = p.xpc) && y.elems.any RunElem.remote)
          let s := readIndices s c x m ((List.range (rem - rem')).map (n - rem + ·))
          let s := { s with nextId := s.nextId + runs.length }
          let s := s.modCell x.cell (fun c => { c with runs := c.runs ++ runs })
          let s := s.modXp x (fun q => { (q.setGen f.sg.toNat r.1).setGen f.dg.toNat r.2.1 with
            rem := rem', xcount := count, xphase := phase, moved := moved + (rem - rem'), xword := word, counted := before })
          match r.2.2.2.2 with
          | .done => if far then xpPause s x .runs else xpNext s x
          | .full => xpHold s x .queue
          | .wait root page => xpPageWait s x root page
          | .peer a => xpAsk s x a
          | .stop k a =>
            if (c.runs ++ runs).any (fun y => y.ctx = x.ctx) then
              s.modXp x (fun q => { q with fail := some ⟨s.nextId, 0, k.code, a, p.xpc, word, f.sg.toNat, f.dg.toNat, r.1, r.2.1, rem', moved + (rem - rem'), n,
                count, phase, []⟩ })
            else xpStop s x k.code a)

/-- XCOPY (R256). -/
def execXcopy (f : Xp) (s : State) : Host.Outcome State Fault Refusal :=
  xpData f s (fun p => p.count f) (fun _ _ => .ok .copy) (fun a b => a.esz = b.esz)
/-- XGATH (R257). -/
def execXgath (f : Xp) (s : State) : Host.Outcome State Fault Refusal :=
  xpData f s (fun p => p.count f) (fun p _ => .ok (.gather (p.rb f))) (fun a b => a.esz = b.esz)
/-- XMCAST (R261). -/
def execXmcast (f : Xp) (s : State) : Host.Outcome State Fault Refusal :=
  xpData f s (fun p => p.count f)
    (fun p c =>
      let mask := (p.rb f).toNat % 2 ^ 16
      let cells := castCells s c
      let bits := (List.range 16).filter (fun i => tb mask i)
      if bits.any (fun i => i ≥ cells.length) then .error mcastTarget
      else if !(p.gen f.dg.toNat).scratch then .error xpGen
      else .ok (.cast (bits.map (fun i => cells.getD i 0))))
    (fun a b => a.esz = b.esz)
/-- XCONV (R256): the sizes are those of the two formats. -/
def execXconv (f : Xp) (s : State) : Host.Outcome State Fault Refusal :=
  let sel := f.imm.toNat
  xpData f s (fun p => (p.ra f).toNat) (fun _ _ => .ok (.conv (f.imm.extractLsb' 0 12)))
    (fun a b => 8 * 2 ^ a.esz = (nfmt (sel % 16)).width && 8 * 2 ^ b.esz = (nfmt (sel / 16 % 16)).width)

/-! ## Landing (R258, R259, R261) -/

/-- Whether a target cell can still receive. -/
def receives (s : State) (cell : Nat) : Bool := match s.cell? cell with
  | some c => c.state ≠ .exited
  | none => false

/-- Landed bytes of one run at a slot: subtracted, or counted as an orphan under another generation (R259) or on a cell that has exited
(R346). -/
def landCount (s : State) (n : Nat × Nat × BitVec 8) (bytes : Nat) : State :=
  match cellSlot? s n.1 n.2.1 with
  | some y =>
    if y.gen = n.2.2 && y.state ≠ .free && receives s n.1 then
      modSlot s n.1 n.2.1 (fun y => ({ y with pending := y.pending - bytes }).settle)
    else s.modCell n.1 (fun c => { c with orphans := c.orphans + 1 })
  | none => s.modCell n.1 (fun c => { c with orphans := c.orphans + 1 })

/-- An element's bytes as they are written: converted for XCONV, its flags dropped. -/
def landData (conv : Option (BitVec 12)) (b : List Byte) : List Byte :=
  match conv with
  | none => b
  | some sel =>
    let n := sel.toNat
    let d := nfmt (n / 16 % 16)
    leBytes (d.width / 8) (cvtBits (nfmt (n % 16)) d (RMode.ofCode (n / 256 % 4)) (tb n 10) (leNat b)).1

/-- An element written at its destinations; an exited target's part is dropped. -/
def landElem (s : State) (cell : Nat) (conv : Option (BitVec 12)) (e : RunElem) (b : List Byte) : State :=
  e.dst.foldl (fun s d => match d with
    | .scratch k _ _ => if receives s k then writePlace s cell (landData conv b) d else s
    | .glob _ => writePlace s cell (landData conv b) d) s

/-- A run has landed: its bytes are counted and dropped targets noted (DEDUCED, log entry 48). -/
def landRun (s : State) (x : Xid) (r : Run) : State :=
  let targets := dedup ((r.elems.flatMap (·.dst)).filterMap (fun d => match d with
    | .scratch k _ _ => if k = x.cell then none else some k
    | .glob _ => none))
  let dropped := (targets.filter (fun t => !receives s t)).length
  let s := s.modCell x.cell (fun c => { c with runs := c.runs.filter (fun y => y.id ≠ r.id) })
  let s := s.modXp x (fun p => { p with mcdrop := p.mcdrop + dropped })
  if r.bytes = 0 then s else r.count.foldl (fun s n => landCount s n r.bytes) s

/-- Whether no earlier run of the context still has to write what a run writes or reads (R258). -/
def runReady (c : Cell) (r : Run) : Bool :=
  (c.runs.takeWhile (fun y => y.id ≠ r.id)).all (fun y => y.ctx ≠ r.ctx || !(overlaps y.writes r.writes || overlaps y.writes r.reads))

/-- How an asker's write at a peer stands: not asked for, unanswered, or answered with a cause code, 0 for none. -/
def putAnswer (s : State) (who : Asker) : Option (Option Nat) :=
  (s.asks.find? (fun q => q.who == who && opOrdered q.op)).map (fun q => q.answer.map (·.2))

/-- The frame of an access whose data the memory port cannot correct (R398, R461). -/
def Access.spoilt (s : State) (a : Access) : Option Nat := a.store.findSome? (fun x => badFrame s x.2)

def Place.spoilt (s : State) (p : Place) : Option Nat :=
  match p with
  | .glob a => a.spoilt s
  | .scratch _ _ _ => none

/-- What becomes of one element of a run. -/
inductive ElemEnd where
  | moved (s : State)
  | waits (s : State)
  | failed (s : State) (c : Cause) (addr : Dword)

/-- One element read and written; a side at a peer takes a request and its answer (R414), and an uncorrectable error that it meets poisons
the page (R258). -/
def takeElem (s : State) (x : Xid) (r : Run) (i : Nat) (e : RunElem) : ElemEnd :=
  let who : Asker := .run x.cell r.id i
  let write (s : State) (b : List Byte) : ElemEnd :=
    match e.dst.findSome? (Place.spoilt s), e.dst with
    | some f, _ => .failed (poison s f) .pagePoisoned e.dstAddr
    | none, [.glob d] =>
      if d.isRemote then .waits (askPeer s who d (.write (landData r.conv b))) else .moved (landElem s x.cell r.conv e b)
    | none, _ => .moved (landElem s x.cell r.conv e b)
  match putAnswer s who with
  | some none => .waits s
  | some (some code) => if code = 0 then .moved s else .failed s (Cause.ofCode code) e.dstAddr
  | none =>
    match e.src.spoilt s with
    | some f => .failed (poison s f) .pagePoisoned e.srcAddr
    | none =>
      match (PlaceR.ok e.src).ready s who x.cell e.srcAddr with
      | .ok p =>
        let y := readPlace s x.cell p
        write y.2 y.1
      | .peer a => .waits (askPeer s who a (.read a.size))
      | .waits _ _ => .waits s
      | .bad k a => .failed s k a

def modRun (s : State) (cell run : Nat) (f : Run → Run) : State :=
  s.modCell cell (fun c => { c with runs := c.runs.map (fun y => if y.id = run then f y else y) })

/-- What has not landed of some runs, by the issue of its word. -/
def lostOf (rs : List Run) : List (Nat × Nat) :=
  rs.flatMap (fun r => match r.at' with
    | some a => r.left.map (fun i => (a.word, a.first + i))
    | none => [])

/-- A failed element joins what its context is to stop at: the first in the order of issue counts (R267). -/
def XpCtx.noteFail (p : XpCtx) (f : XpFail) : XpCtx :=
  { p with fail := match p.fail with
      | none => some f
      | some g => if g.run < f.run || (g.run = f.run && g.elem < f.elem) then some { g with lost := g.lost ++ f.lost } else some { f with lost := f.lost ++ g.lost } }

/-- An element of a run failed (R258, R267): it lands nowhere, nor do the elements of its run behind it and of later runs that are not yet
there. Every element before it lands, and the context, unless it has left the word behind or has ended, stops when its runs are over
(DESIGN CHOICE, log entry 111). -/
def failElem (s : State) (x : Xid) (r : Run) (i : Nat) (k : Cause) (addr : Dword) : State :=
  let later (y : Run) : Bool := y.ctx = x.ctx && decide (r.id < y.id)
  let runs := ((s.cell? x.cell).map (·.runs)).getD []
  let cut := { r with left := r.left.filter (i ≤ ·) } :: runs.filter later
  let s := cut.foldl (fun s y => y.left.foldl (fun s j => dropAsks s (.run x.cell y.id j)) s) s
  let s := s.modCell x.cell (fun c => { c with runs := (c.runs.filter (fun y => !later y || y.begun)).map (fun y =>
    if y.id = r.id then { y with left := y.left.filter (· < i) } else if later y then { y with left := [] } else y) })
  match r.at' with
  | some a =>
    let e := a.first + i
    let on (g : Gen) : Gen := (List.range i).foldl (fun g _ => g.advance 1) g
    s.modXp x (fun p =>
      if p.state = .running || p.state = .waiting || p.state = .stopped then
        p.noteFail ⟨r.id, i, k.code, addr, a.pc, a.word, a.sg, a.dg, if a.stays then a.sgen else on a.sgen, on a.dgen, a.total - e, e - a.base, a.total,
          r.count, r.phase, lostOf cut⟩
      else p)
  | none => s

/-- The context stops at its failed element, once none of its runs is under way (R267): the elements after it that have landed are moved again
on a resume, and counted no more (R268). -/
def settleFail (s : State) (x : Xid) : State :=
  match s.xp? x with
  | none => s
  | some p =>
    match p.fail with
    | none => s
    | some f =>
      if ((s.cell? x.cell).map (fun c => c.runs.any (fun y => y.ctx = x.ctx))).getD false then s
      else
        let issued := if p.xword = f.word then f.total - p.rem else f.total
        let e := f.total - f.rem
        let landed := (List.range issued).filter (fun n => decide (e ≤ n) && !f.lost.contains (f.word, n))
        let before := if p.xword = f.word then p.counted.filter (e ≤ ·) else []
        let s := (dropAsks s (.xp x)).modXp x (fun p => { (p.setGen f.sg f.sgen).setGen f.dg f.dgen with
          xpc := f.pc, rem := f.rem, xcount := f.count, xphase := f.phase, moved := f.low, xword := f.word,
          counted := landed ++ before.filter (fun n => !landed.contains n), exiting := false, waitOn := .none, fail := none })
        xpStopAt s x f.code f.addr f.pc f.low

/-- One element of a run in its turn; `true` once one has failed. -/
def stepElem (x : Xid) (run : Nat) (y : State × Bool) (i : Nat) : State × Bool :=
  match y.2, ((y.1.cell? x.cell).bind (fun c => c.runs.find? (fun r => r.id = run))) with
  | false, some r =>
    match r.elems[i]? with
    | none => y
    | some e =>
      match takeElem y.1 x r i e with
      | .moved s => (modRun (dropAsks s (.run x.cell run i)) x.cell run (fun z => { z with left := z.left.filter (· ≠ i), bytes := z.bytes + (if z.again.contains i then 0 else z.size) }), false)
      | .waits s => (s, false)
      | .failed s k a => (failElem s x r i k a, true)
  | _, _ => y

/-- TRANSFER_LAND (R258, R259): a run reads and writes its elements, and lands once no peer is awaited. -/
def landOne (s : State) (x : Xid) (run : Nat) : State :=
  match (s.cell? x.cell).bind (fun c => (c.runs.find? (fun r => r.id = run)).map (fun r => (c, r))) with
  | none => s
  | some (c, r) =>
    if r.ctx ≠ x.ctx || !runReady c r then s
    else
      let s := (r.left.foldl (stepElem x run) (modRun s x.cell run (fun y => { y with begun := true }), false)).1
      match (s.cell? x.cell).bind (fun c => c.runs.find? (fun r => r.id = run)) with
      | some r => if r.left.isEmpty then landRun s x r else s
      | none => s

/-- TRANSFER_LAND (R258, R259). -/
def execTransferLand (x : Xid) (run : Nat) (s : State) : Host.Outcome State Fault Refusal := .next (landOne s x run)

/-! ## Queue-mapped registers (R262) -/

/-- XQPUSH (R262): one segment of 32 elements, one for each lane. -/
def execXqpush (f : Xp) (s : State) : Host.Outcome State Fault Refusal :=
  onXp s (fun x c p =>
    let g := p.gen f.sg.toNat
    let sq := (p.ra f).toNat % 32
    let n := f.d.toNat
    match c.squads[sq]? with
    | none => if g.valid && g.esz = 2 then xpStop s x xpQueue 0 else xpStop s x xpGen 0
    | some q =>
      if !g.valid || g.esz ≠ 2 then xpStop s x xpGen 0
      else if q.bind.getD n 0 ≠ x.ctx || q.handler.isSome then xpStop s x xpQueue 0
      else
        let places := (List.range 32).map (fun i => (genPlace s c (g.advance i) needLoad 0).ready s (.xp x) x.cell ((g.advance i).addr 0))
        match places.findSome? (fun (r : PlaceR) => match r with
          | .bad k a => some (MoveEnd.stop k a)
          | .waits r g => some (MoveEnd.wait r g)
          | .peer a => some (MoveEnd.peer a)
          | .ok _ => none) with
        | some (.stop k a) => xpStop (s.modXp x (fun y => { y with rem := 32, moved := 0, xphase := c.phase })) x k.code a
        | some (.wait r g) => xpPageWait s x r g
        | some (.peer _) => xpPause (places.foldl (fun s (r : PlaceR) => match r with
            | .peer a => askPeer s (.xp x) a (.read a.size)
            | _ => s) s) x .remote
        | _ =>
          let ps := places.filterMap (fun (r : PlaceR) => match r with
            | .ok y => some y
            | _ => none)
          if ps.any (fun y => xpConflict c x false (placeKeys y)) then xpPause s x .order
          else if q.threads.any (fun th => th.state ≠ .exited && (th.queues.getD n []).length ≥ 16) then xpHold s x .queue
          else
            let rd := ps.foldl (fun (a : List Word × State) y => let v := readPlace a.2 x.cell y; (a.1 ++ [word (leNat v.1)], v.2)) ([], s)
            let gone := (q.threads.filter (fun th => th.state = .exited)).length
            let s := rd.2.modSquad x.cell sq (fun q => { q with threads := q.threads.map (fun th =>
              if th.state = .exited then th
              else { th with queues := th.queues.modify n (fun l => l ++ [rd.1.getD th.lane 0]) }) })
            xpNext (s.modXp x (fun y => { y.setGen f.sg.toNat (g.advance 32) with qdisc := y.qdisc + gone, rem := 0 })) x)

/-! ## Barrier words (R260) -/

/-- XBARV (R260, R378): bytes and one arrival in one step. -/
def execXbarv (f : Xp) (s : State) : Host.Outcome State Fault Refusal :=
  onXp s (fun x c p =>
    let bytes := (p.rb f + xpImm f).toInt
    match slotOf c (p.ra f).toNat with
    | none => xpStop s x xpBar 0
    | some (n, y) =>
      match y.state with
      | .free => xpStop s x xpBar 0
      | .completing => xpPause (modSlot s x.cell n (fun y => { y with held := y.held ++ [.xarrive x.ctx bytes y.gen] })) x .held
      | .armed =>
        if y.arrived = y.expect || !pendingOk (y.pending + bytes) then xpStop s x xpBar 0
        else xpNext (modSlot s x.cell n (fun y => y.arrive none bytes)) x)

/-- XBWAIT (R260): the phase that is current now. -/
def execXbwait (f : Xp) (s : State) : Host.Outcome State Fault Refusal :=
  onXp s (fun x c p =>
    match slotOf c (p.ra f).toNat with
    | none => xpStop s x xpBar 0
    | some (n, y) =>
      if y.state = .free then xpStop s x xpBar 0
      else xpHold (xpNext (modSlot s x.cell n (fun y => { y with xwait := y.xwait ++ [x.ctx] })) x) x (.slot n y.pbit))

/-! ## Matrix operations (R263, R193) -/

/-- Where the descriptor's fields name k0–k3, their value. -/
def descK (b : List Byte) (c : Code) : Option Nat :=
  if 0xC0 ≤ c.toNat && c.toNat ≤ 0xC3 then some (byteField b (16 + 4 * (c.toNat - 0xC0)) 4) else none

/-- The operation of an XMXM descriptor, or the code it stops with (R263). -/
def parseMx (c : Cell) (b : List Byte) : Except Nat ArrayOp :=
  let w (i : Nat) : Word := word (byteField b (4 * i) 4)
  let e := decodeExt (w 0) (w 1) (w 2) none
  let plain (f : Ext) : Bool := Guard.always f.g && f.la = 0 && f.lit.isNone
  let tile (t : Code) (op : ArrayOp) : Except Nat ArrayOp :=
    if t.toNat > 7 then .error xpIllegal else if t.toNat < c.shape.acc then .ok op else .error Cause.matrixState.code
  let bank (op : Except Nat ArrayOp) : Except Nat ArrayOp := if c.shape.rind then op else .error Cause.matrixState.code
  let mxm (fmt : Nat) (f : Ext) : Except Nat ArrayOp :=
    match descK b f.a.code, descK b f.c.code with
    | some base, some pitch =>
      if f.b.code.toNat > 127 || f.d.toNat > 7 then .error xpIllegal
      else if f.d.toNat < c.shape.acc then
        bank (.ok (.mxm fmt f.d.toNat f.b.code.toNat base pitch (f.imm.toNat % 32) false []))
      else .error Cause.matrixState.code
    | _, _ => .error xpIllegal
  if byteField b 12 4 ≠ 0 || fld (w 0) 1 0 ≠ 2 then .error xpIllegal
  else
    match e with
    | some i =>
      if !i.wellFormed then .error xpIllegal
      else
        match i with
        | .mxbld f =>
          if !plain f || f.d.toNat > 127 then .error xpIllegal
          else
            match descK b f.a.code, descK b f.b.code with
            | some base, some pitch => bank (.ok (.mxbld f.d.toNat base pitch (f.imm.toNat % 16) (f.imm.toNat / 16 % 4)))
            | _, _ => .error xpIllegal
        | .mxmE4m3 f => if plain f then mxm 0 f else .error xpIllegal
        | .mxmE5m2 f => if plain f then mxm 1 f else .error xpIllegal
        | .mxmE2m1 f => if plain f then mxm 2 f else .error xpIllegal
        | .mxmBf16 f => if plain f then mxm 5 f else .error xpIllegal
        | .mxmF16 f => if plain f then mxm 6 f else .error xpIllegal
        | .mxz f => if plain f then tile f.d (.mxz f.d.toNat (f.fn = 1)) else .error xpIllegal
        | .mxst f =>
          if !plain f then .error xpIllegal
          else
            match descK b f.b.code, descK b f.c.code with
            | some base, some pitch => tile f.a.code (.mxst f.fn.toNat f.a.code.toNat base pitch (tb f.imm.toNat 10))
            | _, _ => .error xpIllegal
        | _ => .error xpIllegal
    | none => .error xpIllegal

/-- XMXM (R263): the descriptor is checked and the operation joins PENDMX. -/
def execXmxm (f : Xp) (s : State) : Host.Outcome State Fault Refusal :=
  onXp s (fun x c p =>
    match scratchPlace c ((lo32 (p.ra f)).toNat) 32 32 with
    | .waits _ _ => s
    | .peer _ => s
    | .bad k a => xpStop s x k.code a
    | .ok pl =>
      if xpConflict c x false (placeKeys pl) then xpPause s x .order
      else
        match parseMx c (readPlace s x.cell pl).1 with
        | .error code => xpStop s x code 0
        | .ok op =>
          match mxScratch c op with
          | some (k, o) => xpStop s x k.code (dword o)
          | none =>
            let put (s : State) (w : Option (Nat × Bool)) : State :=
              xpNext (s.modXp x (fun q => { q with pendmx := q.pendmx ++ [⟨op, p.xpc, w⟩] })) x
            if f.fl = 0 then put s none
            else
              match slotOf c (p.rb f).toNat with
              | none => xpStop s x xpBar 0
              | some (n, y) =>
                if y.state = .free then xpStop s x xpBar 0
                else put (modSlot s x.cell n (fun y => { y with xwait := y.xwait ++ [x.ctx] })) (some (n, y.pbit)))

/-- XEXIT completes once PENDMX is empty (R266); what still waits on the context's queues is orphaned (R358). -/
def settleExit (s : State) (x : Xid) : State :=
  match s.xp? x with
  | some p =>
    if p.exiting && p.pendmx.isEmpty then orphanWaiters (s.modXp x (fun p => { p with state := .exited, exiting := false, waitOn := .none })) x else s
  | none => s

/-- XMXM_ENTRY (R263): the first of PENDMX enters the array queue once its slot's phase has completed; one that fails its check is
discarded with those behind it, and the context stops at its word boundary (DEDUCED, log entry 45). -/
def execXmxmEntry (x : Xid) (s : State) : Host.Outcome State Fault Refusal :=
  .next (match s.cell? x.cell, s.xp? x with
    | some c, some p =>
      match p.pendmx with
      | [] => s
      | m :: rest =>
        if m.wait.isSome || !c.resident || !ctxLive s c.ctx || queueUsed s c.core ≥ 16 then s
        else
          match mxIssue c m.op with
          | none => settleExit ((mxPush s x.cell m.op).modXp x (fun p => { p with pendmx := rest })) x
          | some _ =>
            let between : Bool := p.rem = 0 && (match p.waitOn with
              | .slot _ _ => false
              | .remote => false
              | .runs => false
              | .held => false
              | _ => true)
            if !between || p.fail.isSome then s
            else
              let s := (dropXwait s x).modXp x (fun p => { p with pendmx := [], exiting := false })
              xpStopAt s x Cause.matrixState.code 0 m.word 0 m.word
    | _, _ => s)

/-! ## Fences, traps and the end (R264, R266) -/

/-- Whether what a fence waits for has landed or been performed. -/
def drained (s : State) (x : Xid) (mask upto : Nat) : Bool :=
  let core := coreOf s x.cell
  let own := !xpInFlight s x upto && ((s.xp? x).map (fun p => p.pendmx.isEmpty)).getD true
  let ctxs (n : Nat) : Bool := s.cells.all (fun c => c.core ≠ core || c.place ≠ .core || !xpInFlight s ⟨c.id, n⟩ upto)
  let xp0 := ((s.core? core).map (fun k => k.tcopy.all (fun t => t.id ≥ upto))).getD true
  let arr := ((s.core? core).map (fun k => k.array.all (fun e => e.id ≥ upto))).getD true
  own && (!tb mask 0 || xp0) && [1, 2, 3].all (fun n => !tb mask n || ctxs n) && (!tb mask 4 || arr)

def xpFence (s : State) (mask : Nat) : Host.Outcome State Fault Refusal :=
  onXp s (fun x _ _ => if drained s x mask s.nextId then xpNext s x else xpHold s x (.drain mask s.nextId))

/-- XWAIT (R264). -/
def execXwait (_ : Xp) (s : State) : Host.Outcome State Fault Refusal := xpFence s 0
/-- XQFENCE (R264). -/
def execXqfence (f : Xp) (s : State) : Host.Outcome State Fault Refusal := xpFence s f.imm.toNat

/-- Whether elements of the word at which a context stands are still at a peer (R256, R414). -/
def runsOut (s : State) (x : Xid) (pc : Nat) : Bool :=
  ((s.cell? x.cell).map (fun c => c.runs.any (fun y => y.ctx = x.ctx && y.at'.any (fun a => a.pc = pc) && y.elems.any RunElem.remote))).getD false

/-- XP_WAIT_END (R246, R267, R269): the context goes on by itself when what it waited for is over, or stops at an element that has failed. -/
def execXpWaitEnd (x : Xid) (s : State) : Host.Outcome State Fault Refusal :=
  .next (match s.xp? x with
    | some p =>
      let go (s : State) : State := s.modXp x (fun p => { p with state := .running, waitOn := .none })
      if p.fail.isSome then settleFail s x
      else if p.state ≠ .waiting && p.state ≠ .running then s
      else
        match p.waitOn with
        | .queue => go s
        | .order => go s
        | .remote => if asking s (.xp x) then s else go s
        | .runs => if runsOut s x p.xpc then s else xpNext (go s) x
        | .page r g => match s.page? r g with
          | some e => if e.state = .resident || e.state = .unmapped || e.state = .poisoned then go s else s
          | none => go s
        | .drain mask upto => if drained s x mask upto then xpNext (go s) x else s
        | _ => s
    | none => s)

/-- XTRAP (R266). -/
def execXtrap (f : Xp) (s : State) : Host.Outcome State Fault Refusal :=
  onXp s (fun x _ p => xpStopAt s x Cause.trapSoft.code 0 p.xpc f.imm.toNat)

/-- XEXIT (R266). -/
def execXexit (_ : Xp) (s : State) : Host.Outcome State Fault Refusal :=
  onXp s (fun x _ _ => settleExit (s.modXp x (fun p => { p with exiting := true })) x)

/-! ## XPRUN, TCOPY and QMAP (R271–R275) -/

/-- A v source of R271: a lane register's 32 bits, else 64. -/
def Rd.xv (r : Rd) (f : Src) : Nat := if isV f.code then (r.vreg f 0).toNat else (r.x64 f).toNat

/-- XP0 as a cell sees it (R272). -/
def xp0Stat (s : State) (c : Cell) : Dword :=
  let busy := ((s.core? c.core).map (fun k => k.tcopy.any (fun t => t.cell = c.id))).getD false
  dword ((if busy then 1 else 0) + c.xp0code * 256)

/-- XPRUN names a context of the cell, or XP0 for a query (R271): its effect on the context, live when RUNNING, WAITING or STOPPED. -/
def xprunOn (f : Ext) (query : Bool) (r : Rd) (s : State) (g : Xid → XpCtx → Bool → LaneOut) : LaneOut :=
  let n := r.xv f.a
  let x : Xid := ⟨r.t.cell, n⟩
  if n > 3 || (n = 0 && !query) || n > r.c.xps.length then .cause .operandNamespace none 0 0
  else if n = 0 then .done s (writeInt f.d true false (xp0Stat s ((s.cell? r.t.cell).getD r.c)).toNat)
  else
    match s.xp? x with
    | none => .cause .operandNamespace none 0 0
    | some p => g x p (p.state = .running || p.state = .waiting || p.state = .stopped)

/-- Transfers still in flight from before a start stop the context nowhere. -/
def leaveRuns (s : State) (x : Xid) : State :=
  (dropAsks s (.xp x)).modCell x.cell (fun c => { c with runs := c.runs.map (fun y => if y.ctx = x.ctx then { y with at' := none } else y) })

/-- XPRUN.start: a live context is left as it is. -/
def semXprunStart (f : Ext) : LaneSem := fun r s => xprunOn f false r s (fun x _ live =>
  if live then .done s {}
  else .done ((leaveRuns s x).modXp x (fun _ => { XpCtx.start with xpc := r.xv f.b % 2 ^ 32, state := .running, x := XpCtx.start.x.set 1 (r.x64 f.c) })) {})
/-- XPRUN.resume (R268). -/
def semXprunResume (f : Ext) : LaneSem := fun r s => xprunOn f false r s (fun x p _ =>
  .done (if p.state = .stopped then s.modXp x (fun p => { p with state := .running, moved := 0 }) else s) {})
/-- XPRUN.qry: XSTAT. -/
def semXprunQry (f : Ext) : LaneSem := fun r s => xprunOn f true r s (fun _ p _ => .done s (writeInt f.d true false p.stat.toNat))
/-- XPRUN.kill (R270). -/
def semXprunKill (f : Ext) : LaneSem := fun r s => xprunOn f false r s (fun x _ live => .done (if live then xpKill s x else s) {})

/-- XPRUN.start (R272). -/
def execXprunStart (f : Ext) (s : State) : Host.Outcome State Fault Refusal := issue { form := .ext 0xD8 f, sem := semXprunStart f } s
/-- XPRUN.resume (R268). -/
def execXprunResume (f : Ext) (s : State) : Host.Outcome State Fault Refusal := issue { form := .ext 0xD8 f, sem := semXprunResume f } s
/-- XPRUN.qry (R272). -/
def execXprunQry (f : Ext) (s : State) : Host.Outcome State Fault Refusal := issue { form := .ext 0xD8 f, sem := semXprunQry f } s
/-- XPRUN.kill (R270). -/
def execXprunKill (f : Ext) (s : State) : Host.Outcome State Fault Refusal := issue { form := .ext 0xD8 f, sem := semXprunKill f } s

/-- TCOPY (R273): the request joins XP0's queue with its slot's generation and phase tag (DEDUCED, log entry 47). -/
def semTcopy (f : Ext) : LaneSem := fun r s =>
  let n := f.imm.toNat % 64
  let slot : Option (Nat × BitVec 8) :=
    if tb f.imm.toNat 6 then some (n, ((cellSlot? s r.t.cell n).map (·.gen)).getD 0) else none
  let q : TcopyReq := ⟨s.nextId, r.t.cell, 0, none, f.fn = 0, r.x64 f.a, (List.range 5).map (fun j => toSigned 32 (r.vreg f.b j).toNat),
    r.xv f.c, slot, r.c.phase⟩
  .done (({ s with nextId := s.nextId + 1 }).modCore r.c.core (fun k => { k with tcopy := k.tcopy ++ [q] })) {}

/-- TCOPY (R273). -/
def execTcopy (f : Ext) (s : State) : Host.Outcome State Fault Refusal := issue { form := .ext 0xD9 f, sem := semTcopy f } s

/-- A failed TCOPY request (R274). -/
def tcopyFail (s : State) (core : Nat) (q : TcopyReq) (code : Nat) (addr : Dword) : State :=
  let s := dropAsks (s.modCore core (fun k => { k with tcopy := k.tcopy.drop 1 })) (.tcopy core q.id)
  let s := xpRecord s ⟨q.cell, 0⟩ 2 code addr 0 (dword q.landed)
  raiseXp (s.modCell q.cell (fun c => { c with xp0code := code })) q.cell 0 code

/-- The places of a box element: global if it lies in the tensor, and scratch (R273). -/
def tcopyElem (s : State) (c : Cell) (g : Gen) (box : List Nat) (q : TcopyReq) (e : Nat) : Option (PlaceR × Dword) × PlaceR :=
  let at' := (unrank box e).zip (q.index.take g.rank) |>.map (fun x => (x.1 : Int) + x.2)
  let inside := (at'.zip g.ext).all (fun x => 0 ≤ x.1 && x.1 < x.2)
  let disp := ((at'.zip g.str).map (fun x => x.1 * x.2)).foldl (· + ·) 0
  let n := 2 ^ g.esz
  (if inside then some (globPlace s c (if q.load then needLoad else needStore) g.base disp n n, faultAddr g.base disp) else none,
    scratchPlace c ((q.scratch + e * n : Nat) : Int) n n)

/-- The request with its progress, its landed bytes counted. -/
def tcopyLand (s : State) (core : Nat) (q : TcopyReq) (bytes : Nat) : State :=
  let s := s.modCore core (fun k => { k with tcopy := k.tcopy.map (fun t => if t.id = q.id then q else t) })
  match q.slot with
  | some (n, gen) => if bytes = 0 then s else landCount s (q.cell, n, gen) bytes
  | none => s

/-- Moves one run of box elements: those in one block on each side, one at a peer by itself; the request is done, goes on, waits or fails. -/
def tcopyRun (core : Nat) (c : Cell) (g : Gen) (box : List Nat) (total : Nat) : Nat → Option ((Nat × Nat) × (Nat × Nat)) → Nat → TcopyReq → State → State
  | 0, _, bytes, q, s => tcopyLand s core q bytes
  | fuel + 1, blk, bytes, q, s =>
    if q.landed ≥ total then tcopyLand s core q bytes
    else
      let x := tcopyElem s c g box q q.landed
      let n := 2 ^ g.esz
      let who : Asker := .tcopy core q.id
      let next (s : State) (b : (Nat × Nat) × (Nat × Nat)) (k : Nat) : State :=
        match blk with
        | some b' => if b = b' then tcopyRun core c g box total fuel blk (bytes + k) { q with landed := q.landed + 1 } s else tcopyLand s core q bytes
        | none => tcopyRun core c g box total fuel (some b) (bytes + k) { q with landed := q.landed + 1 } s
      let alone (s : State) : State := tcopyLand (dropAsks s who) core { q with landed := q.landed + 1 } n
      match x with
      | (some (.waits r p, _), _) => firstTouch (tcopyLand s core q bytes) r p
      | (some (.bad k a, _), _) => tcopyFail (tcopyLand s core q bytes) core q k.code a
      | (_, .bad k a) => tcopyFail (tcopyLand s core q bytes) core q k.code a
      | (_, .waits _ _) => tcopyLand s core q bytes
      | (_, .peer _) => tcopyLand s core q bytes
      | (some (.peer _, _), _) => tcopyLand s core q bytes
      | (none, .ok sp) =>
        if q.load then next (writePlace s c.id (List.replicate n 0) sp) (placeBlock sp, (1, 0)) n
        else next s (placeBlock sp, (1, 0)) 0
      | (some (.ok gp, addr), .ok sp) =>
        let b := (placeBlock sp, placeBlock gp)
        if blk.any (fun b' => b ≠ b') then tcopyLand s core q bytes
        else if gp.isRemote then
          if bytes ≠ 0 then tcopyLand s core q bytes
          else if q.load then
            match (PlaceR.ok gp).ready s who c.id addr with
            | .ok p => alone (writePlace s c.id (readPlace s c.id p).1 sp)
            | .peer a => askPeer s who a (.read n)
            | .bad k a => tcopyFail s core q k.code a
            | .waits _ _ => s
          else
            match putAnswer s who, gp with
            | some (some code), _ => if code = 0 then alone s else tcopyFail s core q (Cause.ofCode code).code addr
            | none, .glob a => askPeer s who a (.write (readPlace s c.id sp).1)
            | _, _ => s
        else if q.load then
          let y := readPlace s c.id gp
          next (writePlace y.2 c.id y.1 sp) b n
        else
          let y := readPlace s c.id sp
          next (writePlace y.2 c.id y.1 gp) b n

/-- XP0 moves one run of a request that it has begun, and ends it when the box is done. -/
def tcopyGo (s : State) (core : Nat) (c : Cell) (q : TcopyReq) (g : Gen) (box : List Nat) : State :=
  let total := box.foldl (· * ·) 1
  let s := tcopyRun core c g box total 65 none 0 q (tcopyLand s core q 0)
  s.modCore core (fun k => { k with tcopy := k.tcopy.filter (fun t => !(t.id = q.id && decide (t.landed ≥ total))) })

/-- Whether XP0 serves a cell's request (R273): its context runs; a box that is begun is completed before the cell is saved or its context
ended (R276, R288). -/
def tcopyServed (s : State) (c : Cell) (q : TcopyReq) : Bool :=
  match s.ctx? c.ctx with
  | some x => (ctxLive s c.ctx && (c.resident || q.tensor.isSome)) || (x.state = .stopping && q.tensor.isSome)
  | none => false

/-- TCOPY_SERVICE (R273, R274): XP0 reads the record of its first request, and moves one run of its box (DESIGN CHOICE, log entry 46). -/
def execTcopyService (core : Nat) (s : State) : Host.Outcome State Fault Refusal :=
  .next (match (s.core? core).bind (fun k => k.tcopy.head?) with
    | none => s
    | some q =>
      match s.cell? q.cell with
      | none => s.modCore core (fun k => { k with tcopy := k.tcopy.drop 1 })
      | some c =>
        if !tcopyServed s c q then s
        else
          match q.tensor with
          | some (g, box) => tcopyGo s core c q g box
          | none =>
            let who : Asker := .tcopy core q.id
            match (globPlace s c needLoad q.record 0 128 128).ready s who c.id (faultAddr q.record 0) with
            | .waits r p => firstTouch s r p
            | .peer a => askPeer s who a (.read 128)
            | .bad k a => tcopyFail s core q k.code a
            | .ok pl =>
              let y := readPlace s c.id pl
              let s := dropAsks y.2 who
              match parseGen y.1, parseBox y.1 with
              | some g, some box =>
                if g.scratch then tcopyFail s core q xpGen 0
                else
                  let freeSlot : Bool := match q.slot with
                    | some (n, _) => (match cellSlot? s q.cell n with
                      | some z => z.state = .free
                      | none => true)
                    | none => false
                  if freeSlot then tcopyFail s core q xpBar 0
                  else tcopyGo s core c { q with tensor := some (g, box) } g box
              | _, _ => tcopyFail s core q xpGen 0)

/-- The registers that QMAP names, by their place among v176–v191 (R275). -/
def qmapRegs (f : Ext) (r : Rd) : List Nat := (List.range 16).filter (fun i => tb ((r.x64 f.a).toNat % 2 ^ 16) i)

/-- QMAP.bind (R275). -/
def semQmapBind (f : Ext) : LaneSem := fun r s =>
  let n := (r.x64 f.b).toNat
  let regs := qmapRegs f r
  if r.th.v.length < 192 || n = 0 || n > 3 || n > r.c.xps.length || regs.any (fun i => r.q.bind.getD i 0 ≠ 0 && r.q.bind.getD i 0 ≠ n) then
    .cause .operandNamespace none 0 0
  else .done (s.modSquad r.t.cell r.t.squad (fun q => { q with bind := regs.foldl (fun b i => b.set i n) q.bind })) {}

/-- QMAP.unbind (R275): entries still queued are discarded and counted on their context. -/
def semQmapUnbind (f : Ext) : LaneSem := fun r s =>
  let regs := qmapRegs f r
  let lost (ctx : Nat) : Nat :=
    ((regs.filter (fun i => r.q.bind.getD i 0 = ctx)).map (fun i => (r.q.threads.map (fun th => (th.queues.getD i []).length)).sum)).sum
  let s := s.modCell r.t.cell (fun c =>
    { c with xps := ((List.range c.xps.length).zip c.xps).map (fun x => { x.2 with qdisc := x.2.qdisc + lost (x.1 + 1) }) })
  .done (s.modSquad r.t.cell r.t.squad (fun q =>
    { q with bind := regs.foldl (fun b i => b.set i 0) q.bind,
             threads := q.threads.map (fun th => { th with queues := regs.foldl (fun l i => l.set i []) th.queues }) })) {}

/-- QMAP.bind (R275): a uniform step. -/
def execQmapBind (f : Ext) (s : State) : Host.Outcome State Fault Refusal := issue { form := .ext 0xDA f, sem := semQmapBind f } s
/-- QMAP.unbind (R275): a uniform step. -/
def execQmapUnbind (f : Ext) (s : State) : Host.Outcome State Fault Refusal := issue { form := .ext 0xDA f, sem := semQmapUnbind f } s

end Sys2Proof.Machine
end

