-- ==== Sys2Proof/Machine/Control.lean ====
section
/-! DEFINITION. Branches, calls and exit (R61, R116–R119), control registers and time (R98, R99, R120–R123), the safe point (R339)
and the trap instructions (R361, R362). -/
namespace Sys2Proof.Machine
open Sys2Proof

/-! ## Branches, calls and exit -/

/-- A branch: to its target with the link written, or REF_BOUNDS where the target lies outside the offsets (R61, R66, R116) (DEDUCED, log entry 18). -/
def branchTo (target : Int) (w : Writes) (s : State) : LaneOut :=
  if target < 0 || target > 2 ^ 32 - 4 then .cause .refBounds none 0 0 else .ok s w (.jump (word target.toNat)) .unit

/-- The offset of the instruction after a form (R117). -/
def linkOf (r : Rd) (n : Nat) : Word := r.th.pc + word n

/-- Base BRA and CALL (R61): word offset, CALL linking in v190. -/
def semBaseBranch (link : Bool) (f : BaseBranch) : LaneSem := fun r s =>
  branchTo ((r.th.pc.toNat : Int) + 4 * f.off.toInt) (if link then { v := [(190, linkOf r 4)] } else {}) s

/-- BRA, BRX, CALL and CALLX (R116, R117). -/
def semBranch (op : Nat) (f : Branch) : LaneSem := fun r s =>
  let base : Int := if op = 0xE1 || op = 0xE3 then (r.x32 (src f.a)).toNat else r.th.pc.toNat
  branchTo (base + f.off.toInt) (if op = 0xE2 || op = 0xE3 then writeV f.d (linkOf r (Form.br op f).len) else {}) s

/-- Base BRA (R61). -/
def execBraBase (f : BaseBranch) (s : State) : Host.Outcome State Fault Refusal := issue { form := .baseBr 0x3C f, sem := semBaseBranch false f } s
/-- Base CALL (R61). -/
def execCallBase (f : BaseBranch) (s : State) : Host.Outcome State Fault Refusal := issue { form := .baseBr 0x3D f, sem := semBaseBranch true f } s
/-- BRA (R116). -/
def execBra (f : Branch) (s : State) : Host.Outcome State Fault Refusal := issue { form := .br 0xE0 f, sem := semBranch 0xE0 f } s
/-- BRX (R116). -/
def execBrx (f : Branch) (s : State) : Host.Outcome State Fault Refusal := issue { form := .br 0xE1 f, sem := semBranch 0xE1 f } s
/-- CALL (R117). -/
def execCall (f : Branch) (s : State) : Host.Outcome State Fault Refusal := issue { form := .br 0xE2 f, sem := semBranch 0xE2 f } s
/-- CALLX (R117). -/
def execCallx (f : Branch) (s : State) : Host.Outcome State Fault Refusal := issue { form := .br 0xE3 f, sem := semBranch 0xE3 f } s

/-- RET: to bits 31:0 of the register (R61, R117). -/
def semRet (a : Src) : LaneSem := fun r s => .ok s {} (.jump (r.x32 a)) .unit
/-- Base RET (R61). -/
def execRetBase (a : Code) (s : State) : Host.Outcome State Fault Refusal := issue { form := .baseRet a, sem := semRet (src a) } s
/-- RET (R117). -/
def execRet (f : Ext) (s : State) : Host.Outcome State Fault Refusal := issue { form := .ext 0xE4 f, sem := semRet f.a } s

/-! ## Time (R122, R123) -/

/-- CLK: the core clocks since reset (R122); reads on different cores at one instant may differ by up to 4, and here differ by 0
(DESIGN CHOICE, log entry 117). -/
def semClk (f : Ext) : LaneSem := fun _ s => .done s (writeInt f.d (f.fn = 0) false s.clk)
/-- CLK (R122). -/
def execClk (f : Ext) (s : State) : Host.Outcome State Fault Refusal := issue { form := .ext 0xEC f, sem := semClk f } s

/-- A sample of the 1588 time unit in nanoseconds, within 20 ns of it (R123). -/
def ptpNs (s : State) : Nat := ((s.clk : Int) + s.ptpOffset + (Config.ptpJitter s.free % 41 : Nat) - 20).toNat

/-- Its seconds and nanoseconds (DEDUCED, log entry 8). -/
def ptpSample (s : State) : Nat × Nat := (ptpNs s / 10 ^ 9 % 2 ^ 48, ptpNs s % 10 ^ 9)

/-- PTPNOW (R123). -/
def semPtpnow (f : Ext) : LaneSem := fun _ s =>
  let x := ptpSample s
  let n := f.d.toNat
  .done s (if isK f.d then { k := [(n - 0xC0, dword x.1), (n - 0xC0 + 1, dword x.2)] }
    else { v := [(n, lo32 (dword x.1)), (n + 1, hi32 (dword x.1)), (n + 2, word x.2)] })
/-- PTPNOW (R123). -/
def execPtpnow (f : Ext) (s : State) : Host.Outcome State Fault Refusal := issue { form := .ext 0xED f, sem := semPtpnow f } s

/-! ## Control and status registers (R98, R99, R120, R121) -/

/-- The capability registers of an HLP-S9A (R99). -/
def capValue (s : State) (n : Nat) : Dword :=
  match n with
  | 0x800 => dword (0x0009 + s.stepping % 2 ^ 8 * 2 ^ 16 + 3 * 2 ^ 24)
  | 0x801 => dword (2 + 3 * 2 ^ 8 + 4 * 2 ^ 16 + 6 * 2 ^ 24 + 4 * 2 ^ 32 + 32 * 2 ^ 40)
  | 0x802 => dword (192 + 64 * 2 ^ 8 + 60 * 2 ^ 16 + 32768 * 2 ^ 32)
  | 0x803 => dword (768 + 512 * 2 ^ 16 + 128 * 2 ^ 32 + 8192 * 2 ^ 48)
  | 0x804 => dword (32 + 64 * 2 ^ 8 + 8 * 2 ^ 16 + 128 * 2 ^ 24 + 384 * 2 ^ 32 + 16 * 2 ^ 48)
  | 0x805 => dword 96
  | 0x806 => dword (64 + 64 * 2 ^ 8 + 4 * 2 ^ 16 + 256 * 2 ^ 24)
  | 0x807 => dword 1000
  | 0x808 => s.coremask.extractLsb' 0 64
  | 0x809 => s.coremask.extractLsb' 64 64
  | 0x80A => (s.coremask.extractLsb' 128 16).setWidth 64
  | 0x80B => dword (12 + 64 * 2 ^ 8)
  | _ => 0

/-- A squad register as it stands (R98). -/
def squadCsr (q : Squad) (n : Nat) : Dword :=
  match n with
  | 0x001 => q.fflags.setWidth 64
  | 0x002 => q.fptrap.setWidth 64
  | 0x010 => q.tcause.setWidth 64
  | 0x011 => q.taddr
  | 0x012 => q.tmask.setWidth 64
  | 0x013 => q.tinfo
  | 0x020 => q.lrange
  | 0x021 => q.cietab
  | _ => 0

/-- A register as a thread reads it: squad registers that uniform steps write as after its own last step, csr.fflags as it stands
(R114). In a prologue the registers of a cell or core hold no stated value (DEDUCED, log entry 50). -/
def csrValue (r : Rd) (s : State) (n : Nat) : Dword :=
  let ctx := s.ctx? r.c.ctx
  let core := s.core? r.c.core
  let cell := (s.cell? r.c.id).getD r.c
  if n = 0x001 then squadCsr ((s.squad? r.t.cell r.t.squad).getD r.q) n
  else if n ≤ 0x021 then readOldCsr r.q r.th n (squadCsr r.q n)
  else if r.prologue && [0x030, 0x033, 0x050, 0x051, 0x062].contains n then Config.freeDword s.free
  else
    match n with
    | 0x030 => dword cell.phase
    | 0x031 => dword cell.orphans
    | 0x032 => dword cell.deadline
    | 0x033 => if cell.preq then 1 else 0
    | 0x040 => ((ctx.map Context.tvec).getD 0).setWidth 64
    | 0x041 => dword ((ctx.map (·.combwin)).getD 0)
    | 0x042 => dword ((ctx.map (·.batchto)).getD 0)
    | 0x043 => dword ((ctx.map (·.collisions)).getD 0)
    | 0x050 => dword ((core.map (·.mxidle)).getD 0)
    | 0x051 => dword ((core.map (·.rescorr)).getD 0)
    | 0x060 => dword s.reserve
    | 0x061 => dword s.errdrop
    | 0x062 => dword (r.c.core % 2 ^ 8 + r.q.partition % 4 * 2 ^ 8)
    | _ => capValue s n

/-- The register number of CSRR and CSRW. -/
def csrNum (f : Ext) : Nat := f.imm.toNat % 2 ^ 12

/-- CSRR (R120): bits 31:0 into a lane register, all 64 into a pair or a k register (DESIGN CHOICE, log entry 51). -/
def semCsrr (f : Ext) : LaneSem := fun r s =>
  .done s (writeInt f.d (f.fn = 1 || isK f.d) false (csrValue r s (csrNum f)).toNat)
/-- CSRR (R120). -/
def execCsrr (f : Ext) (s : State) : Host.Outcome State Fault Refusal := issue { form := .ext 0xEA f, sem := semCsrr f } s

/-- A squad register written; bits that R98 does not assign are ignored. -/
def setSquadCsr (q : Squad) (n : Nat) (x : Dword) : Squad :=
  match n with
  | 0x001 => { q with fflags := x.setWidth 6 }
  | 0x002 => { q with fptrap := x.setWidth 6 }
  | 0x010 => { q with tcause := x.setWidth 8 }
  | 0x011 => { q with taddr := x }
  | 0x012 => { q with tmask := x.setWidth 32 }
  | 0x020 => { q with lrange := x }
  | 0x021 => { q with cietab := x }
  | _ => q

/-- CSRW (R121): write, set or clear. -/
def semCsrw (f : Ext) : LaneSem := fun r s =>
  let old := squadCsr ((s.squad? r.t.cell r.t.squad).getD r.q) (csrNum f)
  let a := r.x64 f.a
  let x := if f.fn = 0 then a else if f.fn = 1 then old ||| a else old &&& ~~~a
  .done (s.modSquad r.t.cell r.t.squad (fun q => setSquadCsr q (csrNum f) x)) {}

/-- CSRW (R121): a uniform step, whose ring entry keeps the value replaced (R114). -/
def execCsrw (f : Ext) (s : State) : Host.Outcome State Fault Refusal :=
  let sp : Spec := { form := .ext 0xEB f, sem := semCsrw f }
  .next (match s.cur with
    | .prologue lp => issuePrologue sp lp s
    | _ => issueUniform sp (fun q => if csrNum f = 0x001 then none else some (csrNum f, squadCsr q (csrNum f))) s (curBundle s))

/-! ## The safe point (R339) -/

/-- YIELD's live counts. -/
def liveV (f : Ext) : Nat := f.imm.toNat % 2 ^ 8
def liveW (f : Ext) : Nat := f.imm.toNat / 2 ^ 8 % 2 ^ 7

/-- Live counts above the budgets raise OPERAND_NAMESPACE. -/
def yieldCause (f : Ext) (s : State) (t : Tid) : Option Cause :=
  match s.thread? t with
  | some th => if liveV f > th.v.length || liveW f > th.w.length then some .operandNamespace else none
  | none => none

/-- YIELD (R339): dead registers become +0, untainted, then the thread goes on, or yields while csr.preq is set. -/
def semYield (f : Ext) : LaneSem := fun r s =>
  let vs := (List.range (r.th.v.length - liveV f)).map (fun i => liveV f + i)
  let ws := (List.range (r.th.w.length - liveW f)).map (fun i => liveW f + i)
  let wr : Writes := { v := (vs.filter (fun n => r.q.bound n = 0)).map (fun n => (n, 0)), w := ws.map (fun n => (n, zeroPacket)), taint := some false }
  let s := s.modThread r.t (fun th => { th with liveV := liveV f, liveW := liveW f })
  .ok s wr (if ((s.cell? r.t.cell).map (·.preq)).getD false then .yielded else .next) .unit

/-- YIELD (R339). -/
def execYield (f : Ext) (s : State) : Host.Outcome State Fault Refusal :=
  issue { form := .ext 0xE6 f,
          xw := (List.range (192 - liveV f)).map (fun i => Reg.v (liveV f + i)) ++ (List.range (64 - liveW f)).map (fun i => Reg.w (liveW f + i)),
          extra := yieldCause f, sem := semYield f } s

/-! ## Trap instructions (R361, R362) -/

/-- TRAP and BRK (R361). -/
def semTrap (c : Cause) (f : Ext) : LaneSem := fun _ _ => .cause c none (f.imm.toNat * 2 ^ 16) 0
/-- TRAP (R361). -/
def execTrap (f : Ext) (s : State) : Host.Outcome State Fault Refusal := issue { form := .ext 0xE7 f, sem := semTrap .trapSoft f } s
/-- BRK (R361). -/
def execBrk (f : Ext) (s : State) : Host.Outcome State Fault Refusal := issue { form := .ext 0xE9 f, sem := semTrap .breakpoint f } s

/-- TRET outside the handler is illegal (R362). -/
def tretCause (s : State) (t : Tid) : Option Cause :=
  match s.squad? t.cell t.squad with
  | some q => if q.trap = .active then none else some .illegalInstr
  | none => none

/-- Whether a thread waits at a TRET. -/
def Thread.atTret (th : Thread) : Bool := match th.wait with
  | some (.tret _ _) => th.state = .waiting
  | _ => false

/-- Whether a thread that leaves the handler needs the length of the instruction at its return point: to go past it, or to go on after the wait
that it holds there (R351, R362). -/
def Thread.needsLength (q : Squad) (th : Thread) : Bool := th.heldWait.isSome || (match th.wait with
  | some (.tret 1 _) => q.tmask.getLsbD th.lane
  | _ => false)

/-- What the fetch of such a return point waits for, if it does: a page in motion, or a peer. -/
def lengthWaits (s : State) (cell : Nat) (q : Squad) (live : List Thread) : Option Ready :=
  (live.filter (Thread.needsLength q)).findSome? (fun th => match fetchAt s cell th.ret with
    | .waits r => some r
    | _ => none)

/-- Once every live thread of a squad waits at a TRET, all of them leave the handler (R362), when the lengths that they need are at hand; where
another cause is queued, and its handler follows at once, every result has come before (R73, R353). -/
def tryLeave (s : State) (cell sq : Nat) : State :=
  match s.squad? cell sq with
  | none => s
  | some q =>
    let live := q.threads.filter (fun th => th.state ≠ .exited)
    let closed : Bool := (q.tqueue.drop 1).isEmpty || live.all (fun th => th.board.all (fun o => !o.pending))
    if q.trap = .active && !live.isEmpty && live.all Thread.atTret && closed then
      match lengthWaits s cell q live with
      | some r => beginWait s (.cell cell) r
      | none => leaveHandler (dropAsks s (.cell cell)) cell sq (lengthAt s cell)
    else s

/-- TRET (R362): the thread waits for the squad's others. -/
def semTret (f : Ext) : LaneSem := fun r s =>
  .ok s {} (.wait (.tret f.fn.toNat (if f.fn = 2 then r.x32 f.a else 0))) .unit

/-- The squads of the bundle in execution leave their handler where they can. -/
def leaveWhereDone (s : State) (o : Host.Outcome State Fault Refusal) : Host.Outcome State Fault Refusal :=
  match o with
  | .next s' => .next ((dedup ((curBundle s).map (fun t => (t.cell, t.squad)))).foldl (fun s x => tryLeave s x.1 x.2) s')
  | .fault x => .fault x
  | .refused x => .refused x

/-- TRET (R362). -/
def execTret (f : Ext) (s : State) : Host.Outcome State Fault Refusal :=
  leaveWhereDone s (issue { form := .ext 0xE8 f, extra := tretCause, sem := semTret f } s)

/-! ## Exit -/

/-- EXIT: the thread waits for its outstanding results, then ends (R73, R119). -/
def semExit : LaneSem := fun r s => if r.th.board.any Outstanding.pending then .stall s else .ok s {} .exit .unit
/-- Base EXIT (R119); a squad whose other threads wait at a TRET leaves its handler (R362). -/
def execExitBase (s : State) : Host.Outcome State Fault Refusal := 
  leaveWhereDone s (issue { form := .baseNone 0x3F, sem := semExit } s)
/-- EXIT (R119); a squad whose other threads wait at a TRET leaves its handler (R362). -/
def execExit (f : Ext) (s : State) : Host.Outcome State Fault Refusal := 
  leaveWhereDone s (issue { form := .ext 0xE5 f, sem := semExit } s)

/-- NOP (R59). -/
def execNop (s : State) : Host.Outcome State Fault Refusal := issue { form := .baseNone 0, sem := pureSem (fun _ => {}) } s

end Sys2Proof.Machine
end

