-- ==== Sys2Proof/Machine/Trans.lean ====
section
/-! DEFINITION. The transcendental functions (R51, R52, R136, R137): enclosures in integer arithmetic, narrowed until the correctly
rounded result is settled, the listed inputs, and the free choice of a .f form within its bound. -/
namespace Sys2Proof.Machine
open Sys2Proof

/-- The functions of R136. -/
inductive TFun where
  | rcp | rsq | exp2 | log2 | sinpi | cospi | tanh
  deriving DecidableEq, Repr

/-- A magnitude strictly between lo · 2^e and hi · 2^e, with its sign. -/
structure Encl where
  neg : Bool
  lo : Nat
  hi : Nat
  e : Int
  deriving DecidableEq, Repr

/-- Fixed-point product of two enclosures with P fraction bits. -/
def iMul (P : Nat) (a b : Nat × Nat) : Nat × Nat := (a.1 * b.1 / 2 ^ P, a.2 * b.2 / 2 ^ P + 1)
def iAdd (a b : Nat × Nat) : Nat × Nat := (a.1 + b.1, a.2 + b.2)
def iSub (a b : Nat × Nat) : Nat × Nat := (a.1 - b.2, a.2 - b.1)
def iDivNat (a : Nat × Nat) (n : Nat) : Nat × Nat := (a.1 / n, a.2 / n + 1)

/-- Σ x^(2k+1)/(2k+1) for k below a count, x = 1/q: alternating for atan, else for atanh; the error of each term is below 2. -/
def atanSum (P q : Nat) (alternate : Bool) : Nat → Nat → Nat → Int
  | 0, _, _ => 0
  | n + 1, k, pow =>
    let t : Int := (pow / (2 * k + 1) : Nat)
    (if alternate && k % 2 == 1 then -t else t) + atanSum P q alternate n (k + 1) (pow / (q * q))

def ofSum (s : Int) (n : Nat) : Nat × Nat := ((s - 2 * n).toNat, (s + 2 * n).toNat)

/-- π with P fraction bits (Machin). -/
def piFix (P : Nat) : Nat × Nat :=
  let s := 16 * atanSum P 5 true P 0 (2 ^ P / 5) - 4 * atanSum P 239 true P 0 (2 ^ P / 239)
  ofSum s (20 * P + 20)

/-- ln 2 with P fraction bits, 2 atanh(1/3). -/
def ln2Fix (P : Nat) : Nat × Nat := ofSum (2 * atanSum P 3 false P 0 (2 ^ P / 3)) (2 * P + 4)

/-- A dyadic m · 2^e as an enclosure with P fraction bits. -/
def fixOf (P : Nat) (m : Nat) (e : Int) : Nat × Nat :=
  match e + P with
  | .ofNat k => (m * 2 ^ k, m * 2 ^ k)
  | .negSucc k => (m / 2 ^ (k + 1), m / 2 ^ (k + 1) + 1)

/-- Σ x^j / (d(j)) by the rule t(j+1) = t(j) · x / (g j): terms from the first, all added. -/
def seriesPos (P : Nat) (x : Nat × Nat) (g : Nat → Nat) : Nat → Nat → Nat × Nat → Nat × Nat
  | 0, _, t => (0, t.2 + t.2)
  | n + 1, j, t => iAdd t (seriesPos P x g n (j + 1) (iDivNat (iMul P t x) (g j)))

/-- The alternating sum of the same terms. -/
def seriesAlt (P : Nat) (x : Nat × Nat) (g : Nat → Nat) : Nat → Nat → Nat × Nat → Nat × Nat
  | 0, _, t => (0, t.2)
  | n + 1, j, t => iSub t (seriesAlt P x g n (j + 1) (iDivNat (iMul P t x) (g j)))

def oneFix (P : Nat) : Nat × Nat := (2 ^ P, 2 ^ P)

/-- e^x for 0 ≤ x < 1. -/
def expFix (P : Nat) (x : Nat × Nat) : Nat × Nat := seriesPos P x (fun j => j + 1) (P / 3 + 12) 0 (oneFix P)
/-- (e^x − 1)/x for 0 ≤ x < 1. -/
def expm1Over (P : Nat) (x : Nat × Nat) : Nat × Nat := seriesPos P x (fun j => j + 2) (P / 3 + 12) 0 (oneFix P)
/-- sin z / z and cos z, from z², for z below 0.8. -/
def sinOver (P : Nat) (z2 : Nat × Nat) : Nat × Nat := seriesAlt P z2 (fun j => (2 * j + 2) * (2 * j + 3)) (P / 4 + 10) 0 (oneFix P)
def cosFix (P : Nat) (z2 : Nat × Nat) : Nat × Nat := seriesAlt P z2 (fun j => (2 * j + 1) * (2 * j + 2)) (P / 4 + 10) 0 (oneFix P)

def squareTimes (P : Nat) : Nat → Nat × Nat → Nat × Nat
  | 0, x => x
  | n + 1, x => squareTimes P n (iMul P x x)

/-- 2^a for a = s · 2^e. -/
def enclExp2 (P : Nat) (s : Int) (e : Int) : Encl :=
  let fl : Int := if e ≥ 0 then s * 2 ^ e.toNat else s / 2 ^ (-e).toNat
  let fr : Nat := if e ≥ 0 then 0 else (s % 2 ^ (-e).toNat).toNat
  let x := fixOf P fr e
  let r := expFix P (iMul P x (ln2Fix P))
  ⟨false, r.1, r.2, fl - P⟩

/-- Σ t^(2k+1)/(2k+1) from t and t². -/
def atanhFix (P : Nat) (t2 : Nat × Nat) : Nat → Nat → Nat × Nat → Nat × Nat
  | 0, _, p => (0, p.2)
  | n + 1, k, p => iAdd (iDivNat p (2 * k + 1)) (atanhFix P t2 n (k + 1) (iMul P p t2))

/-- log2 of m · 2^e, m > 0. -/
def enclLog2 (P : Nat) (m : Nat) (e : Int) : Encl :=
  let L := Nat.log2 m
  let E : Int := e + L
  let y := 2 ^ L
  let t : Nat × Nat := ((m - y) * 2 ^ P / (m + y), (m - y) * 2 ^ P / (m + y) + 1)
  let a := atanhFix P (iMul P t t) (P / 3 + 8) 0 t
  let ln2 := ln2Fix P
  let q : Nat × Nat := (2 * a.1 * 2 ^ P / ln2.2, 2 * a.2 * 2 ^ P / ln2.1 + 1)
  if E ≥ 0 then ⟨false, E.toNat * 2 ^ P + q.1, E.toNat * 2 ^ P + q.2, -P⟩
  else
    let n := (-E).toNat * 2 ^ P
    ⟨true, n - q.2, n - q.1, -P⟩

/-- sin(πu) for u = m · 2^e with 0 < u < 1/2, as a magnitude. -/
def enclSinHalf (P : Nat) (neg : Bool) (m : Nat) (e : Int) : Encl :=
  let pi := piFix P
  let small : Bool := decide (4 * (fixOf P m e).2 ≤ 2 ^ P + 4)
  if small then
    let z := iMul P pi (fixOf P m e)
    let s := iMul P pi (sinOver P (iMul P z z))
    ⟨neg, m * s.1, m * s.2, e - P⟩
  else
    let u := fixOf P m e
    let half := 2 ^ P / 2
    let z := iMul P pi (half - u.2, half - u.1)
    let c := cosFix P (iMul P z z)
    ⟨neg, c.1, c.2, -P⟩

/-- sin(πx) for a dyadic x = s · 2^e that is no multiple of 1/2. -/
def enclSinpi (P : Nat) (s : Int) (e : Int) : Encl :=
  let k := (-e).toNat
  let x := (s % 2 ^ (k + 1)).toNat
  let neg : Bool := decide (2 ^ k ≤ x)
  let y := x % 2 ^ k
  enclSinHalf P neg (min y (2 ^ k - y)) e

/-- cos(πx) = sin(π(x + 1/2)). -/
def enclCospi (P : Nat) (s : Int) (e : Int) : Encl :=
  if e ≤ -1 then enclSinpi P (s + 2 ^ (-e - 1).toNat) e else enclSinpi P (2 * s + 1) (-1)

/-- tanh of a = m · 2^e, 0 < a: 1 within 2^−40 above 16. -/
def enclTanh (P : Nat) (neg : Bool) (m : Nat) (e : Int) : Encl :=
  let a := fixOf P m e
  if a.1 ≥ 16 * 2 ^ P then ⟨neg, 2 ^ P - 2 ^ (P - 40), 2 ^ P, -P⟩
  else if a.2 < 2 ^ P / 4 then
    let x := fixOf P m (e + 1)
    let s := expm1Over P x
    let n : Nat × Nat := (m * s.1, m * s.2)
    let K := (P - e - 1 + 1).toNat
    let q (v : Nat) : Nat := v * 2 ^ K / (2 ^ K + v)
    ⟨neg, q n.1, q n.2 + 1, -(K : Int)⟩
  else
    let y : Nat × Nat := (2 * a.1 / 64, 2 * a.2 / 64 + 1)
    let ex := squareTimes P 6 (expFix P y)
    let t (v : Nat) : Nat := (v - 2 ^ P) * 2 ^ P / (v + 2 ^ P)
    ⟨neg, t ex.1, t ex.2 + 1, -P⟩

/-- 1/a as a magnitude. -/
def enclRcp (neg : Bool) (m : Nat) (e : Int) : Encl :=
  let k := 80 + Nat.log2 m
  ⟨neg, 2 ^ k / m, 2 ^ k / m + 1, -e - k⟩

/-- 1/√a. -/
def enclRsq (m : Nat) (e : Int) : Encl :=
  let m' := if e % 2 = 0 then m else 2 * m
  let e' := if e % 2 = 0 then e else e - 1
  let k := 160 + 2 * (Nat.log2 m' / 2)
  let r := isqrt (2 ^ k / m') (k / 2 + 1) 0
  ⟨false, r, r + 1, -(e' / 2) - (k / 2 : Nat)⟩

/-- The enclosure of a function at a finite operand that is not listed. -/
def enclose (f : TFun) (P : Nat) (n : Bool) (m : Nat) (e : Int) : Encl :=
  match f with
  | .rcp => enclRcp n m e
  | .rsq => enclRsq m e
  | .exp2 => enclExp2 P (sgn n m) e
  | .log2 => enclLog2 P m e
  | .sinpi => enclSinpi P (sgn n m) e
  | .cospi => enclCospi P (sgn n m) e
  | .tanh => enclTanh P n m e

/-- The rounding of every value of an enclosure, when it is one (R52): the values lie strictly inside, so each is inexact. -/
def settle (c : Encl) : Option (Nat × Flags) :=
  let a := roundSticky fp32 .rne c.neg c.lo c.e true
  let b := roundSticky fp32 .rne c.neg (c.hi - 1) c.e true
  if c.lo < c.hi && a = b then some a else none

/-- The exact listed result of a power of two or of an exact reciprocal, none where the operand is not listed (R136). -/
def isPow2 (m : Nat) : Bool := m ≠ 0 && 2 ^ Nat.log2 m = m

def pow2Bits (neg : Bool) (k : Int) : Nat := (roundFin fp32 .rne false neg 1 k).1

/-- Whether m · 2^e is an integer, and its parity is odd. -/
def isInteger (m : Nat) (e : Int) : Bool := if e ≥ 0 then true else m % 2 ^ (-e).toNat = 0
def isOddInt (m : Nat) (e : Int) : Bool := if e > 0 then false else (m / 2 ^ (-e).toNat) % 2 = 1

def one32 : Nat := 0x3F800000
def negBit : Nat := 0x80000000

/-- The listed inputs of R136 with their results and flags. -/
def listed (f : TFun) (v : FVal) : Option (Nat × Flags) :=
  match v with
  | .nan s => some (fp32.nan, if s then fNV else 0)
  | .inf n =>
    let s := if n then negBit else 0
    match f with
    | .rcp => some (s, 0)
    | .rsq => some (if n then (fp32.nan, fNV) else (0, 0))
    | .exp2 => some (if n then 0 else fp32.inf, 0)
    | .log2 => some (if n then (fp32.nan, fNV) else (fp32.inf, 0))
    | .sinpi | .cospi => some (fp32.nan, fNV)
    | .tanh => some (s + one32, 0)
  | .fin n m e =>
    let s := if n then negBit else 0
    if m = 0 then
      match f with
      | .rcp => some (s + fp32.inf, fDZ)
      | .rsq => some (s + fp32.inf, fDZ)
      | .exp2 | .cospi => some (one32, 0)
      | .log2 => some (negBit + fp32.inf, fDZ)
      | .sinpi | .tanh => some (s, 0)
    else
      let k := e + Nat.log2 m
      match f with
      | .rcp => if isPow2 m && -k ≥ -149 && -k ≤ 127 then some (pow2Bits n (-k), 0) else none
      | .rsq => if n then some (fp32.nan, fNV) else if isPow2 m && k % 2 = 0 then some (pow2Bits false (-(k / 2)), 0) else none
      | .exp2 =>
        let a : Int := if e ≥ 0 then sgn n m * 2 ^ (min e.toNat 200) else sgn n m / 2 ^ (-e).toNat
        if a ≥ 128 then some (fp32.inf, fOF ||| fNX)
        else if a < -150 || (a = -150 && isInteger m e) then some (0, fUF ||| fNX)
        else if isInteger m e then some (pow2Bits false a, 0)
        else none
      | .log2 =>
        if n then some (fp32.nan, fNV)
        else if isPow2 m then some ((roundFin fp32 .rne false (k < 0) k.natAbs 0).1, 0)
        else none
      | .sinpi =>
        if isInteger m e then some (s, 0)
        else if isInteger m (e + 1) then
          -- a = ±(q/2), q odd: sin = +1 for q ≡ 1 (mod 4), sign by the side
          let q := m / 2 ^ (-(e + 1)).toNat
          let plus : Bool := (q % 4 = 1) != n
          some (if plus then one32 else negBit + one32, 0)
        else none
      | .cospi =>
        if isInteger m e then some (if isOddInt m e then negBit + one32 else one32, 0)
        else if isInteger m (e + 1) then some (0, 0)
        else none
      | .tanh => none

def TFun.code : TFun → Nat
  | .rcp => 0 | .rsq => 1 | .exp2 => 2 | .log2 => 3 | .sinpi => 4 | .cospi => 5 | .tanh => 6

/-- The .r form (R52): the first precision that settles the rounding; a rounding none of them settles is the part's (DESIGN CHOICE, log entry 21). -/
def transR (f : TFun) (a : Word) : Nat × Flags :=
  let v := f32 a
  match listed f v with
  | some r => r
  | none =>
    match v with
    | .fin n m e =>
      match settle (enclose f 96 n m e) with
      | some r => r
      | none =>
        match settle (enclose f 224 n m e) with
        | some r => r
        | none => ((Config.unsettled f.code a).toNat, fNX)
    | _ => (fp32.nan, 0)

/-- Whether a bit pattern lies within b ulp of every value of an enclosure (R51, R52). -/
def withinUlp (c : Encl) (b : Nat) (y : Nat) : Bool :=
  match unpack fp32 y with
  | .fin n m e =>
    let lx := leadExp (max c.lo 1) c.e
    let ux := max lx (-126) - 23
    let e0 := min e (min c.e ux)
    let sc (k : Nat) (x : Int) : Int := (k : Int) * 2 ^ (x - e0).toNat
    let yv := sc m e
    let lo := sc c.lo c.e
    let hi := sc c.hi c.e
    let t := sc b ux
    (n = c.neg || m = 0) && decide (hi - t ≤ yv) && decide (yv ≤ lo + t)
  | _ => false

/-- The .f form (R52, R136, R137): the part's own value where it keeps the bound of 2 ulp, or 4 for TANH, else the .r value
(DESIGN CHOICE, log entry 22). -/
def transF (f : TFun) (a : Word) : Nat × Flags :=
  let v := f32 a
  match listed f v with
  | some r => r
  | none =>
    match v with
    | .fin n m e =>
      let y := (Config.approx f.code a).toNat
      let r := if withinUlp (enclose f 96 n m e) (match f with
        | .tanh => 4
        | _ => 2) y then y else (transR f a).1
      let fl : Flags := match unpack fp32 r with
        | .inf _ => fNX ||| fOF
        | .fin _ k _ => if k < 2 ^ 23 then fNX ||| fUF else fNX
        | .nan _ => fNX
      (r, fl)
    | _ => (fp32.nan, 0)

end Sys2Proof.Machine
end

