-- ==== Sys2Proof/Machine/Floating.lean ====
section
/-! DEFINITION. Floating-point, transcendental and packed half-precision instructions (R126–R139) and the floating base forms
(R59, R60, R62). -/
namespace Sys2Proof.Machine
open Sys2Proof

/-- The write of one FP32 result with its flags. -/
def fltOut (d : Code) (x : Nat × Flags) : Writes := { writeV d (word x.1) with flags := x.2 }

/-- An FP32 instruction of two operands, clamped by .sat (R128, R129). -/
def semF2 (e : Ext) (op : FVal → FVal → Nat × Flags) : LaneSem :=
  pureSem (fun r => fltOut e.d (satIf (tb e.fn.toNat 0) (op (f32 (r.x32 e.a)) (f32 (r.x32 e.b)))))

def semFadd (e : Ext) : LaneSem := semF2 e (faddV fp32)
def semFsub (e : Ext) : LaneSem := semF2 e (fun a b => faddV fp32 a (fneg b))
def semFmul (e : Ext) : LaneSem := semF2 e (fmulV fp32)

/-- FFMA, with NEG the negated product (R128, R129). -/
def semFfma (e : Ext) : LaneSem := pureSem (fun r =>
  let a := f32 (r.x32 e.a)
  fltOut e.d (satIf (tb e.fn.toNat 0) (ffmaV fp32 (if tb e.fn.toNat 1 then fneg a else a) (f32 (r.x32 e.b)) (f32 (r.x32 e.c)))))

/-- FMIN and FMAX on bit patterns (R130). -/
def semFminmax (isMax : Bool) (e : Ext) : LaneSem :=
  pureSem (fun r => fltOut e.d (fminmaxBits fp32 isMax (r.x32 e.a).toNat (r.x32 e.b).toNat))
def semFmin (e : Ext) : LaneSem := semFminmax false e
def semFmax (e : Ext) : LaneSem := semFminmax true e

/-- The conditions of FSETP and WSETP (R131). -/
def fltCond (c : Nat) (a b : FVal) : Bool :=
  let un := isNaN a || isNaN b
  match c with
  | 0 => !un && feqV a b
  | 1 => un || !feqV a b
  | 2 => !un && fltV a b
  | 3 => !un && !fltV b a
  | 4 => un
  | _ => !un

def semFsetp (e : Ext) : LaneSem := pureSem (fun r =>
  let a := f32 (r.x32 e.a)
  let b := f32 (r.x32 e.b)
  { writeP e.d (combine r e.imm.toNat (fltCond (e.fn.toNat / 2) a b)) with flags := snanFlag [a, b] })

def semFrnd (e : Ext) : LaneSem := pureSem (fun r =>
  let a := r.x32 e.a
  fltOut e.d (frndV fp32 (RMode.ofCode e.fn.toNat) (f32 a) a.toNat))

/-- The class bit of R133. -/
def classBit (f : Fmt) (x : Nat) : Nat :=
  let x := x % 2 ^ f.width
  match unpack f x with
  | .nan s => if s then 8 else 9
  | .inf n => if n then 0 else 7
  | .fin n m _ =>
    if m = 0 then (if n then 3 else 4)
    else if m < 2 ^ f.fb then (if n then 2 else 5)
    else (if n then 1 else 6)

def semFclass (e : Ext) : LaneSem := pureSem (fun r =>
  let f := if e.fn = 0 then fp32 else if e.fn = 1 then fp16 else bf16
  writeV e.d (word (2 ^ classBit f (r.x32 e.a).toNat)))

/-- FTWOSUM and FTWOPROD (R53, R54, R134). -/
def semTwo (e : Ext) (op : Word → Word → (Word × Word) × Flags) : LaneSem := pureSem (fun r =>
  let x := op (r.x32 e.a) (r.x32 e.b)
  { writeVs e.d [x.1.1, x.1.2] with flags := x.2 })

/-- A one-operand FP32 function on the bit pattern. -/
def semF1 (e : Ext) (op : Word → Nat × Flags) : LaneSem := pureSem (fun r => fltOut e.d (op (r.x32 e.a)))

/-- Two halves computed each in its own format, clamped by .sat, flags ORed (R138). -/
def semHalves (e : Ext) (f : Fmt) (op : FVal → FVal → FVal → Nat × Flags) : LaneSem := pureSem (fun r =>
  let half (x : Word) (j : Nat) : FVal := unpack f (x.toNat / 2 ^ (16 * j) % 2 ^ 16)
  let one (j : Nat) : Nat × Flags :=
    let y := op (half (r.x32 e.a) j) (half (r.x32 e.b) j) (half (r.x32 e.c) j)
    if tb e.fn.toNat 0 then clamp01 f y else y
  let x := one 0
  let y := one 1
  fltOut e.d (x.1 + 2 ^ 16 * y.1, x.2 ||| y.2))

/-! ## Meanings -/

/-- FADD (R129). -/
def execFadd (f : Ext) (s : State) : Host.Outcome State Fault Refusal := issue { form := .ext 0x40 f, sem := semFadd f } s
/-- FSUB (R129). -/
def execFsub (f : Ext) (s : State) : Host.Outcome State Fault Refusal := issue { form := .ext 0x41 f, sem := semFsub f } s
/-- FMUL (R129). -/
def execFmul (f : Ext) (s : State) : Host.Outcome State Fault Refusal := issue { form := .ext 0x42 f, sem := semFmul f } s
/-- FFMA (R129). -/
def execFfma (f : Ext) (s : State) : Host.Outcome State Fault Refusal := issue { form := .ext 0x43 f, sem := semFfma f } s
/-- FMIN (R130). -/
def execFmin (f : Ext) (s : State) : Host.Outcome State Fault Refusal := issue { form := .ext 0x44 f, sem := semFmin f } s
/-- FMAX (R130). -/
def execFmax (f : Ext) (s : State) : Host.Outcome State Fault Refusal := issue { form := .ext 0x45 f, sem := semFmax f } s
/-- FSETP (R131). -/
def execFsetp (f : Ext) (s : State) : Host.Outcome State Fault Refusal := issue { form := .ext 0x46 f, sem := semFsetp f } s
/-- FRND (R132). -/
def execFrnd (f : Ext) (s : State) : Host.Outcome State Fault Refusal := issue { form := .ext 0x47 f, sem := semFrnd f } s
/-- FCLASS (R133). -/
def execFclass (f : Ext) (s : State) : Host.Outcome State Fault Refusal := issue { form := .ext 0x48 f, sem := semFclass f } s
/-- FTWOSUM (R134). -/
def execFtwosum (f : Ext) (s : State) : Host.Outcome State Fault Refusal := issue { form := .ext 0x49 f, sem := semTwo f ftwosum } s
/-- FTWOPROD (R134). -/
def execFtwoprod (f : Ext) (s : State) : Host.Outcome State Fault Refusal := issue { form := .ext 0x4A f, sem := semTwo f ftwoprod } s
/-- FDIVR (R135). -/
def execFdivR (f : Ext) (s : State) : Host.Outcome State Fault Refusal := issue { form := .ext 0x4B f, sem := semF2 f (fdivV fp32) } s
/-- FSQRTR (R135). -/
def execFsqrtR (f : Ext) (s : State) : Host.Outcome State Fault Refusal := issue { form := .ext 0x4C f, sem := semF1 f (fun x => fsqrtV fp32 (f32 x)) } s
/-- RCPF (R136). -/
def execRcpF (f : Ext) (s : State) : Host.Outcome State Fault Refusal := issue { form := .ext 0x4D f, sem := semF1 f (transF .rcp) } s
/-- RCPR (R136). -/
def execRcpR (f : Ext) (s : State) : Host.Outcome State Fault Refusal := issue { form := .ext 0x4E f, sem := semF1 f (transR .rcp) } s
/-- RSQF (R136). -/
def execRsqF (f : Ext) (s : State) : Host.Outcome State Fault Refusal := issue { form := .ext 0x4F f, sem := semF1 f (transF .rsq) } s
/-- RSQR (R136). -/
def execRsqR (f : Ext) (s : State) : Host.Outcome State Fault Refusal := issue { form := .ext 0x50 f, sem := semF1 f (transR .rsq) } s
/-- EXP2F (R136). -/
def execExp2F (f : Ext) (s : State) : Host.Outcome State Fault Refusal := issue { form := .ext 0x51 f, sem := semF1 f (transF .exp2) } s
/-- EXP2R (R136). -/
def execExp2R (f : Ext) (s : State) : Host.Outcome State Fault Refusal := issue { form := .ext 0x52 f, sem := semF1 f (transR .exp2) } s
/-- LOG2F (R136). -/
def execLog2F (f : Ext) (s : State) : Host.Outcome State Fault Refusal := issue { form := .ext 0x53 f, sem := semF1 f (transF .log2) } s
/-- LOG2R (R136). -/
def execLog2R (f : Ext) (s : State) : Host.Outcome State Fault Refusal := issue { form := .ext 0x54 f, sem := semF1 f (transR .log2) } s
/-- SINPIF (R136). -/
def execSinpiF (f : Ext) (s : State) : Host.Outcome State Fault Refusal := issue { form := .ext 0x55 f, sem := semF1 f (transF .sinpi) } s
/-- SINPIR (R136). -/
def execSinpiR (f : Ext) (s : State) : Host.Outcome State Fault Refusal := issue { form := .ext 0x56 f, sem := semF1 f (transR .sinpi) } s
/-- COSPIF (R136). -/
def execCospiF (f : Ext) (s : State) : Host.Outcome State Fault Refusal := issue { form := .ext 0x57 f, sem := semF1 f (transF .cospi) } s
/-- COSPIR (R136). -/
def execCospiR (f : Ext) (s : State) : Host.Outcome State Fault Refusal := issue { form := .ext 0x58 f, sem := semF1 f (transR .cospi) } s
/-- TANHF (R136). -/
def execTanhF (f : Ext) (s : State) : Host.Outcome State Fault Refusal := issue { form := .ext 0x59 f, sem := semF1 f (transF .tanh) } s
/-- TANHR (R136). -/
def execTanhR (f : Ext) (s : State) : Host.Outcome State Fault Refusal := issue { form := .ext 0x5A f, sem := semF1 f (transR .tanh) } s
/-- HFMA2 (R138). -/
def execHfma2 (f : Ext) (s : State) : Host.Outcome State Fault Refusal := issue { form := .ext 0x5B f, sem := semHalves f fp16 (ffmaV fp16) } s
/-- HADD2 (R138). -/
def execHadd2 (f : Ext) (s : State) : Host.Outcome State Fault Refusal := issue { form := .ext 0x5C f, sem := semHalves f fp16 (fun a b _ => faddV fp16 a b) } s
/-- HMUL2 (R138). -/
def execHmul2 (f : Ext) (s : State) : Host.Outcome State Fault Refusal := issue { form := .ext 0x5D f, sem := semHalves f fp16 (fun a b _ => fmulV fp16 a b) } s
/-- BFMA2 (R138). -/
def execBfma2 (f : Ext) (s : State) : Host.Outcome State Fault Refusal := issue { form := .ext 0x5E f, sem := semHalves f bf16 (ffmaV bf16) } s
/-- Base FADD (R59). -/
def execFaddBase (f : Base2) (s : State) : Host.Outcome State Fault Refusal := issue { form := .base2 0x10 f, sem := semFadd (ofBaseF f) } s
/-- Base FADD with a literal (R62). -/
def execFaddBaseLit (f : BaseLit) (s : State) : Host.Outcome State Fault Refusal := issue { form := .baseLit 0x10 f, sem := semFadd (ofLitF f) } s
/-- Base FSUB (R59). -/
def execFsubBase (f : Base2) (s : State) : Host.Outcome State Fault Refusal := issue { form := .base2 0x11 f, sem := semFsub (ofBaseF f) } s
/-- Base FSUB with a literal (R62). -/
def execFsubBaseLit (f : BaseLit) (s : State) : Host.Outcome State Fault Refusal := issue { form := .baseLit 0x11 f, sem := semFsub (ofLitF f) } s
/-- Base FMUL (R59). -/
def execFmulBase (f : Base2) (s : State) : Host.Outcome State Fault Refusal := issue { form := .base2 0x12 f, sem := semFmul (ofBaseF f) } s
/-- Base FMUL with a literal (R62). -/
def execFmulBaseLit (f : BaseLit) (s : State) : Host.Outcome State Fault Refusal := issue { form := .baseLit 0x12 f, sem := semFmul (ofLitF f) } s
/-- Base FMIN (R59). -/
def execFminBase (f : Base2) (s : State) : Host.Outcome State Fault Refusal := issue { form := .base2 0x13 f, sem := semFmin (ofBaseF f) } s
/-- Base FMIN with a literal (R62). -/
def execFminBaseLit (f : BaseLit) (s : State) : Host.Outcome State Fault Refusal := issue { form := .baseLit 0x13 f, sem := semFmin (ofLitF f) } s
/-- Base FMAX (R59). -/
def execFmaxBase (f : Base2) (s : State) : Host.Outcome State Fault Refusal := issue { form := .base2 0x14 f, sem := semFmax (ofBaseF f) } s
/-- Base FMAX with a literal (R62). -/
def execFmaxBaseLit (f : BaseLit) (s : State) : Host.Outcome State Fault Refusal := issue { form := .baseLit 0x14 f, sem := semFmax (ofLitF f) } s

end Sys2Proof.Machine
end

