-- ==== Sys2Proof/Machine/Spectral.lean ====
section
/-! DEFINITION. Packet arithmetic, moves, conversion and the wavelengths (R148–R158, R160). -/
namespace Sys2Proof.Machine
open Sys2Proof

/-! ## Packets -/

/-- Sample j of a packet. -/
def sample (p : Packet) (j : Nat) : Word := p.getD j 0

/-- A packet and its flags from its eight samples. -/
def packetOf (g : Nat → Nat × Flags) : Packet × Flags :=
  let xs := (List.range 8).map g
  (xs.map (fun x => word x.1), xs.foldl (fun f x => f ||| x.2) 0)

/-- The write of one packet with its flags. -/
def packetOut (d : Code) (x : Packet × Flags) : Writes := { writeW d x.1 with flags := x.2 }

/-- Sample j of operand B: of a packet, or with BV the scalar's for every j (R152). -/
def Rd.bSample (r : Rd) (e : Ext) (bv : Bool) (j : Nat) : Word := if bv then r.x32 e.b else sample (r.packet e.b 0) j

/-- A packet instruction of two operands (R152). -/
def semW2 (e : Ext) (op : FVal → FVal → Nat × Flags) : LaneSem := pureSem (fun r =>
  packetOut e.d (packetOf (fun j =>
    satIf (tb e.fn.toNat 0) (op (f32 (sample (r.packet e.a 0) j)) (f32 (r.bSample e (tb e.fn.toNat 1) j))))))

def semWfma (e : Ext) : LaneSem := pureSem (fun r =>
  packetOut e.d (packetOf (fun j =>
    let a := f32 (sample (r.packet e.a 0) j)
    satIf (tb e.fn.toNat 0) (ffmaV fp32 (if tb e.fn.toNat 2 then fneg a else a) (f32 (r.bSample e (tb e.fn.toNat 1) j))
      (f32 (sample (r.packet e.c 0) j))))))

def semWminmax (isMax : Bool) (e : Ext) : LaneSem := pureSem (fun r =>
  packetOut e.d (packetOf (fun j =>
    fminmaxBits fp32 isMax (sample (r.packet e.a 0) j).toNat (r.bSample e (tb e.fn.toNat 1) j).toNat)))

/-- A scalar function on every sample (R153). -/
def semW1 (e : Ext) (op : Word → Nat × Flags) : LaneSem := pureSem (fun r =>
  packetOut e.d (packetOf (fun j => op (sample (r.packet e.a 0) j))))

/-- WSEL (R154). -/
def semWsel (e : Ext) : LaneSem := pureSem (fun r =>
  packetOut e.d (packetOf (fun j =>
    ((if (r.x32 e.c).getLsbD j then sample (r.packet e.a 0) j else sample (r.packet e.b 0) j).toNat, 0))))

/-- WMOV (R155). -/
def semWmov (e : Ext) : LaneSem := pureSem (fun r =>
  packetOut e.d (packetOf (fun j => ((if e.fn = 0 then sample (r.packet e.a 0) j else r.x32 e.a).toNat, 0))))

/-- The sample index of WEXT and WINS (R155). -/
def Rd.sampleIndex (r : Rd) (e : Ext) : Nat := (if e.fn = 0 then e.imm.toNat else (r.x32 e.b).toNat) % 8

def semWext (e : Ext) : LaneSem := pureSem (fun r => writeV e.d (sample (r.packet e.a 0) (r.sampleIndex e)))

/-- WINS (R155): the other seven samples of D stay. -/
def semWins (e : Ext) : LaneSem := pureSem (fun r =>
  { writeW e.d ((r.th.w.getD e.d.toNat zeroPacket).set (r.sampleIndex e) (r.x32 e.a)) with
    kept := ((List.range 8).filter (· ≠ r.sampleIndex e)).map (8 * e.d.toNat + ·) })

/-- The mask of WSETP (R154). -/
def wMask (r : Rd) (e : Ext) : Nat :=
  ((List.range 8).map (fun j =>
    if fltCond (e.fn.toNat / 2) (f32 (sample (r.packet e.a 0) j)) (f32 (r.bSample e (tb e.fn.toNat 0) j)) then 2 ^ j else 0)).sum

def semWsetp (e : Ext) : LaneSem := pureSem (fun r =>
  let t := wMask r e
  let fl := snanFlag ((List.range 8).flatMap (fun j => [f32 (sample (r.packet e.a 0) j), f32 (r.bSample e (tb e.fn.toNat 0) j)]))
  let w := if e.imm = 0 then writeV e.d (word t) else if e.imm = 1 then writeP e.d (t ≠ 0) else writeP e.d (t = 0xFF)
  { w with flags := fl })

/-! ## Packet conversion (R156) -/

/-- The format of a WCVT code, with its bytes. -/
def wcvtFmt (c : Nat) : Fmt × Nat :=
  if c = 8 then (fp16, 2) else if c = 9 then (bf16, 2) else if c = 0xB then (e4m3, 1) else (e5m2, 1)

/-- WCVT.pack: eight converted values end to end. -/
def wPack (imm : Nat) (p : Packet) : List Word × Flags :=
  let (f, n) := wcvtFmt (imm % 16)
  let xs := (List.range 8).map (fun j => convV f (RMode.ofCode (imm / 256 % 4)) (tb imm 10) (f32 (sample p j)))
  let bytes := xs.flatMap (fun x => leBytes n x.1)
  ((chunksOf 4 bytes.length bytes).map (fun b => word (leNat b)), xs.foldl (fun g x => g ||| x.2) 0)

/-- WCVT.unpack: eight values widened; a NaN becomes the canonical one, a signalling one with NV. -/
def wUnpack (imm : Nat) (ws : List Word) : Packet × Flags :=
  let (f, n) := wcvtFmt (imm % 16)
  let bytes := ws.flatMap (fun w => leBytes 4 w.toNat)
  packetOf (fun j => convV fp32 .rne false (unpack f (byteField bytes (n * j) n)))

def semWcvt (e : Ext) : LaneSem := pureSem (fun r =>
  let n := 4 * (wcvtFmt (e.imm.toNat % 16)).2 / 2
  if e.fn = 0 then
    let x := wPack e.imm.toNat (r.packet e.a 0)
    { writeVs e.d x.1 with flags := x.2 }
  else packetOut e.d (wUnpack e.imm.toNat ((List.range n).map (r.vreg e.a))))

/-! ## Wavelengths and sums (R157, R158, R160) -/

def rneAdd (a b : Nat) : Nat × Flags := faddV fp32 (unpack fp32 a) (unpack fp32 b)
def rneSub (a b : Nat) : Nat × Flags := faddV fp32 (unpack fp32 a) (fneg (unpack fp32 b))
def rneMul (a b : Nat) : Nat × Flags := fmulV fp32 (unpack fp32 a) (unpack fp32 b)
def rneFma (a b c : Nat) : Nat × Flags := ffmaV fp32 (unpack fp32 a) (unpack fp32 b) (unpack fp32 c)

/-- Whether csr.lrange is a range: finite bounds, the lower not negative and below the upper (R157). -/
def lrangeOk (lo hi : FVal) : Bool :=
  match lo, hi with
  | .fin n m _, .fin _ _ _ => (!n || m = 0) && fltV lo hi
  | _, _ => false

/-- The wavelength packet and the PDF packet of WLAMBDA, with the flags. -/
def wlambda (range : Dword) (pdf : Bool) (u : Nat) : Packet × Packet × Flags :=
  let lo := (lo32 range).toNat
  let hi := (hi32 range).toNat
  if lrangeOk (unpack fp32 lo) (unpack fp32 hi) then
    let width := rneSub hi lo
    let one (j : Nat) : Nat × Flags :=
      let t : Nat := (u + j * 2 ^ 29) % 2 ^ 32
      let f := roundInt fp32 .rne false (t : Nat) (-32)
      let y := rneFma f.1 width.1 lo
      (y.1, f.2 ||| y.2)
    let l := packetOf one
    let p := if pdf then transR .rcp (word width.1) else (0, 0)
    (l.1, List.replicate 8 (word p.1), (width.2 ||| l.2 ||| p.2) &&& fNX)
  else (List.replicate 8 (word fp32.nan), List.replicate 8 (word fp32.nan), fNV)

/-- WLAMBDA (R157): a lagging thread reads csr.lrange as its own position implies (R114). -/
def semWlambda (e : Ext) : LaneSem := pureSem (fun r =>
  let x := wlambda (readOldCsr r.q r.th 0x020 r.q.lrange) (e.fn = 1) (r.x32 e.a).toNat
  { w := (e.d.toNat, x.1) :: (if e.fn = 1 then [(e.d.toNat + 1, x.2.1)] else []), flags := x.2.2 })

/-- The second packet of WLAMBDA lies within the budget (R157). -/
def wlambdaFits (e : Ext) (s : State) (t : Tid) : Option Cause :=
  match s.thread? t with
  | some th => if e.fn = 1 && !(decide (e.d.toNat + 1 < th.w.length)) then some .operandNamespace else none
  | none => none

def semWsum (e : Ext) : LaneSem := pureSem (fun r => fltOut e.d (latticeSum fp32 ((r.packet e.a 0).map (·.toNat))))

/-- WMUELLER (R160): four products summed in the lattice at each row and sample. -/
def semWmueller (e : Ext) : LaneSem := pureSem (fun r =>
  let row (i : Nat) : Packet × Flags := packetOf (fun j =>
    let prods := (List.range 4).map (fun c => rneMul (sample (r.packet e.a (4 * i + c)) j).toNat (sample (r.packet e.b c) j).toNat)
    let sum := latticeSum fp32 (prods.map (·.1))
    (sum.1, prods.foldl (fun f x => f ||| x.2) sum.2))
  let rows := (List.range 4).map row
  { w := (List.range 4).zip rows |>.map (fun x => (e.d.toNat + x.1, x.2.1)), flags := rows.foldl (fun f x => f ||| x.2) 0 })

/-! ## Meanings -/

/-- WADD (R152). -/
def execWadd (f : Ext) (s : State) : Host.Outcome State Fault Refusal := issue { form := .ext 0xA0 f, sem := semW2 f (faddV fp32) } s
/-- WSUB (R152). -/
def execWsub (f : Ext) (s : State) : Host.Outcome State Fault Refusal :=
  issue { form := .ext 0xA1 f, sem := semW2 f (fun a b => faddV fp32 a (fneg b)) } s
/-- WMUL (R152). -/
def execWmul (f : Ext) (s : State) : Host.Outcome State Fault Refusal := issue { form := .ext 0xA2 f, sem := semW2 f (fmulV fp32) } s
/-- WFMA (R152). -/
def execWfma (f : Ext) (s : State) : Host.Outcome State Fault Refusal := issue { form := .ext 0xA3 f, sem := semWfma f } s
/-- WMIN (R152). -/
def execWmin (f : Ext) (s : State) : Host.Outcome State Fault Refusal := issue { form := .ext 0xA4 f, sem := semWminmax false f } s
/-- WMAX (R152). -/
def execWmax (f : Ext) (s : State) : Host.Outcome State Fault Refusal := issue { form := .ext 0xA5 f, sem := semWminmax true f } s
/-- WSEL (R154). -/
def execWsel (f : Ext) (s : State) : Host.Outcome State Fault Refusal := issue { form := .ext 0xA6 f, sem := semWsel f } s
/-- WMOV (R155). -/
def execWmov (f : Ext) (s : State) : Host.Outcome State Fault Refusal := issue { form := .ext 0xA7 f, sem := semWmov f } s
/-- WEXT (R155). -/
def execWext (f : Ext) (s : State) : Host.Outcome State Fault Refusal := issue { form := .ext 0xA8 f, sem := semWext f } s
/-- WINS (R155). -/
def execWins (f : Ext) (s : State) : Host.Outcome State Fault Refusal := issue { form := .ext 0xA9 f, sem := semWins f } s
/-- WLAMBDA (R157): with FN = 1 it writes the next packet too. -/
def execWlambda (f : Ext) (s : State) : Host.Outcome State Fault Refusal :=
  issue { form := .ext 0xAA f, xw := if f.fn = 1 then [.w (f.d.toNat + 1)] else [], extra := wlambdaFits f, sem := semWlambda f } s
/-- WSUM (R158). -/
def execWsum (f : Ext) (s : State) : Host.Outcome State Fault Refusal := issue { form := .ext 0xAB f, sem := semWsum f } s
/-- WMUELLER (R160). -/
def execWmueller (f : Ext) (s : State) : Host.Outcome State Fault Refusal := issue { form := .ext 0xAD f, sem := semWmueller f } s
/-- WRCP.f (R153). -/
def execWrcpF (f : Ext) (s : State) : Host.Outcome State Fault Refusal := issue { form := .ext 0xAE f, sem := semW1 f (transF .rcp) } s
/-- WRCP.r (R153). -/
def execWrcpR (f : Ext) (s : State) : Host.Outcome State Fault Refusal := issue { form := .ext 0xAF f, sem := semW1 f (transR .rcp) } s
/-- WEXP2.f (R153). -/
def execWexp2F (f : Ext) (s : State) : Host.Outcome State Fault Refusal := issue { form := .ext 0xB0 f, sem := semW1 f (transF .exp2) } s
/-- WEXP2.r (R153). -/
def execWexp2R (f : Ext) (s : State) : Host.Outcome State Fault Refusal := issue { form := .ext 0xB1 f, sem := semW1 f (transR .exp2) } s
/-- WSETP (R154). -/
def execWsetp (f : Ext) (s : State) : Host.Outcome State Fault Refusal := issue { form := .ext 0xB2 f, sem := semWsetp f } s
/-- WCVT (R156). -/
def execWcvt (f : Ext) (s : State) : Host.Outcome State Fault Refusal := issue { form := .ext 0xB3 f, sem := semWcvt f } s

end Sys2Proof.Machine
end

