-- ==== Sys2Proof/Machine/Texture.lean ====
section
/-! DEFINITION. The spectral texture unit (R159, R161–R171): descriptors, addressing, filtering and the table instructions. -/
namespace Sys2Proof.Machine
open Sys2Proof

/-! ## Reading tables (R171) -/

/-- A computation that reads memory as loads of one thread: it may wait or stop on a cause. -/
abbrev TabM (α : Type) := StateT State (Except LaneOut) α

/-- Some bytes at an offset from a reference, by a phased load; with a tainted address at the home (R443). A peer is asked for those of its
buffers, and the thread waits for the answer (R406, R414). -/
def tabRead (r : Rd) (taint : Bool) (ref : Dword) (off : Int) (n align : Nat) : TabM (List Byte) := fun s =>
  match readyFor s (.thread r.t) (some r.t.cell) (checkBuffer s r.c.ctx needLoad (refIndex ref) ((refOff ref : Int) + off) n align) with
  | .page root page => .error (.stall (beginWait s (.thread r.t) (.page root page)))
  | .peer a => .error (.stall (beginWait s (.thread r.t) (.peer a)))
  | .bad c sub => .error (.cause c (some (faultAddr ref off)) sub 0)
  | .ok a =>
    if a.blocks.any (fun b => (inFlightBlocks s r.t).contains b) || (taint && consuming s r.t) then .error (.stall s)
    else .ok (if taint then homeRead s (some r.t.cell) a else phasedReadBy r.s.free s r.t.cell a)

/-- A cause of a table's contents. -/
def tabCause {α : Type} (c : Cause) (addr : Dword) (info : Nat) : TabM α := fun _ => .error (.cause c (some addr) info 0)

/-- A table instruction's outcome from its computation. -/
def tabRun (m : TabM Writes) (s : State) : LaneOut :=
  match m s with
  | .ok (w, s') => .done s' w
  | .error o => o

/-! ## The descriptor (R161–R163) -/

structure Texture where
  base : Dword
  w : Nat
  h : Nat
  layers : Nat
  nl : Nat
  lambda0 : Nat
  rdlambda : Nat
  lstride : Nat
  fmt : Nat
  mips : Nat
  amode : Nat
  filter : Nat
  deriving DecidableEq, Repr

/-- Minimum and alignment of LSTRIDE by format (R162). -/
def lstrideRule (fmt nl : Nat) : Nat × Nat :=
  if fmt = 0 then (4 * nl, 4) else if fmt = 1 then (2 * nl, 2) else (33 * ((nl + 31) / 32), 1)

def finiteF (b : Nat) : Bool := match unpack fp32 b with
  | .fin _ _ _ => true
  | _ => false
def positiveF (b : Nat) : Bool := match unpack fp32 b with
  | .fin n m _ => !n && m ≠ 0
  | _ => false

/-- A descriptor from its 64 bytes, or the lowest subcode of R163 that applies. -/
def parseTexture (b : List Byte) : Except Nat Texture :=
  let n (o k : Nat) : Nat := byteField b o k
  let t : Texture := ⟨dword (n 0 8), n 8 2 + 1, n 10 2 + 1, n 12 2 + 1, n 14 2 + 1, n 16 4, n 20 4, n 24 4, n 28 1 % 4, n 29 1 % 16 + 1, n 30 1, n 31 1⟩
  let (lmin, lal) := lstrideRule t.fmt t.nl
  if n 28 1 ≥ 4 || n 29 1 ≥ 16 || n 31 1 ≥ 32 || n 32 32 ≠ 0 then .error 1
  else if t.fmt = 3 then .error 2
  else if [0, 1, 2, 3].any (fun i => t.amode / 4 ^ i % 4 = 3) then .error 3
  else if t.nl > 4096 then .error 4
  else if t.lstride < lmin || t.lstride % lal ≠ 0 then .error 5
  else if !finiteF t.lambda0 || !positiveF t.rdlambda then .error 6
  else if refOff t.base % 256 ≠ 0 then .error 7
  else if t.mips - 1 > Nat.log2 (max t.w t.h) then .error 8
  else .ok t

/-- Reads and checks a thread's descriptor (R163). -/
def readTexture (r : Rd) (taint : Bool) (ref : Dword) : TabM Texture := do
  let b ← tabRead r taint ref 0 64 64
  match parseTexture b with
  | .ok t => pure t
  | .error k => tabCause .texDesc ref k

/-- Extents of a level (R162). -/
def Texture.wAt (t : Texture) (m : Nat) : Nat := max 1 (t.w / 2 ^ m)
def Texture.hAt (t : Texture) (m : Nat) : Nat := max 1 (t.h / 2 ^ m)

/-- Offset of a level (R162). -/
def Texture.levelOff (t : Texture) : Nat → Nat
  | 0 => 0
  | m + 1 => (t.levelOff m + t.wAt m * t.hAt m * t.layers * t.lstride + 255) / 256 * 256

/-- One λ element of a texel, as FP32 bits (R162). -/
def readTexel (r : Rd) (taint : Bool) (t : Texture) (m x y layer l : Nat) : TabM Nat := do
  let row : Nat := t.levelOff m + ((layer * t.hAt m + y) * t.wAt m + x) * t.lstride
  if t.fmt = 0 then
    let b ← tabRead r taint t.base (row + 4 * l : Nat) 4 4
    pure (leNat b)
  else if t.fmt = 1 then
    let b ← tabRead r taint t.base (row + 2 * l : Nat) 2 2
    pure (convV fp32 .rne false (unpack fp16 (leNat b))).1
  else
    let b ← tabRead r taint t.base (row + 33 * (l / 32) + l % 32 : Nat) 1 1
    let sc ← tabRead r taint t.base (row + 33 * (l / 32) + 32 : Nat) 1 1
    pure (convV fp32 .rne false (mxValue e4m3 (leNat sc) (leNat b))).1

/-! ## Positions and filtering (R164–R166) -/

/-- The integer at or below m · 2^e. -/
def floorDy (m e : Int) : Int := if e ≥ 0 then m * 2 ^ e.toNat else m / 2 ^ (-e).toNat

/-- A coordinate's exact value, NaN as 0, clamped to a range. -/
def clampDy (b : Nat) (lo hi : Int) : Int × Int :=
  match unpack fp32 b with
  | .nan _ => (0, 0)
  | .inf n => (if n then lo else hi, 0)
  | .fin n m e =>
    let v := sgn n m
    if floorDy v e < lo then (lo, 0) else if floorDy v e ≥ hi then (hi, 0) else (v, e)

/-- The weight of 256ths above the floor, ties to even (R164). -/
def weightDy (m e : Int) : Nat :=
  if e ≥ 0 then 0
  else
    let q : Nat := 2 ^ (-e).toNat
    let f : Nat := (m % (q : Int)).toNat
    let n := f * 256
    let d := n / q
    let rem := n % q
    if 2 * rem > q || (2 * rem = q && d % 2 = 1) then d + 1 else d

/-- One or two positions along an axis: the weight of the second, 0 for none. -/
structure AxisPos where
  i0 : Int
  w : Nat
  deriving DecidableEq, Repr

/-- The positions of a clamped coordinate by the axis's filter. -/
def axisPos (linear : Bool) (s : Int × Int) : AxisPos :=
  if linear then
    let w := weightDy s.1 s.2
    if w = 256 then ⟨floorDy s.1 s.2 + 1, 0⟩ else ⟨floorDy s.1 s.2, w⟩
  else
    let x := faddV fp32 (.fin (s.1 < 0) s.1.natAbs s.2) (.fin false 1 (-1))
    match unpack fp32 x.1 with
    | .fin n m e => ⟨floorDy (sgn n m) e, 0⟩
    | _ => ⟨0, 0⟩

/-- A position brought into range (R165). -/
def wrapAxis (mode : Nat) (n : Nat) (i : Int) : Nat :=
  match mode with
  | 1 => (i % (n : Int)).toNat
  | 2 =>
    let k := (i % (2 * n : Nat)).toNat
    if k < n then k else 2 * n - 1 - k
  | _ => (min (max i 0) ((n : Int) - 1)).toNat

/-- lerp of R166 on FP32 bits (DESIGN CHOICE, log entries 133 and 134) (DESIGN CHOICE, log entry 133) (DESIGN CHOICE, log entry 134). -/
def lerpBits (a b w : Nat) : Nat :=
  if w = 0 then a
  else
    match unpack fp32 a, unpack fp32 b with
    | .nan _, _ => fp32.nan
    | _, .nan _ => fp32.nan
    | .inf x, .inf y => if x = y then a else fp32.nan
    | .inf _, _ => a
    | _, .inf _ => b
    | .fin n1 m1 e1, .fin n2 m2 e2 =>
      let x := dyAdd (sgn n1 m1 * (256 - w : Nat)) e1 (sgn n2 m2 * w) e2
      (roundInt fp32 .rne (n1 && n2) x.1 (x.2 - 8)).1

/-- Two positions of an axis combined; the second is read only where it has weight (DEDUCED, log entry 42). -/
def lerpAxis (p : AxisPos) (mode n : Nat) (get : Nat → TabM Nat) : TabM Nat := do
  let a ← get (wrapAxis mode n p.i0)
  if p.w = 0 then pure a
  else
    let b ← get (wrapAxis mode n (p.i0 + 1))
    pure (lerpBits a b p.w)

/-- The u or v position at an extent (R164). -/
def uvPos (linear : Bool) (c n : Nat) : AxisPos :=
  let s := rneSub (rneMul c (roundInt fp32 .rne false n 0).1).1 0x3F000000
  axisPos linear (clampDy s.1 (-(2 ^ 24)) (2 ^ 24))

/-- The value filtered over u, v, layer and mip of what `lam` gives at a texel (R166). Of several reads that fail the first gives the cause: by
sample or channel, then mip, layer, v, u and λ, the lower position first (DESIGN CHOICE, log entry 103). -/
def filterTexture (t : Texture) (u v layer lod : Nat) (lam : (l x y z : Nat) → TabM Nat) : TabM Nat :=
  let lin (i : Nat) : Bool := tb t.filter i
  let mode (i : Nat) : Nat := t.amode / 4 ^ i % 4
  let lay := axisPos (lin 2) (clampDy layer (-(2 ^ 24)) (2 ^ 24))
  let mip := axisPos (lin 4) (clampDy lod 0 ((t.mips - 1 : Nat) : Int))
  lerpAxis mip 0 t.mips (fun m =>
    lerpAxis lay (mode 2) t.layers (fun z =>
      lerpAxis (uvPos (lin 1) v (t.hAt m)) (mode 1) (t.hAt m) (fun y =>
        lerpAxis (uvPos (lin 0) u (t.wAt m)) (mode 0) (t.wAt m) (fun x => lam m x y z))))

/-! ## Texture instructions (R167–R170) -/

/-- Whether an operand that names memory is tainted; coordinates, which choose texels within the texture, do not count (DESIGN CHOICE,
log entry 102). -/
def Rd.refTaint (r : Rd) (f : Src) : Bool :=
  match r.source f with
  | some th => (FK.ref.regs f.code).any (fun g => match g with
    | .v n => r.q.bound n = 0 && th.taint.getD n false
    | _ => false)
  | none => false

/-- SAMPLEW (R167): the λ axis at each wavelength of C. -/
def semSamplew (e : Ext) : LaneSem := fun r s =>
  let taint := r.refTaint e.a
  let co (i : Nat) : Nat := (r.vreg e.b i).toNat
  tabRun (do
    let t ← readTexture r taint (r.x64 e.a)
    let one (j : Nat) : TabM Nat :=
      let sl := rneMul (rneSub (sample (r.packet e.c 0) j).toNat t.lambda0).1 t.rdlambda
      let p := axisPos (tb t.filter 3) (clampDy sl.1 (-(2 ^ 24)) (2 ^ 24))
      filterTexture t (co 0) (co 1) (co 2) (co 3) (fun m x y z =>
        lerpAxis p (t.amode / 64 % 4) t.nl (fun l => readTexel r taint t m x y z l))
    let xs ← (List.range 8).mapM one
    pure (writeW e.d (xs.map word))) s

/-- SAMPLE (R168): four channels along λ. -/
def semSample (e : Ext) : LaneSem := fun r s =>
  let taint := r.refTaint e.a
  let co (i : Nat) : Nat := (r.vreg e.b i).toNat
  tabRun (do
    let t ← readTexture r taint (r.x64 e.a)
    let one (k : Nat) : TabM Nat :=
      if k ≥ t.nl then pure 0
      else filterTexture t (co 0) (co 1) (co 2) (co 3) (fun m x y z => readTexel r taint t m x y z k)
    let xs ← (List.range 4).mapM one
    pure (writeVs e.d (xs.map word))) s

/-- TEXLD (R169): four elements unfiltered. -/
def semTexld (e : Ext) : LaneSem := fun r s =>
  let taint := r.refTaint e.a
  let co (i : Nat) : Nat := (r.vreg e.b i).toNat
  tabRun (do
    let t ← readTexture r taint (r.x64 e.a)
    let one (k : Nat) : TabM Nat :=
      let l := e.imm.toNat + k
      if co 3 ≥ t.mips || l ≥ t.nl || co 2 ≥ t.layers then pure 0
      else if co 0 ≥ t.wAt (co 3) || co 1 ≥ t.hAt (co 3) then pure 0
      else readTexel r taint t (co 3) (co 0) (co 1) (co 2) l
    let xs ← (List.range 4).mapM one
    pure (writeVs e.d (xs.map word))) s

/-- The spectrum of three coefficients at a wavelength (R170). -/
def specEval (c0 c1 c2 lambda xmin xrscale : Nat) : Nat :=
  let x := (rneMul (rneSub lambda xmin).1 xrscale).1
  let t := (rneFma c0 x c1).1
  let s := (rneFma t x c2).1
  match unpack fp32 s with
  | .inf n => if n then 0 else 0x3F800000
  | .nan _ => fp32.nan
  | .fin _ _ _ =>
    let q := (rneFma s s 0x3F800000).1
    let h := (rneMul s (transR .rsq (word q)).1).1
    (rneFma h 0x3F000000 0x3F000000).1

/-- SPECUP (R170). -/
def semSpecup (e : Ext) : LaneSem := fun r s =>
  let ref := r.x64 e.b
  let taint := r.refTaint e.b
  tabRun (do
    let hd ← tabRead r taint ref 0 64 64
    let xmin := byteField hd 0 4
    let xr := byteField hd 4 4
    if !positiveF xr || byteField hd 8 56 ≠ 0 then tabCause .texDesc ref 10
    else
      let pos (i : Nat) : AxisPos := axisPos true (clampDy (rneMul (r.vreg e.a i).toNat 0x427C0000).1 0 63)
      let coef (k : Nat) : TabM Nat :=
        lerpAxis (pos 2) 0 64 (fun ib => lerpAxis (pos 1) 0 64 (fun ig => lerpAxis (pos 0) 0 64 (fun ir => do
          let b ← tabRead r taint ref (64 + 16 * ((ib * 64 + ig) * 64 + ir) + 4 * k : Nat) 4 4
          pure (leNat b))))
      let c0 ← coef 0
      let c1 ← coef 1
      let c2 ← coef 2
      pure (writeW e.d ((List.range 8).map (fun j => word (specEval c0 c1 c2 (sample (r.packet e.c 0) j).toNat xmin xr))))) s

/-! ## WXYZ (R159) -/

/-- Colour-matching values of a wavelength: three components with the flags of their roundings (DESIGN CHOICE, log entry 133). -/
def cmfAt (r : Rd) (ref : Dword) (lfirst rstep count : Nat) (lambda : Nat) : TabM (List Nat × Flags) := do
  let d := rneSub lambda lfirst
  let t := rneMul d.1 rstep
  let fl : Flags := d.2 ||| t.2
  match unpack fp32 t.1 with
  | .fin n m e =>
    let v := sgn n m
    let top : Bool := floorDy v e > (count : Int) - 1 || (floorDy v e = (count : Int) - 1 && floorDy v e ≠ -floorDy (-v) e)
    if v < 0 || top then pure ([0, 0, 0], fl)
    else
      let k := min (floorDy v e).toNat (count - 2)
      let f := dyAdd v e (-(k : Int)) 0
      let fv : FVal := .fin (f.1 < 0) f.1.natAbs f.2
      let r0 ← tabRead r false ref (64 + 16 * k : Nat) 16 16
      let r1 ← tabRead r false ref (64 + 16 * (k + 1) : Nat) 16 16
      let one (q : Nat) : Nat × Flags :=
        let a := byteField r0 (4 * q) 4
        let dq := rneSub (byteField r1 (4 * q) 4) a
        let y := ffmaV fp32 fv (unpack fp32 dq.1) (unpack fp32 a)
        (y.1, dq.2 ||| y.2)
      let xs := (List.range 3).map one
      pure (xs.map (·.1), xs.foldl (fun g x => g ||| x.2) fl)
  | _ => pure ([0, 0, 0], fl)

/-- A finite value above zero. -/
def finitePos (b : Nat) : Bool := positiveF b

/-- WXYZ (R159): a lagging thread reads csr.cietab as its own position implies (R114). -/
def semWxyz (e : Ext) : LaneSem := fun r s =>
  let ref := readOldCsr r.q r.th 0x021 r.q.cietab
  tabRun (do
    let hd ← tabRead r false ref 0 64 64
    let lfirst := byteField hd 0 4
    let rstep := byteField hd 4 4
    let count := byteField hd 8 4
    if !positiveF rstep || count < 2 || count > 4096 || byteField hd 12 52 ≠ 0 then tabCause .texDesc ref 9
    else
      let one (j : Nat) : TabM (List Nat × Flags) := do
        let c ← cmfAt r ref lfirst rstep count (sample (r.packet e.c 0) j).toNat
        let b := (sample (r.packet e.b 0) j).toNat
        let g := if finitePos b then fdivV fp32 (f32 (sample (r.packet e.a 0) j)) (unpack fp32 b) else (0, 0)
        let ts := c.1.map (fun x => rneMul g.1 x)
        pure (ts.map (·.1), ts.foldl (fun f x => f ||| x.2) (c.2 ||| g.2))
      let rows ← (List.range 8).mapM one
      let out (q : Nat) : Nat × Flags :=
        let sum := latticeSum fp32 (rows.map (fun x => x.1.getD q 0))
        let y := rneMul sum.1 0x3E000000
        (y.1, sum.2 ||| y.2)
      let xs := (List.range 3).map out
      let fl := rows.foldl (fun f x => f ||| x.2) (xs.foldl (fun f x => f ||| x.2) 0)
      pure { writeVs e.d (xs.map (fun x => word x.1)) with flags := fl }) s

/-- WXYZ (R159). -/
def execWxyz (f : Ext) (s : State) : Host.Outcome State Fault Refusal := issue { form := .ext 0xAC f, sem := semWxyz f } s
/-- SAMPLEW (R167). -/
def execSamplew (f : Ext) (s : State) : Host.Outcome State Fault Refusal := issue { form := .ext 0xB4 f, sem := semSamplew f } s
/-- SAMPLE (R168). -/
def execSample (f : Ext) (s : State) : Host.Outcome State Fault Refusal := issue { form := .ext 0xB5 f, sem := semSample f } s
/-- TEXLD (R169). -/
def execTexld (f : Ext) (s : State) : Host.Outcome State Fault Refusal := issue { form := .ext 0xB6 f, sem := semTexld f } s
/-- SPECUP (R170). -/
def execSpecup (f : Ext) (s : State) : Host.Outcome State Fault Refusal := issue { form := .ext 0xB7 f, sem := semSpecup f } s

end Sys2Proof.Machine
end

