-- ==== Sys2Proof/Machine/Traversal.lean ====
section
/-! DEFINITION. The traversal unit (R174–R188, R478): box and triangle tests, the walk, TRACE, TRCONT and TRGET. -/
namespace Sys2Proof.Machine
open Sys2Proof

/-! ## The traversal record (R177) -/

def TraceRec.ofBytes (b : List Byte) : TraceRec :=
  let n (o k : Nat) : Nat := byteField b o k
  ⟨[n 0 4, n 4 4, n 8 4], [n 12 4, n 16 4, n 20 4], n 24 4, n 28 4, dword (n 32 8), n 40 1, n 41 1, n 42 1, n 43 1, n 44 4, n 48 4, n 52 4,
    n 56 4, n 60 4, (List.range 16).map (fun e => n (64 + 4 * e) 4)⟩

def TraceRec.toBytes (r : TraceRec) : List Byte :=
  (r.org ++ r.dir ++ [r.tmin, r.tmax]).flatMap (leBytes 4) ++ leBytes 8 r.href.toNat ++ leBytes 1 r.raymask ++ leBytes 1 r.flags
    ++ leBytes 1 r.depth ++ leBytes 1 r.state ++ ([r.pendid, r.hitt, r.hitid, r.hitu, r.hitv] ++ r.stack).flatMap (leBytes 4)

def TraceRec.firstHit (r : TraceRec) : Bool := tb r.flags 0
def TraceRec.cullBack (r : TraceRec) : Bool := tb r.flags 1
def TraceRec.hasHit (r : TraceRec) : Bool := tb r.flags 7
/-- FLAGS after an accepted hit. -/
def TraceRec.hitFlags (r : TraceRec) (proc : Bool) : Nat := r.flags % 64 + (if proc then 64 else 0) + 128

def isNaNBits (b : Nat) : Bool := isNaN (unpack fp32 b)
def infBits : Nat := 0x7F800000
def ninfBits : Nat := 0xFF800000

/-- Ordered comparison of FP32 bits; false with a NaN (R181). -/
def leBits (a b : Nat) : Bool := fltV (unpack fp32 a) (unpack fp32 b) || feqV (unpack fp32 a) (unpack fp32 b)
def ltBits (a b : Nat) : Bool := fltV (unpack fp32 a) (unpack fp32 b)

/-! ## Tests (R179, R180) -/

def maxBits (a b : Nat) : Nat := if ltBits a b then b else a
def minBits (a b : Nat) : Nat := if ltBits b a then b else a

/-- Whether a box's minimum exceeds its maximum on an axis on which the ray's reciprocal is finite: it is never hit (R179) (DEDUCED,
log entry 104). -/
def invertedBox (r : TraceRec) (box : List Nat) : Bool :=
  (List.range 3).any (fun a => finiteF (transR .rcp (word (r.dir.getD a 0))).1 && ltBits (box.getD (3 + a) 0) (box.getD a 0))

/-- A box of six FP32 values against the ray: whether it is hit, and tnear. -/
def boxTest (r : TraceRec) (box : List Nat) : Bool × Nat :=
  let axis (a : Nat) : Nat × Nat :=
    let rd := (transR .rcp (word (r.dir.getD a 0))).1
    let t (i : Nat) : Nat := (rneMul (rneSub (box.getD (3 * i + a) 0) (r.org.getD a 0)).1 rd).1
    let lo (x : Nat) : Nat := if isNaNBits x then ninfBits else x
    let hi (x : Nat) : Nat := if isNaNBits x then infBits else x
    (minBits (lo (t 0)) (lo (t 1)), maxBits (hi (t 0)) (hi (t 1)))
  let near := (List.range 3).foldl (fun m a => maxBits m (axis a).1) r.tmin
  let far := (List.range 3).foldl (fun m a => minBits m (axis a).2) r.tmax
  (leBits near far && !invertedBox r box, near)

/-- A value of the triangle test: exact, infinite, or not a number. -/
def exactMul (a b : FVal) : FVal :=
  match a, b with
  | .fin n m e, .fin n' m' e' => .fin (n != n') (m * m') (e + e')
  | x, y => if isNaN x || isNaN y || isZero x || isZero y then .nan false else .inf (isNeg x != isNeg y)

/-- An exact sum; it is -0 only where both addends are (R180) (DESIGN CHOICE, log entry 133). -/
def exactAdd (a b : FVal) : FVal :=
  match a, b with
  | .fin n m e, .fin n' m' e' =>
    let x := dyAdd (sgn n m) e (sgn n' m') e'
    .fin (if x.1 = 0 then n && n' else x.1 < 0) x.1.natAbs x.2
  | .inf n, .inf n' => if n = n' then .inf n else .nan false
  | .nan s, _ => .nan s
  | _, .nan s => .nan s
  | .inf n, _ => .inf n
  | _, .inf n => .inf n

def exactBits (v : FVal) : Nat := (convV fp32 .rne false v).1

/-- cross: each component one rounding of its exact sum. -/
def crossBits (a b : List Nat) : List Nat :=
  let x (l : List Nat) (i : Nat) : FVal := unpack fp32 (l.getD i 0)
  let c (i j : Nat) : Nat := exactBits (exactAdd (exactMul (x a i) (x b j)) (fneg (exactMul (x a j) (x b i))))
  [c 1 2, c 2 0, c 0 1]

def dotBits (a b : List Nat) : Nat :=
  let x (l : List Nat) (i : Nat) : FVal := unpack fp32 (l.getD i 0)
  let p (i : Nat) : FVal := exactMul (x a i) (x b i)
  exactBits (exactAdd (exactAdd (p 0) (p 1)) (p 2))

/-- The triangle test: t, u and v of an accepted hit. -/
def triTest (r : TraceRec) (v : List Nat) (cull : Bool) : Option (Nat × Nat × Nat) :=
  let vert (k : Nat) : List Nat := (List.range 3).map (fun i => v.getD (3 * k + i) 0)
  let sub (a b : List Nat) : List Nat := (List.range 3).map (fun i => (rneSub (a.getD i 0) (b.getD i 0)).1)
  let e1 := sub (vert 1) (vert 0)
  let e2 := sub (vert 2) (vert 0)
  let s := sub r.org (vert 0)
  let p := crossBits r.dir e2
  let q := crossBits s e1
  let det := dotBits e1 p
  let un := dotBits s p
  let vn := dotBits r.dir q
  let tn := dotBits e2 q
  let dv := unpack fp32 det
  let neg := isNeg dv
  let w := exactAdd (exactAdd dv (fneg (unpack fp32 un))) (fneg (unpack fp32 vn))
  let sided (x : FVal) : Bool := !isNaN x && (isZero x || isNeg x = neg)
  if isNaN dv || isZero dv then none
  else if neg && (r.cullBack || cull) then none
  else if !(sided (unpack fp32 un) && sided (unpack fp32 vn) && sided w) then none
  else
    let t := (fdivV fp32 (unpack fp32 tn) dv).1
    let u := (fdivV fp32 (unpack fp32 un) dv).1
    let v' := (fdivV fp32 (unpack fp32 vn) dv).1
    if isNaNBits t || isNaNBits u || isNaNBits v' then none
    else if leBits r.tmin t && ltBits t r.tmax then some (t, u, v') else none

/-! ## Steps (R178) -/

/-- Type and index of a stack word (R174, R478). -/
def wordType (w : Nat) : Nat := w / 2 ^ 30 % 4
def wordIndex (w : Nat) : Nat := w % 2 ^ 30

/-- A well-formed child word (R174) (DEDUCED, log entry 44). -/
def childOk (w : Nat) : Bool :=
  match wordType w with
  | 0 => w = 0
  | 1 => wordIndex w % 8 = 0
  | _ => wordIndex w ≠ 0

/-- A well-formed stack word: a child word that is not empty, or the culled form (R478). -/
def stackWordOk (w : Nat) : Bool := w ≠ 0 && (wordType w = 0 || childOk w)

/-- How a step ends: committed, or stopped on a subcode of TRACE_FORMAT. -/
inductive StepEnd where
  | done (r : TraceRec)
  | bad (sub : Nat)
  deriving DecidableEq, Repr

/-- Inserts a hit child by descending tnear, ties by descending slot: the last one is popped first. -/
def insertHit (x : Nat × Nat × Nat) : List (Nat × Nat × Nat) → List (Nat × Nat × Nat)
  | [] => [x]
  | y :: rest => if ltBits x.1 y.1 || (!ltBits y.1 x.1 && x.2.1 < y.2.1) then y :: insertHit x rest else x :: y :: rest

/-- An inner node's step from its 128 bytes. -/
def nodeStep (r : TraceRec) (b : List Byte) : StepEnd :=
  let child (i : Nat) : Nat := byteField b (96 + 4 * i) 4
  let cflags (i : Nat) : Nat := byteField b (116 + i) 1
  if byteField b 120 8 ≠ 0 || (List.range 4).any (fun i => cflags i > 1 || !childOk (child i)) then .bad 5
  else
    let hit (i : Nat) : Option (Nat × Nat × Nat) :=
      if child i = 0 || byteField b (112 + i) 1 &&& r.raymask = 0 then none
      else
        let x := boxTest r ((List.range 6).map (fun j => byteField b (24 * i + 4 * j) 4))
        let w := if wordType (child i) = 2 && cflags i = 1 then wordIndex (child i) else child i
        if x.1 then some (x.2, i, w) else none
    let hits := ((List.range 4).filterMap hit).foldl (fun l x => insertHit x l) []
    let d := r.depth - 1
    if d + hits.length > 16 then .bad 6
    else
      .done { r with stack := r.stack.take d ++ hits.map (fun x => x.2.2) ++ r.stack.drop (d + hits.length),
                     depth := d + hits.length, state := if d + hits.length = 0 then 3 else 1 }

/-- A triangle's step from its 48 bytes; `cull` is carried by its stack word. -/
def triStep (r : TraceRec) (cull : Bool) (b : List Byte) : StepEnd :=
  if byteField b 40 8 ≠ 0 then .bad 5
  else
    let d := r.depth - 1
    match triTest r ((List.range 9).map (fun j => byteField b (4 * j) 4)) cull with
    | none => .done { r with depth := d, state := if d = 0 then 3 else 1 }
    | some (t, u, v) =>
      let d := if r.firstHit then 0 else d
      .done { r with tmax := t, hitt := t, hitid := byteField b 36 4, hitu := u, hitv := v, flags := r.hitFlags false, depth := d,
                     state := if d = 0 then 3 else 1 }

/-- A procedural leaf's step from its 32 bytes. -/
def leafStep (r : TraceRec) (b : List Byte) : StepEnd :=
  if byteField b 28 4 ≠ 0 then .bad 5
  else if (boxTest r ((List.range 6).map (fun j => byteField b (4 * j) 4))).1 then
    .done { r with pendid := byteField b 24 4, state := 2 }
  else .done { r with depth := r.depth - 1, state := if r.depth = 1 then 3 else 1 }

/-- One step on the top of the stack: its record is fetched and tested. -/
def traceStep (r : Rd) (x : TraceRec) (s : State) : Except LaneOut (StepEnd × State) :=
  let top := x.stack.getD (x.depth - 1) 0
  let off : Int := (16 * wordIndex top : Nat)
  if !stackWordOk top then .ok (.bad 5, s)
  else
    let get (n al : Nat) (f : List Byte → StepEnd) : Except LaneOut (StepEnd × State) :=
      match tabRead r false x.href off n al s with
      | .ok (b, s') => .ok (f b, s')
      | .error o => .error o
    match wordType top with
    | 1 => get 128 128 (nodeStep x)
    | 3 => get 32 16 (leafStep x)
    | 0 => get 48 16 (triStep x true)
    | _ => get 48 16 (triStep x false)

/-- The record checks of R187: the lowest subcode that applies, `cont` for TRCONT. -/
def recCheck (x : TraceRec) (cont : Bool) : Option Nat :=
  if x.state ≥ 4 || (x.state = 0 && (cont || x.depth > 0)) then some 1
  else if x.flags / 4 % 16 ≠ 0 || isNaNBits x.tmin || isNaNBits x.tmax then some 2
  else if x.depth > 16 || (x.depth = 0 && (x.state = 1 || x.state = 2)) then some 3
  else if refOff x.href % 128 ≠ 0 then some 4
  else if cont && x.state ≠ 2 then some 7
  else none

/-- The record of a thread, after the checks of its place (R187), alignment first (DESIGN CHOICE, log entry 105); the progress word of a stop is
TRACE's and TRCONT's alone (R365), and its DEPTH is 0 where nothing has been written (DESIGN CHOICE, log entry 106) (DESIGN CHOICE, log entry 105). -/
def withRecord (r : Rd) (f : Src) (progress : Bool) (go : Nat → LaneOut) : LaneOut :=
  let off := (r.x32 f).toNat
  let p : Dword := if progress then dword off else 0
  if off % 128 ≠ 0 then .cause .misaligned (some (dword off)) 0 p
  else if off + 128 > r.c.shape.scratch then .cause .scratchBounds (some (dword off)) 0 p
  else go off

/-- The progress word of R187. -/
def traceProgress (off steps depth : Nat) : Dword := dword (off + steps % 2 ^ 16 * 2 ^ 32 + depth * 2 ^ 48)

/-- A READY record's start (R183). -/
def TraceRec.start (x : TraceRec) : TraceRec :=
  { x with depth := 1, stack := x.stack.set 0 0x40000000, flags := x.flags % 64, hitt := infBits, hitid := 0, hitu := 0, hitv := 0,
           pendid := 0, state := 1 }

/-- The status that TRACE and TRCONT return. -/
def TraceRec.status (x : TraceRec) : Nat := if x.state = 2 then 2 else if x.state = 1 then 3 else if x.hasHit then 1 else 0

/-- A walk sets out from a record: the thread is held at the instruction until it retires or stops (R183, R347); of a TRACE that a save has
stopped the rest of its steps (R188). -/
def walkOut (r : Rd) (op : Nat) (e : Ext) (s : State) (off : Nat) (x : TraceRec) : LaneOut :=
  let limit : Nat := match r.th.traced with
    | some (pc, n) => if pc = r.th.pc && op = 0xB8 then n else e.imm.toNat
    | none => e.imm.toNat
  .ok (s.modThread r.t (fun th => { th with walk := some ⟨off, x, 0, limit, e.d, r.tainted (.ext op e), r.pops⟩, traced := none })) {} (.hold .walk) .walk

/-- The unit has no walk of a thread any more. -/
def Thread.dropWalk (th : Thread) : Thread := { th with walk := none, board := th.board.filter (fun o => o.awaits ≠ .walk) }

/-- A walk at rest retires (R183, R186): the record and the status are written, and the thread goes on; every word of the record is then the
instruction's, also one that another party has stored meanwhile (DESIGN CHOICE, log entry 128). -/
def finishWalk (s : State) (t : Tid) (w : Walk) : State :=
  settleSquad (((dropAsks (scratchWrite s t.cell w.off w.record.toBytes) (.thread t)).modThread t (fun th =>
    (((th.receive .walk (writeV w.dest (word w.record.status)) w.taint).popQueues w.pops).dropWalk).goTo th.npc s.clk)).modSquad t.cell t.squad
    (fun q => q.untag [w.dest.toNat])) t.cell t.squad

/-- Whether a walk is at rest: its record is not RUNNING any more, or its limit is reached (R183). -/
def Walk.atRest (w : Walk) : Bool := w.record.state ≠ 1 || (w.limit ≠ 0 && w.steps ≥ w.limit)

/-- A walk stops on a cause (R187): the record as its steps have left it is written, and the thread stops at the instruction. -/
def stopWalk (s : State) (t : Tid) (w : Walk) (c : Cause) (addr : Dword) (info : Nat) : State :=
  match s.thread? t with
  | some th =>
    settleSquad (raiseAt ((dropAsks (scratchWrite s t.cell w.off w.record.toBytes) (.thread t)).modThread t Thread.dropWalk) th.waitAt t c addr info
      (traceProgress w.off w.steps w.record.depth)) t.cell t.squad
  | none => s

/-- The traversal unit goes on with a thread's walk by one step (R178, R183): until the record is no longer RUNNING or the limit is reached
(DEDUCED, log entry 43). -/
def walkStep (s : State) (t : Tid) : State :=
  match s.cell? t.cell, s.squad? t.cell t.squad, s.thread? t with
  | some c, some q, some th =>
    match th.walk with
    | some w =>
      if th.wait ≠ some .walk || !c.resident || !ctxLive s c.ctx then s
      else if w.atRest then finishWalk s t w
      else
        match traceStep ⟨s, t, th, q, c, none, [], [], []⟩ w.record s with
        | .ok (.done x, s') => (dropAsks s' (.thread t)).modThread t (fun th => { th with walk := some { w with record := x, steps := w.steps + 1 } })
        | .ok (.bad sub, s') => stopWalk s' t w .traceFormat (dword w.off) sub
        | .error (.stall s') => s'
        | .error (.cause k a i _) => stopWalk s t w k (a.getD (dword w.off)) i
        | .error _ => s
    | none => s
  | _, _, _ => s

/-- A save stops a walk at the step it stands before (R188): the record is written, and the instruction is executed again later, by a TRACE
with the steps that its limit leaves it; a walk at rest retires. -/
def saveWalk (s : State) (t : Tid) : State :=
  match (s.thread? t).bind Thread.walk with
  | some w =>
    if w.atRest then finishWalk s t w
    else (dropAsks (scratchWrite s t.cell w.off w.record.toBytes) (.thread t)).modThread t (fun th =>
      { th.dropWalk with wait := if th.wait = some .walk then none else th.wait, traced := if w.limit = 0 then none else some (th.pc, w.limit - w.steps),
                         state := if th.wait = some .walk && th.state = .stalled then .ready else th.state })
  | none => s

/-- TRACE (R183). -/
def semTrace (e : Ext) : LaneSem := fun r s =>
  withRecord r e.a true (fun off =>
    let x := TraceRec.ofBytes (scratchRead s r.t.cell off 128)
    match recCheck x false with
    | some sub => .cause .traceFormat (some (dword off)) sub (dword off)
    | none =>
      match x.state with
      | 0 => walkOut r 0xB8 e s off x.start
      | 1 => walkOut r 0xB8 e s off x
      | _ => .done s (writeV e.d (word x.status)))

/-- TRCONT's accept or reject (R184): the leaf popped, FIRSTHIT applied. -/
def contRecord (x : TraceRec) (acc : Bool) (t u v : Nat) : TraceRec :=
  let take : Bool := acc && leBits x.tmin t && ltBits t x.tmax
  let x := if take then { x with tmax := t, hitt := t, hitid := x.pendid, hitu := u, hitv := v, flags := x.hitFlags true } else x
  let d := if take && x.firstHit then 0 else x.depth - 1
  { x with depth := d, state := if d = 0 then 3 else 1 }

/-- TRCONT (R184). -/
def semTrcont (e : Ext) : LaneSem := fun r s =>
  withRecord r e.a true (fun off =>
    let x := TraceRec.ofBytes (scratchRead s r.t.cell off 128)
    match recCheck x true with
    | some sub => .cause .traceFormat (some (dword off)) sub (dword off)
    | none =>
      let attr (i : Nat) : Nat := if e.c.code = cZ then 0 else (r.vreg e.c i).toNat
      walkOut r 0xB9 e s off (contRecord x (e.fn = 1) (r.x32 e.b).toNat (attr 0) (attr 1)))

/-- TRGET (R185). -/
def semTrget (e : Ext) : LaneSem := fun r s =>
  withRecord r e.a false (fun off =>
    let x := TraceRec.ofBytes (scratchRead s r.t.cell off 128)
    let top := if x.depth = 0 || x.depth > 16 then 0 else x.stack.getD (x.depth - 1) 0
    .done s (writeVs e.d ((if e.fn = 0 then [x.hitt, x.hitid, x.hitu, x.hitv] else [x.pendid, top, x.tmin, x.tmax]).map word)))

/-- TRACE (R183). -/
def execTrace (f : Ext) (s : State) : Host.Outcome State Fault Refusal := issue { form := .ext 0xB8 f, sem := semTrace f } s
/-- TRCONT (R184). -/
def execTrcont (f : Ext) (s : State) : Host.Outcome State Fault Refusal := issue { form := .ext 0xB9 f, sem := semTrcont f } s
/-- TRGET (R185). -/
def execTrget (f : Ext) (s : State) : Host.Outcome State Fault Refusal := issue { form := .ext 0xBA f, sem := semTrget f } s

end Sys2Proof.Machine
end

