-- ==== Sys2Proof/Machine/Vat.lean ====
section
/-! DEFINITION. The vat: retirement of long-latency results (R72, R338), walks of the traversal unit (R183), curdling (R333, R334, R336) and
the delivery of traps (R349). -/
namespace Sys2Proof.Machine
open Sys2Proof

/-! ## Retirement -/

/-- The first entry that waits for its unit retires; an entry with no window left goes. -/
def retireFirst : List Outstanding → List Outstanding
  | [] => []
  | o :: r => if o.awaits = .unit then (if o.window = 0 then r else { o with awaits := .done } :: r) else o :: retireFirst r

/-- Whether an immediate access of a thread is to be performed now. -/
def LateAccess.dueFor (t : Tid) (e : LateAccess) : Bool := e.t = t && e.delay = 0

/-- LONG_LATENCY_RETIRE (R72, R178, R338, R440): the home performs an immediate access of the thread whose delay is over, and a load's registers are
written (DESIGN CHOICE, log entry 143); else the thread's oldest instruction in a unit retires, or its walk goes on by a step. -/
def execLongLatencyRetire (t : Tid) (s : State) : Host.Outcome State Fault Refusal :=
  .next (match s.late.find? (LateAccess.dueFor t) with
    | some e => performLate s e
    | none =>
      if (s.thread? t).any (fun th => th.board.any (fun o => o.awaits = .unit)) then s.modThread t (fun th => { th with board := retireFirst th.board })
      else walkStep s t)

/-! ## The vat's entries (R333) -/

/-- The threads of a cell, by identity. -/
def cellThreads (c : Cell) : List (Tid × Squad × Thread) :=
  ((List.range c.squads.length).zip c.squads).flatMap (fun x =>
    ((List.range x.2.threads.length).zip x.2.threads).map (fun y => (⟨c.id, x.1, y.1⟩, x.2, y.2)))

/-- A thread that may issue, with its entry's key, its age and its squad's slot. -/
structure Fresh where
  t : Tid
  key : Nat × Word
  age : Nat
  slot : Nat

/-- Whether a is taken before b (R333 step 1, R336). -/
def Fresh.before (a b : Fresh) : Bool :=
  a.age < b.age || (a.age = b.age && (a.slot < b.slot || (a.slot = b.slot && a.t.lane < b.t.lane)))

def insertFresh (x : Fresh) : List Fresh → List Fresh
  | [] => [x]
  | y :: r => if x.before y then x :: y :: r else y :: insertFresh x r

/-- The threads already in bundles that wait to issue. -/
def issuing (s : State) : List Tid := s.issue.flatMap (fun i => match i with
  | .bundle ts => ts
  | _ => [])

/-- The threads of a core that are READY, or STALLED with their instruction to be tried again, oldest first; a STALLED thread keeps its age
(R331). -/
def freshOn (s : State) (core : Nat) : List Fresh :=
  let busy := issuing s
  let all := (s.cells.filter (fun c => c.core = core)).flatMap (fun c => (cellThreads c).filterMap (fun x =>
    if canIssue s x.1 && !busy.contains x.1 then some (⟨x.1, (x.2.1.partition, x.2.2.pc), x.2.2.readyAt, x.2.1.slot⟩ : Fresh) else none))
  all.foldl (fun l x => insertFresh x l) []

/-- A thread joins the entry of its key, a new one, or its partition's spill list (R333). -/
def Core.join (k : Core) (x : Fresh) : Core :=
  if k.spill.contains x.t then k
  else if k.vat.any (fun e => (e.partition, e.pc) = x.key) then
    { k with vat := k.vat.map (fun e => if (e.partition, e.pc) = x.key && !e.threads.contains x.t then { e with threads := e.threads ++ [x.t] } else e) }
  else if k.vat.length < 256 then { k with vat := k.vat ++ [⟨x.key.1, x.key.2, [x.t]⟩] }
  else { k with spill := k.spill ++ [x.t] }

/-- The form of the instruction at which a thread stands, once it has been fetched. -/
def formAt (s : State) (t : Tid) : Option Form := (instrAt s t.cell (pcOf s t)).map formOf

/-- Whether a thread of a strict kernel stands at a collective instruction. -/
def strictAt (s : State) (t : Tid) : Bool :=
  (s.cell? t.cell).any (·.strict) && (formAt s t).any (fun f => f.collective true)

/-- The vat of a core with those threads in it that stand at their entries, and those that have become READY since (R333); a thread of the
spill list at a strict collective instruction, which does not issue alone, joins an entry as soon as it can (R334) (DEDUCED, log entry 129). -/
def Core.refill (k : Core) (s : State) (l : List Fresh) : Core :=
  let here (t : Tid) (key : Nat × Word) : Bool := l.any (fun x => x.t = t && x.key = key)
  let k := { k with
    vat := (k.vat.map (fun e => { e with threads := e.threads.filter (fun t => here t (e.partition, e.pc)) })).filter (fun e => !e.threads.isEmpty),
    spill := k.spill.filter (fun t => l.any (fun x => x.t = t) && !strictAt s t) }
  l.foldl Core.join k

/-! ## Curdling (R333, R334) -/

/-- The first thread of every lane, and the rest. -/
def firstOfLanes (l : List Fresh) : List Fresh × List Fresh :=
  l.foldl (fun (b : List Fresh × List Fresh) x => if b.1.any (fun y => y.t.lane = x.t.lane) then (b.1, b.2 ++ [x]) else (b.1 ++ [x], b.2)) ([], [])

/-- Bundles of one entry with distinct lanes (R333 steps 2, 3). -/
def bundlesOf : Nat → List Fresh → List (List Fresh)
  | 0, _ => []
  | _, [] => []
  | n + 1, l => let b := firstOfLanes l; b.1 :: bundlesOf n b.2

/-- Whether two threads of a squad were released together (R334): by one SYNC, phase or PHASE, or by the uniform step that one has passed
and the other has passed last or has still to pass, as every thread of the squad does. -/
def together (a b : Thread) : Bool := (a.release = b.release && a.release ≠ .start) || (a.ustep ≤ b.ustep && 0 < b.ustep)

/-- Whether a thread of a squad is on its way to the offset where others of its squad stand: it runs or awaits a result, and it stands at no
other collective instruction. -/
def onItsWay (s : State) (t : Tid) (th : Thread) (pc : Word) : Bool :=
  (th.state = .ready || th.state = .stalled || (th.state = .waiting && th.wait = some .reply)) && (th.pc = pc || !strictAt s t)

/-- Whether the vat holds back a strict collective bundle of a squad (R334): a thread that was released together with one of its threads is
still on its way (DEDUCED, log entry 129). -/
def collectiveHeld (s : State) (b : List Fresh) : Bool :=
  match b with
  | [] => false
  | x :: _ =>
    strictAt s x.t && (match s.squad? x.t.cell x.t.squad with
      | some q => ((List.range q.threads.length).zip q.threads).any (fun y =>
          !b.any (fun z => z.t.lane = y.1) && onItsWay s ⟨x.t.cell, x.t.squad, y.1⟩ y.2 (pcOf s x.t)
            && b.any (fun z => (q.threads[z.t.lane]?).any (together y.2)))
      | none => false)

/-- Whether the threads of an entry form squad-pure bundles: for a collective instruction (R334), and for a uniform step, which is one
squad's (R336) (DESIGN CHOICE, log entry 31). -/
def squadPure (s : State) (t : Tid) : Bool :=
  match formAt s t with
  | some f => f.uniform || f.collective (((s.cell? t.cell).map (·.strict)).getD false)
  | none => false

/-- The bundles of one entry's snapshot; the threads of an entry that run different programs form bundles of their own
(DESIGN CHOICE, log entry 31). -/
def entryBundles (s : State) (l : List Fresh) : List (List Fresh) :=
  (dedup (l.map (fun x => programOf s x.t))).flatMap (fun p =>
    let l := l.filter (fun x => programOf s x.t = p)
    match l with
    | [] => []
    | x :: _ =>
      if squadPure s x.t then
        ((dedup (l.map (fun x => (x.t.cell, x.t.squad)))).map (fun q => l.filter (fun x => (x.t.cell, x.t.squad) = q))).filter (fun b => !collectiveHeld s b)
      else bundlesOf l.length l)

/-- The vat's snapshot, every 4 clk, curdled into bundles; those of the last snapshot that have not issued are formed anew (R333). -/
def Core.curdle (k : Core) (s : State) (l : List Fresh) : Core :=
  if s.clk < k.snapAt then k
  else
    let inVat := k.vat.flatMap (fun e => entryBundles s (l.filter (fun x => e.threads.contains x.t)))
    { k with bundles := inVat.map (fun b => b.map (·.t)) ++ (k.spill.filter (fun t => !strictAt s t)).map (fun t => [t]), snapAt := s.clk + 4 }

/-! ## Selection (R336) -/

/-- What the selection compares: whether a thread of the bundle has been READY for more than 256 clk, the oldest thread's age, the lowest
slot, the lowest lane. -/
def bundleRank (now : Nat) (b : List Fresh) : Bool × Nat × Nat × Nat :=
  let least (f : Fresh → Nat) : Nat := (b.map f).foldl min ((b.map f).headD 0)
  (b.any (fun x => now - x.age > 256), least Fresh.age, least Fresh.slot, least (fun x => x.t.lane))

/-- Whether a bundle goes before another on the vector side. -/
def bundleBefore (now : Nat) (a b : List Fresh) : Bool :=
  let x := bundleRank now a
  let y := bundleRank now b
  if x.1 != y.1 then x.1
  else x.2.1 < y.2.1 || (x.2.1 = y.2.1 && (x.2.2.1 < y.2.2.1 || (x.2.2.1 = y.2.2.1 && x.2.2.2 < y.2.2.2)))

/-- Whether a bundle goes before another on the scalar unit: its squad's slot comes sooner after the one last served; a partition's slots are
below the 32 of the core's squads. -/
def scalarBefore (now last : Nat) (a b : List Fresh) : Bool :=
  let turn (l : List Fresh) : Nat := ((bundleRank now l).2.2.1 + 31 - last) % 32
  turn a < turn b || (turn a = turn b && bundleBefore now a b)

def insertBundle (before : List Fresh → List Fresh → Bool) (x : List Fresh) : List (List Fresh) → List (List Fresh)
  | [] => [x]
  | y :: r => if before x y then x :: y :: r else y :: insertBundle before x r

/-- Whether a bundle stands at a uniform instruction with a leader in it. -/
def leadsAt (s : State) (ts : List Tid) : Bool :=
  ts.any (fun t => (formAt s t).any Form.uniform && (match s.squad? t.cell t.squad, s.thread? t with
    | some q, some th => th.ustep = q.ustep
    | _, _ => false))

/-- Which side of which partition of which core a bundle issues to: true for the scalar unit (R336). -/
def sideOf (s : State) (ts : List Tid) : Option (Nat × Nat × Bool) :=
  ts.head?.map (fun t => (coreOf s t.cell, partitionOf s t, leadsAt s ts))

/-- A core's bundles in the order in which each side of each partition tries them; the first that issues is the one it issues (R336). -/
def Core.selection (k : Core) (s : State) (l : List Fresh) : List (List Tid) :=
  let bs := (k.bundles.map (fun b => b.filterMap (fun t => l.find? (fun x => x.t = t)))).filter (fun b => !b.isEmpty)
  (List.range 4).flatMap (fun p =>
    let mine := bs.filter (fun b => b.any (fun x => x.key.1 = p))
    let sides := mine.partition (fun b => leadsAt s (b.map (·.t)))
    let scalar := sides.1.foldl (fun l b => insertBundle (scalarBefore s.clk (k.scalar.getD p 7)) b l) []
    let vector := sides.2.foldl (fun l b => insertBundle (bundleBefore s.clk) b l) []
    (scalar ++ vector).map (fun b => b.map (·.t)))

/-- One core's vat: its entries filled, a snapshot taken when it is due, and its bundles given to be tried in order. -/
def curdleCore (s : State) (core : Nat) : State :=
  match s.core? core with
  | none => s
  | some k =>
    let l := freshOn s core
    let k := (k.refill s l).curdle s l
    { s.modCore core (fun _ => k) with issue := s.issue ++ (k.selection s l).map Issuer.bundle }

/-- CURDLE (R333, R336). -/
def execCurdle (core : Nat) (s : State) : Host.Outcome State Fault Refusal := .next (curdleCore s core)

/-- Whether a thread has issued, or been stopped, between two states: it is no longer where it stood READY or STALLED. -/
def movedOn (s s' : State) (t : Tid) : Bool :=
  match s.thread? t, s'.thread? t with
  | some a, some b => !((b.state = .ready || b.triesAgain) && a.readyAt = b.readyAt && a.pc = b.pc)
  | _, _ => true

/-- After a bundle has been tried: the threads that have issued leave the vat, their bundle is done, and that side of the partition issues
nothing more in this clock (R336). -/
def afterBundle (s s' : State) (ts : List Tid) : State :=
  let gone := ts.filter (movedOn s s')
  match gone, sideOf s ts with
  | [], _ => s'
  | _, none => s'
  | g :: _, some (core, p, scalar) =>
    let slot := ((s.squad? g.cell g.squad).map (·.slot)).getD 0
    let s' := s'.modCore core (fun k => { k with
      vat := (k.vat.map (fun e => { e with threads := e.threads.filter (fun t => !gone.contains t) })).filter (fun e => !e.threads.isEmpty),
      spill := k.spill.filter (fun t => !gone.contains t),
      bundles := k.bundles.filter (fun b => !b.any (fun t => gone.contains t)),
      scalar := if scalar then k.scalar.set p slot else k.scalar })
    { s' with issue := s'.issue.filter (fun i => match i with
      | .bundle us => sideOf s us ≠ some (core, p, scalar)
      | _ => true) }

/-! ## Trap delivery (R349) -/

/-- Whether a stopping squad can enter its handler: every outstanding result has retired, no walk goes on and no answer of a peer is
awaited (R73). -/
def canDeliver (s : State) (cell sq : Nat) : Bool :=
  match s.cell? cell, s.squad? cell sq with
  | some c, some q =>
    c.resident && ctxLive s c.ctx && q.state = .active && q.trap = .stopping &&
      q.threads.all (fun th => th.state = .exited || (th.board.all (fun o => !o.pending) && (match th.wait with
        | some (.remote _) => false
        | some .walk => false
        | some .ask => false
        | _ => true)))
  | _, _ => false

/-- TRAP_DELIVERY (R349); a squad whose threads wait at TRET for their results leaves its handler (R73, R362). -/
def execTrapDelivery (cell squad : Nat) (s : State) : Host.Outcome State Fault Refusal :=
  .next (if canDeliver s cell squad then deliver s cell squad else tryLeave s cell squad)

end Sys2Proof.Machine
end

