-- ==== Sys2Proof/Machine/Placement.lean ====
section
/-! DEFINITION. Placement of gangs on cores (R9–R13, R20, R21, R318, R323–R329), the start and the exit of cells (R87, R346),
pre-emption and saving (R340–R343), and barrier victims (R344, R345). -/
namespace Sys2Proof.Machine
open Sys2Proof

/-! ## Room on cores (R10–R13) -/

/-- Cores of a scope unit: core, cluster, sector, die, package (R8, R21). -/
def scopeSize (scope : Nat) : Nat := [1, 6, 24, 72, 144].getD scope 144
def unitCores (scope u : Nat) : List Nat := (List.range (scopeSize scope)).map (u * scopeSize scope + ·)
def unitCount (scope : Nat) : Nat := 144 / scopeSize scope

def enabled (s : State) (core : Nat) : Bool := s.coremask.getLsbD core
/-- Whether a unit lies within a cluster mask (R279, R316). -/
def unitWithin (pset : BitVec 24) (scope u : Nat) : Bool := (unitCores scope u).all (fun c => pset.getLsbD (c / 6))

/-- The cells that hold resources of a core: resident ones and those saved where they stand (R479). -/
def coreCells (s : State) (core : Nat) : List Cell :=
  s.cells.filter (fun c => c.core = core && (c.place = .core || c.place = .inPlace) && c.state ≠ .exited)

/-- What a set of cells takes of R10 and R12: squads, spectral registers, barrier slots, scratch bytes, tiles, banks, contexts. -/
structure Use where
  squads : Nat
  wregs : Nat
  slots : Nat
  scratch : Nat
  acc : Nat
  rind : Nat
  xp : Nat

/-- Squads that hold a slot and registers. -/
def Cell.housed (c : Cell) : Nat := (c.squads.filter (fun q => q.state ≠ .retired && q.state ≠ .evicted)).length
/-- Of these, the squads of its own: a handler squad has no spectral registers. -/
def Cell.spectral (c : Cell) : Nat := (c.squads.filter (fun q => q.handler.isNone && q.state ≠ .retired && q.state ≠ .evicted)).length

def useOf (cs : List Cell) : Use :=
  ⟨(cs.map Cell.housed).sum, (cs.map (fun c => c.spectral * 32 * c.shape.wregs)).sum, (cs.map (fun c => 2 * c.shape.squads)).sum, (cs.map (fun c => c.shape.scratch)).sum,
    (cs.map (fun c => c.shape.acc)).sum, (cs.map (fun c => if c.shape.rind then 1 else 0)).sum, (cs.map (fun c => c.shape.xp)).sum⟩

/-- How many of a thing fit in what is left of a limit. -/
def fitsIn (limit used each : Nat) : Nat := if used > limit then 0 else if each = 0 then 144 else (limit - used) / each

/-- How many cells of a shape fit beside a use. -/
def Use.room (u : Use) (h : Shape) : Nat :=
  min (fitsIn 32 u.squads h.squads) (min (fitsIn 32768 u.wregs (h.squads * 32 * h.wregs)) (min (fitsIn 64 u.slots (2 * h.squads))
    (min (fitsIn 524288 u.scratch h.scratch) (min (fitsIn 8 u.acc h.acc) (min (fitsIn 2 u.rind (if h.rind then 1 else 0)) (fitsIn 3 u.xp h.xp))))))

def Use.none : Use := ⟨0, 0, 0, 0, 0, 0, 0⟩

/-- The scope of a kernel's gangs: a cell that is not in a multi-cell gang is a gang of one cell at core scope (R329); a fused one has its
cluster (R13). -/
def LaunchDesc.unitScope (d : LaunchDesc) : Nat := if d.gcells ≤ 1 && !d.fused then 0 else d.scope

/-- The clusters that a kernel's cells may go to: PPART of its queue and the PSET that its context has now (R279, R316, R324). -/
def Kernel.clusters (s : State) (k : Kernel) : BitVec 24 := k.pset &&& ((s.ctx? k.ctx).map (·.pset)).getD 0

/-- Whether a swap moves a core's resident set (R283). -/
def swapping (s : State) (core : Nat) : Bool := s.swaps.any (fun p => (s.partitions.getD p 0).getLsbD (core / 6))

/-- A squad whose phase is over waits for its recall, which goes before every placement on its core (R345). -/
def Squad.recalled (q : Squad) : Bool := q.state = .evicted && q.threads.any (fun th => th.state = .saved && th.savedState ≠ .waiting)
def recallDue (s : State) (core : Nat) : Bool := (coreCells s core).any (fun c => c.place = .core && c.squads.any Squad.recalled && ctxLive s c.ctx)

/-- Whether a core is held for the reservation of a gang other than one still to be placed (R325). -/
def heldForOther (s : State) (kernel : Nat) (gang : Option Nat) (core : Nat) : Bool :=
  s.kernels.any (fun k => k.reserved.any (fun x => !(k.id = kernel && some x.1 = gang) && (unitCores k.desc.unitScope x.2).contains core))

/-- Cells of gangs other than one in a core's cluster, and whether one of them is fused (R327). -/
def clusterOthers (s : State) (core : Nat) : List Cell := (unitCores 1 (core / 6)).flatMap (coreCells s)
def fusedThere (s : State) (core : Nat) : Bool :=
  (clusterOthers s core).any (fun c => ((s.gang? c.gang).map (·.fused)).getD false)

/-- Contexts on a core, of which it holds cells of 8 (R280). -/
def ctxRoom (cs : List Cell) (ctx : Nat) : Bool :=
  let ids := dedup (cs.map (·.ctx))
  ids.contains ctx || decide (ids.length < 8)

/-- How many cells of a kernel's shape, for a gang still to be placed or for none, a core has room for, some cells on it set aside. -/
def coreRoom (s : State) (k : Kernel) (gang : Option Nat) (without : Cell → Bool) (core : Nat) : Nat :=
  let cs := (coreCells s core).filter (fun c => !without c)
  if !enabled s core || heldForOther s k.id gang core || !ctxRoom cs k.ctx || fusedThere s core || swapping s core || recallDue s core then 0
  else if k.desc.fused && !(clusterOthers s core).isEmpty then 0
  else (useOf cs).room k.desc.shape

/-- The cores that n cells of a gang go to in a unit: the lowest with room, a fused gang's one to a core (R324, R327). -/
def coresFor (s : State) (k : Kernel) (gang : Option Nat) (n : Nat) (without : Cell → Bool) (u : Nat) : Option (List Nat) :=
  if !unitWithin (k.clusters s) k.desc.unitScope u then none
  else
    let each (c : Nat) : Nat := if k.desc.fused then min (coreRoom s k gang without c) 1 else coreRoom s k gang without c
    let l := ((unitCores k.desc.unitScope u).flatMap (fun c => List.replicate (each c) c)).take n
    if l.length = n then some l else none

/-- The cores for a whole gang. -/
def gangCores (s : State) (k : Kernel) (gang : Nat) (without : Cell → Bool) (u : Nat) : Option (List Nat) := coresFor s k (some gang) k.desc.gcells without u

/-! ## Readiness (R323) -/

/-- Coordinates of a linear index. -/
def coords (d : LaunchDesc) (i : Nat) : Nat × Nat × Nat := (i % d.gx, i / d.gx % d.gy, i / (d.gx * d.gy))

/-- The producer coordinates that a consumer coordinate requires, clamped. -/
def windowOf (x m sh : Nat) (o0 o1 : Int) (n : Nat) : List Nat :=
  let c : Int := ((x * m / 2 ^ sh : Nat) : Int)
  (List.range n).filter (fun (p : Nat) => c + o0 ≤ (p : Int) && (p : Int) ≤ c + o1)

/-- The producer cells that a consumer cell requires. -/
def required (d p : LaunchDesc) (i : Nat) : List Nat :=
  let (x, y, _) := coords d i
  (windowOf x d.mx d.sx d.ox0 d.ox1 p.gx).flatMap (fun px => (windowOf y d.my d.sy d.oy0 d.oy1 p.gy).flatMap (fun py =>
    (List.range p.gz).map (fun pz => px + p.gx * (py + p.gy * pz))))

/-- What a test of a completion bitmap's bits needs: the rights of R319, which has it writable and open to atomics, not readable. -/
def needBits : Need := ⟨fun e => e.wr && e.at', true, false, false⟩

/-- The byte of a producer's completion bitmap that holds a bit, as its home gives it to a consumer (R322). -/
def bitmapByte (s : State) (k p : Kernel) (i : Nat) : Ready :=
  readyFor s (.kernel k.id) none (checkBuffer s p.ctx needBits (refIndex p.desc.bmapRef) ((refOff p.desc.bmapRef + i / 8 : Nat) : Int) 1 1)

/-- The bits that a kernel's unplaced cells require and that it has not seen set. -/
def Kernel.wanted (k p : Kernel) : List Nat :=
  let cells := k.unplaced.flatMap (fun g => (List.range k.desc.gcells).map (g * k.desc.gcells + ·))
  (dedup (cells.flatMap (required k.desc p.desc))).filter (fun i => !k.seen.contains i)

/-- A consumer tests the bits that it requires (R323): one seen set stays set; a page in motion delays the test, and a peer is asked. -/
def testBits (s : State) (k : Kernel) : State :=
  match k.producer.bind s.kernel? with
  | none => s
  | some p =>
    let one (s : State) (i : Nat) : State :=
      match bitmapByte s k p i with
      | .ok a =>
        let x := homeRead s none a
        if tb (byteField x.1 0 1) (i % 8) then x.2.modKernel k.id (fun k => { k with seen := k.seen ++ [i] }) else x.2
      | r => beginWait s (.kernel k.id) r
    let s := (k.wanted p).foldl one s
    if asking s (.kernel k.id) then s else dropAsks s (.kernel k.id)

def Kernel.cellReady (s : State) (k : Kernel) (i : Nat) : Bool :=
  match k.producer.bind s.kernel? with
  | none => true
  | some p => (required k.desc p.desc i).all k.seen.contains

def Kernel.gangReady (s : State) (k : Kernel) (g : Nat) : Bool :=
  (List.range k.desc.gcells).all (fun j => k.cellReady s (g * k.desc.gcells + j))

/-- Whether a kernel may place: PENDING or RUNNING, in a context that runs and is not being moved (R281, R282). -/
def Kernel.places (s : State) (k : Kernel) : Bool :=
  (k.state = .pending || k.state = .running) && !k.doomed && !k.unplaced.isEmpty && (match s.ctx? k.ctx with
    | some c => (c.state = .bound || c.state = .running) && !c.busy
    | none => false)

/-- Resident cells of a queue's kernels (R316). -/
def queueCells (s : State) (qid ctx : Nat) : Nat :=
  (s.cells.filter (fun c => c.ctx = ctx && (c.place = .core || c.place = .inPlace) && c.state ≠ .exited
    && ((s.kernel? c.kernel).map (·.qid)) = some qid)).length

def underMax (s : State) (k : Kernel) : Bool := k.maxCells = 0 || decide (queueCells s k.qid k.ctx + k.desc.gcells ≤ k.maxCells)

/-- The ready gang of lowest index not yet placed. -/
def nextGang (s : State) (k : Kernel) : Option Nat := k.unplaced.find? (k.gangReady s)

/-- The gangs that a kernel may place, as far as room can differ among them: its next one, then the ready ones that hold a reservation, by
index (R324, R325). -/
def Kernel.candidates (s : State) (k : Kernel) : List Nat :=
  k.unplaced.filter (fun g => nextGang s k = some g || (k.reserved.any (fun x => x.1 = g) && k.gangReady s g))

/-! ## Starting cells (R87, R318, R324, R329) -/

/-- Resident squads of a core by partition. -/
def partitionLoad (s : State) (core p : Nat) : Nat :=
  ((coreCells s core).map (fun c => (c.squads.filter (fun q => q.partition = p && q.state ≠ .retired && q.state ≠ .evicted)).length)).sum

/-- p0 of R20: the partition with fewest resident squads, lowest on ties. -/
def leastPartition (s : State) (core : Nat) : Nat :=
  (List.range 4).foldl (fun b p => if partitionLoad s core p < partitionLoad s core b then p else b) 0

/-- Squad slots in use on a partition of a core (DEDUCED, log entry 79). -/
def slotsUsed (s : State) (core p : Nat) : List Nat :=
  (coreCells s core).flatMap (fun c => (c.squads.filter (fun q => q.partition = p && q.state ≠ .retired && q.state ≠ .evicted)).map (·.slot))

/-- The n-th lowest squad slot that is free. -/
def freeSlot (used : List Nat) (n : Nat) : Nat := (((List.range (used.length + n + 1)).filter (fun i => !used.contains i)).getD n 0)

/-- k0 to k59 at cell start (R87). -/
def startK (k : Kernel) (i gindex squad core : Nat) : List Dword :=
  let (x, y, z) := coords k.desc i
  (List.range 16).map (fun j => k.args.getD j 0)
    ++ [dword i, dword x, dword y, dword z, dword squad, dword (i / k.desc.gcells), dword gindex, dword core, dword k.ctx]
    ++ List.replicate 35 0

/-- XP1 as XPAUTO starts it (R324, R308). -/
def autoXp (d : LaunchDesc) (i : Nat) : XpCtx :=
  { XpCtx.start with state := .running, xpc := d.xpstart, x := (XpCtx.start.x.set 1 d.argRef).set 2 (dword i) }

/-- The cell of an index on a core, with every thread at ENTRY. -/
def startCell (s : State) (k : Kernel) (id gang i core : Nat) : Cell :=
  let d := k.desc
  let h := d.shape
  let p0 := leastPartition s core
  let gindex := i % d.gcells
  let squad (q : Nat) : Squad :=
    let p := (p0 + q) % 4
    Squad.start p (freeSlot (slotsUsed s core p) (q / 4)) h.vregs (startK k i gindex q core)
      ((List.range 32).map (fun l => Thread.start l h.vregs h.wregs d.entry s.clk))
  { id := id, ctx := k.ctx, kernel := k.id, gang := gang, index := i, x := (coords d i).1, y := (coords d i).2.1, z := (coords d i).2.2,
    gindex := gindex, core := core, place := .core, state := .running, shape := h, strict := k.strict, code := d.codeRef,
    squads := (List.range h.squads).map squad, scratch := [], slots := List.replicate (2 * h.squads) Slot.start,
    tiles := List.replicate h.acc Tile.zero, bank := [], tileIssue := List.replicate h.acc false, panelIssue := [],
    xps := (List.range h.xp).map (fun n => if n = 0 && d.xpauto then autoXp d i else XpCtx.start), xp0code := 0, runs := [], tcopy := [],
    phase := 0, orphans := 0, deadline := k.deadline, preq := false, preqAt := 0, view := [], marks := [] }

/-- Scratch carve-out in whole 64 KiB for what the cells of a core hold; it shrinks only when the core holds no cell (R11). -/
def carveFor (s : State) (core : Nat) : State :=
  let cs := coreCells s core
  let need := ((cs.map (fun c => c.shape.scratch)).sum + 65535) / 65536 * 65536
  s.modCore core (fun k => { k with carve := if cs.isEmpty then 0 else max k.carve need })

/-- The L1s of a cluster are emptied before a fused gang starts there, and when it has ended (R327). -/
def emptyCluster (s : State) (core : Nat) : State := dropLines s (clusterL1s core) (fun _ => true)

/-- A gang starts whole: its cells on their cores, each start an acquire there (R329, R437). -/
def startGang (s : State) (k : Kernel) (g u : Nat) (cores : List Nat) : State :=
  let gid := s.nextGang
  let base := s.nextCell
  let n := k.desc.gcells
  let gang : Gang := ⟨gid, k.id, g, k.desc.unitScope, u, (List.range n).map (base + ·), n, 0, k.desc.fused, false⟩
  let s := if k.desc.fused then emptyCluster s (cores.headD 0) else s
  let s := { s with nextGang := gid + 1, nextCell := base + n, gangs := s.gangs ++ [gang] }
  let place (s : State) (j : Nat) : State :=
    let core := cores.getD j 0
    let s := acquireAt { s with cells := s.cells ++ [startCell s k (base + j) gid (g * n + j) core] } core 5
    carveFor s core
  let s := (List.range n).foldl place s
  let s := s.modCtx k.ctx (fun c => if c.state = .bound then { c with state := .running } else c)
  let s := s.modKernel k.id (fun k => { k with state := .running, unplaced := k.unplaced.filter (· ≠ g), reserved := k.reserved.filter (fun x => x.1 ≠ g), headGang := none })
  if k.state = .pending then tellKernel s k.id else s

/-! ## Work stealing (R326) -/

/-- The cores over which a grid is divided. -/
def stealCores (s : State) (k : Kernel) : List Nat := (List.range 144).filter (fun c => enabled s c && (k.clusters s).getLsbD (c / 6))

/-- The ranges of cells that the cores own at first. -/
def stealInit (s : State) (k : Kernel) : List (Nat × List Nat) :=
  let cs := stealCores s k
  let n := k.count
  ((List.range cs.length).zip cs).map (fun x =>
    (x.2, (List.range ((x.1 + 1) * n / cs.length - x.1 * n / cs.length)).map (x.1 * n / cs.length + ·)))

/-- The cell that a core with room starts next: its own lowest, or the highest of the core that publishes most. -/
def stealPick (l : List (Nat × List Nat)) (core : Nat) : Option Nat :=
  match ((l.find? (fun x => x.1 = core)).map (·.2)).getD [] with
  | i :: _ => some i
  | [] =>
    (l.foldl (fun (b : List Nat) x => if x.2.length > b.length then x.2 else b) []).getLast?

/-! ## The decision (R324) -/

/-- The units that a kernel's gangs may go to, lowest first. -/
def unitsFor (k : Kernel) : List Nat := List.range (unitCount k.desc.unitScope)

/-- The state after a kernel has placed its next ready gang, when one has room (DESIGN CHOICE, log entry 29). -/
def placeKernel (s : State) (k : Kernel) : Option State :=
  if !k.places s || !underMax s k then none
  else if k.desc.steal then
    let l := if k.steal.isEmpty then stealInit s k else k.steal
    (stealCores s k).findSome? (fun core => (stealPick l core).bind (fun i =>
      if coreRoom s k (some i) (fun _ => false) core = 0 then none
      else
        let s := s.modKernel k.id (fun k => { k with steal := l.map (fun x => (x.1, x.2.filter (· ≠ i))) })
        some (startGang s k i (core / scopeSize k.desc.unitScope) [core])))
  else
    (k.candidates s).findSome? (fun g => (unitsFor k).findSome? (fun u => (gangCores s k g (fun _ => false) u).map (startGang s k g u)))

/-- Kernels in the order in which they are offered a place: priority, then the earlier check (R324). -/
def kernelBefore (a b : Kernel) : Bool := b.prio < a.prio || (a.prio = b.prio && (a.id < b.id || (a.id = b.id && a.lp < b.lp)))
def insertKernel (k : Kernel) : List Kernel → List Kernel
  | [] => [k]
  | x :: r => if kernelBefore k x then k :: x :: r else x :: insertKernel k r
def kernelOrder (s : State) : List Kernel := s.kernels.foldl (fun l k => insertKernel k l) []

/-! ## Victims and pre-emption for room (R340, R344) -/

def isBarrierWait (th : Thread) : Bool := match th.wait with
  | some (.slot _ _ _ _ test _) => !test
  | some (.phase _) => true
  | _ => false

/-- A victim squad: every live thread waits in BARWAIT or PHASE, with every long-latency instruction retired (R73) and no trap to be delivered
first (R349). -/
def Squad.victim (q : Squad) : Bool :=
  q.state = .active && q.trap ≠ .stopping && q.threads.any (fun th => th.state ≠ .exited)
    && q.threads.all (fun th => th.state = .exited || (th.state = .waiting && isBarrierWait th && !th.board.any Outstanding.pending))

/-- When a squad's wait began, and its slot, for the choice among victims. -/
def Squad.waitBegan (q : Squad) : Nat :=
  ((q.threads.filter (fun th => th.state ≠ .exited)).map (·.waitAt)).foldl min (2 ^ 64)

/-- Whether a core's cave holds another resident set (R280, R344). -/
def caveTaken (s : State) (core : Nat) : Bool := s.cells.any (fun c => c.core = core && c.place = .caved && c.state ≠ .exited)

/-- The priority of a cell's kernel. -/
def cellPrio (s : State) (c : Cell) : Nat := ((s.kernel? c.kernel).map (·.prio)).getD 0

/-- Bytes of a cell's image in the park area, without the squads that hold space of their own there, and of an evicted squad's (R285, R344),
in whole 4 KiB. -/
def imageBytes (c : Cell) : Nat :=
  let threads := ((c.squads.filter (fun q => !q.parked)).map (fun q => q.threads.length)).sum
  (threads * (c.shape.vregs * 4 + c.shape.wregs * 32) + c.shape.scratch + c.shape.acc * 14336
    + (if c.shape.rind then 3 * 2 ^ 20 + 768 * 2 ^ 10 else 0) + 4096 + 4095) / 4096 * 4096
def squadBytes (c : Cell) (q : Squad) : Nat := (q.threads.length * (c.shape.vregs * 4 + c.shape.wregs * 32) + 4096 + 4095) / 4096 * 4096

/-- Space of a context's park area in use: evicted squads, also of cells saved since, and parked cells. -/
def parkUsed (s : State) (ctx : Nat) : Nat :=
  ((s.cells.filter (fun c => c.ctx = ctx && c.state ≠ .exited)).map (fun c =>
    (if c.place = .parked then imageBytes c else 0)
      + ((c.squads.filter (fun q => (q.state = .evicted || q.state = .saved) && q.parked)).map (squadBytes c)).sum)).sum
/-- Bytes of a context's park area that images may fill (R285) (DESIGN CHOICE, log entry 74). -/
def parkSpace (s : State) (ctx : Nat) : Nat := ((s.ctx? ctx).map (fun c => c.parksize * 4096)).getD 0

/-- Whether a squad may be evicted: to the cave, or to a park area with space. -/
def evictable (s : State) (c : Cell) (q : Squad) : Bool :=
  q.victim && (!caveTaken s c.core || decide (parkUsed s c.ctx + squadBytes c q ≤ parkSpace s c.ctx))

/-- The victims of lower priority on some cores, by cell and squad, in contexts that run (R286). -/
def victimsOn (s : State) (prio : Nat) (cores : List Nat) : List (Nat × Nat × Squad) :=
  (s.cells.filter (fun c => cores.contains c.core && c.place = .core && c.state = .running && decide (cellPrio s c < prio) && ctxLive s c.ctx)).flatMap (fun c =>
    ((List.range c.squads.length).zip c.squads).filterMap (fun x => if evictable s c x.2 then some (c.id, x.1, x.2) else none))

/-- A thread as its squad or cell is saved (R331, R341): a YIELDED one goes on after its YIELD. -/
def Thread.save (th : Thread) : Thread :=
  if th.state = .exited || th.state = .saved then th
  else
    let th := th.closeWindows
    { th with state := .saved, savedState := if th.state = .yielded then .ready else th.state }

def Thread.restore (th : Thread) (now : Nat) : Thread :=
  if th.state = .saved then { th with state := th.savedState, readyAt := now } else th

/-- Evicts a squad (R344). -/
def evictSquad (s : State) (cell sq : Nat) : State :=
  match s.cell? cell with
  | some c => s.modSquad cell sq (fun q => { q with state := .evicted, parked := caveTaken s c.core, threads := q.threads.map Thread.save })
  | none => s

/-- The victim whose wait began earliest, ties to the lower squad slot. -/
def firstVictim (l : List (Nat × Nat × Squad)) : Option (Nat × Nat) :=
  let better (a b : Nat × Nat × Squad) : Bool :=
    a.2.2.waitBegan < b.2.2.waitBegan || (a.2.2.waitBegan = b.2.2.waitBegan && a.2.2.slot < b.2.2.slot)
  (l.foldl (fun (b : Option (Nat × Nat × Squad)) x => match b with
    | none => some x
    | some y => some (if better x y then x else y)) none).map (fun x => (x.1, x.2.1))

/-- csr.preq rises on every cell of a gang (R340). -/
def raisePreq (s : State) (gang : Nat) : State :=
  { s with cells := s.cells.map (fun (c : Cell) =>
      if c.gang = gang && c.place = .core && c.state = .running then { c with preq := true, preqAt := s.clk, state := .draining } else c) }

/-- Whether a gang's cells could be kept if it were pre-empted to make room: in caves that are empty, or in the park area; a context without
a park area is pre-empted all the same (R285) (DESIGN CHOICE, log entry 112). -/
def gangKeeps (s : State) (g : Gang) : Bool :=
  let cs := s.cells.filter (fun c => c.gang = g.id && c.state ≠ .exited)
  cs.all (fun c => !caveTaken s c.core)
    || (match cs with
        | c :: _ => parkSpace s c.ctx = 0 || decide (parkUsed s c.ctx + (cs.map imageBytes).sum ≤ parkSpace s c.ctx)
        | [] => false)

/-- The resident gangs of lower priority with a cell on some cores, that may be pre-empted. -/
def lowerGangs (s : State) (prio : Nat) (cores : List Nat) : List Gang :=
  s.gangs.filter (fun g =>
    let cs := s.cells.filter (fun c => c.gang = g.id && c.state ≠ .exited)
    cs.any (fun c => cores.contains c.core && c.place = .core) && cs.all (fun c => c.place = .core && c.state = .running && ctxLive s c.ctx)
      && decide (((s.kernel? g.kernel).map (·.prio)).getD 0 < prio) && gangKeeps s g)

/-- The latest-placed gang of the lowest priority (R345). -/
def pickGang (s : State) (l : List Gang) : Option Gang :=
  let prio (g : Gang) : Nat := ((s.kernel? g.kernel).map (·.prio)).getD 0
  l.foldl (fun (b : Option Gang) g => match b with
    | none => some g
    | some h => some (if prio g < prio h || (prio g = prio h && g.id > h.id) then g else h)) none

/-- Whether a core lacks lane slots or register storage for a shape more than anything else that its cells hold, some of them set aside. -/
def lacksLanes (s : State) (h : Shape) (without : Cell → Bool) (core : Nat) : Bool :=
  let u := useOf (coreCells s core)
  let w := useOf ((coreCells s core).filter (fun c => !without c))
  decide (min (fitsIn 32 u.squads h.squads) (fitsIn 32768 u.wregs (h.squads * 32 * h.wregs)) < { w with squads := 0, wregs := 0 }.room h)

/-- Makes room for a gang of a kernel, or a cell of a STEAL one, on some cores where lower-priority work stands in its way: a victim is evicted,
while there is one where lane slots or registers lack, then one whole gang is asked to yield (R344) (DESIGN CHOICE, log entry 30). -/
def roomOn (s : State) (k : Kernel) (cores : List Nat) (fits : State → (Cell → Bool) → Bool) : Option State :=
  let gs := lowerGangs s k.prio cores
  let without (c : Cell) : Bool := gs.any (fun g => g.id = c.gang)
  let victims := victimsOn s k.prio (cores.filter (lacksLanes s k.desc.shape without))
  let thin (c : Cell) : Cell := { c with squads := ((List.range c.squads.length).zip c.squads).map (fun x =>
    if victims.any (fun v => v.1 = c.id && v.2.1 = x.1) then { x.2 with state := .evicted } else x.2) }
  if !fits { s with cells := s.cells.map thin } without then none
  else
    match firstVictim victims with
    | some v => some (evictSquad s v.1 v.2)
    | none => if cores.any (fun c => (coreCells s c).any (fun x => x.preq)) then none else (pickGang s gs).map (fun g => raisePreq s g.id)

/-- Room for a kernel's next gang, on the first unit where it can be made (DESIGN CHOICE, log entry 30). -/
def makeRoom (s : State) (k : Kernel) : Option State :=
  if !k.places s || !underMax s k then none
  else if k.desc.steal then
    let l := if k.steal.isEmpty then stealInit s k else k.steal
    (stealCores s k).findSome? (fun core => (stealPick l core).bind (fun i =>
      roomOn s k [core] (fun s without => coreRoom s k (some i) without core ≠ 0)))
  else
    (nextGang s k).bind (fun g => (unitsFor k).findSome? (fun u =>
      roomOn s k (unitCores k.desc.unitScope u) (fun s without => (gangCores s k g without u).isSome)))

/-! ## Restoring saved gangs (R343) -/

/-- A context's state after its cells have moved (R281, R282). -/
def settleCtx (s : State) (ctx : Nat) : State :=
  let cs := s.cells.filter (fun c => c.ctx = ctx && c.state ≠ .exited)
  s.modCtx ctx (fun c =>
    if c.state = .bound || c.state = .running || c.state = .caved || c.state = .parked then
      { c with state :=
          if cs.isEmpty then .bound
          else if cs.any (fun x => x.place = .core) then .running
          else if cs.any (fun x => x.place = .parked) then .parked else .caved }
    else c)

/-- The live cells of a gang. -/
def gangLive (s : State) (gang : Nat) : List Cell := s.cells.filter (fun c => c.gang = gang && c.state ≠ .exited)

/-- A saved cell goes on, on a core (R343): its squads on the partitions of R20 there, its threads in the states saved; those evicted before are
`whole` again with the others, or evicted as before, to be recalled when their phase is over (DESIGN CHOICE, log entry 135). What it held on a core
before counts no more (DESIGN CHOICE, log entry 135). -/
def restartCell (s : State) (whole : Bool) (cell core : Nat) : State :=
  match s.cell? cell with
  | none => s
  | some c =>
    let others := { s with cells := s.cells.filter (fun x => x.id ≠ cell) }
    let p0 := leastPartition others core
    let runs (q : Squad) : Bool := q.state = .saved && (whole || !q.wasEvicted)
    let squad (i : Nat) (q : Squad) : Squad :=
      if runs q then
        let p := (p0 + i) % 4
        let before := ((List.range i).filter (fun j => j % 4 = i % 4 && (c.squads[j]?).any runs)).length
        { q with state := .active, partition := p, slot := freeSlot (slotsUsed others core p) before, parked := false, wasEvicted := false,
                 threads := q.threads.map (fun th => th.restore s.clk) }
      else if q.state = .saved then { q with state := .evicted, wasEvicted := false, parked := q.parked || caveTaken s core }
      else q
    let s := s.modCell cell (fun c =>
      { c with core := core, place := .core, state := .running, preq := false, tcopy := [],
               squads := ((List.range c.squads.length).zip c.squads).map (fun x => squad x.1 x.2) })
    let s := s.modCore core (fun k => { k with tcopy := k.tcopy ++ c.tcopy })
    carveFor (acquireAt s core 5) core

/-- The cells of a gang restart together, each on its core: until each restarts it holds nothing. -/
def restartAll (s : State) (whole : Bool) (gang : Nat) (l : List (Nat × Nat)) : State :=
  let s := { s with cells := s.cells.map (fun (c : Cell) => if l.any (fun x => x.1 = c.id) then { c with place := .caved } else c) }
  (l.foldl (fun s x => restartCell s whole x.1 x.2) s).modGang gang (fun g => { g with gaveRoom := false })

/-- Armed monitors among some cells' threads (R10, R240). -/
def armed (cs : List Cell) : Nat :=
  (cs.map (fun c => (c.squads.map (fun q => (q.threads.filter (fun th => th.mon.isSome)).length)).sum)).sum

/-- Places a saved gang whole in the first unit with room for its live cells, their armed monitors among it (R10, R285, R343); a cell that has
exited goes with its gang to the same place in the new unit, so that it keeps its number among the gang's cells there (R261)
(DESIGN CHOICE, log entry 136). -/
def restoreGang (s : State) (gang : Nat) : Option State :=
  let cs := gangLive s gang
  match s.gang? gang with
  | none => some s
  | some g =>
    match s.kernel? g.kernel with
    | none => some s
    | some k =>
      (unitsFor k).findSome? (fun u => (coresFor s k none cs.length (fun _ => false) u).bind (fun cores =>
        if cores.any (fun core => decide (armed (coreCells s core) + armed (((cs.zip cores).filter (fun x => x.2 = core)).map (·.1)) > 64)) then none
        else
          let s := if g.fused then emptyCluster s (cores.headD 0) else s
          let size := scopeSize g.scope
          let s := { s with cells := s.cells.map (fun (c : Cell) => if c.gang = gang && c.state = .exited then { c with core := u * size + c.core % size } else c) }
          some ((restartAll s true gang ((cs.map (·.id)).zip cores)).modGang gang (fun g => { g with unit := u }))))

/-- A gang of a kernel that was saved to make room goes on as soon as it has room again, before the kernel's other gangs (R343)
(DESIGN CHOICE, log entry 112). -/
def returnGang (s : State) (k : Kernel) : Option State :=
  if !ctxLive s k.ctx || ((s.ctx? k.ctx).map (·.busy)).getD false then none
  else
    ((s.gangs.filter (fun g => g.kernel = k.id && g.gaveRoom)).filter (fun g => (gangLive s g.id).all (fun c => c.state = .saved))).findSome?
      (fun g => (restoreGang s g.id).map (fun s => settleCtx s k.ctx))

/-- Whether the launch processors decide on the places of two kernels together: on those of one device partition (R324). -/
def samePart (s : State) (a b : Kernel) : Bool := s.partitions.any (fun p => p &&& a.clusters s ≠ 0 && p &&& b.clusters s ≠ 0)

/-- Whether a kernel heads its priority level with the gang that it would place next (R325). -/
def headsLevel (s : State) (k : Kernel) : Bool :=
  k.places s && (nextGang s k).isSome
    && !(s.kernels.any (fun x => x.prio = k.prio && decide (x.id < k.id) && samePart s k x && x.places s && (nextGang s x).isSome))

def noteHeads (s : State) : State :=
  { s with kernels := s.kernels.map (fun (k : Kernel) =>
      let g := if headsLevel s k then nextGang s k else none
      if g = k.headGang then k else { k with headGang := g, headSince := s.clk }) }

/-- PLACEMENT (R324, R344): one decision. -/
def placeOnce (s : State) : Option State :=
  let ks := kernelOrder s
  match ks.findSome? (fun k => (returnGang s k).orElse (fun _ => placeKernel s k)) with
  | some s' => some s'
  | none => ks.findSome? (makeRoom s)

/-- PLACEMENT (R323–R325): the bits are tested, then one decision is made. -/
def execPlacement (s : State) : Host.Outcome State Fault Refusal :=
  let s := noteHeads ((kernelOrder s).foldl (fun s k => if k.places s then testBits s k else s) s)
  .next ((placeOnce s).getD s)

/-! ## Reservation (R325) -/

/-- Free cores of a unit that a kernel may use. -/
def freeCores (s : State) (k : Kernel) (u : Nat) : Nat :=
  ((unitCores k.desc.unitScope u).filter (fun c => enabled s c && (k.clusters s).getLsbD (c / 6) && (coreCells s c).isEmpty)).length

/-- Whether a unit's enabled cores can hold a kernel's gang at all (R21, R325). -/
def unitHolds (s : State) (k : Kernel) (u : Nat) : Bool :=
  let each := if k.desc.fused then 1 else Use.none.room k.desc.shape
  unitWithin (k.clusters s) k.desc.unitScope u
    && decide (k.desc.gcells ≤ (((unitCores k.desc.unitScope u).filter (enabled s)).map (fun _ => each)).sum)

/-- RESERVATION (R325): the unit with most free cores among those without a reservation, for the gang with which the kernel has headed its level. -/
def execReservation (kernel : Nat) (s : State) : Host.Outcome State Fault Refusal :=
  .next (match s.kernel? kernel with
    | none => s
    | some k =>
      let taken (u : Nat) : Bool := (unitCores k.desc.unitScope u).any (heldForOther s k.id k.headGang)
      let us := (unitsFor k).filter (fun u => unitHolds s k u && !taken u)
      if k.reserved.any (fun x => some x.1 = k.headGang) || !headsLevel s k || nextGang s k ≠ k.headGang || s.clk - k.headSince ≤ s.reserve then s
      else
        match k.headGang, us.foldl (fun (b : Option Nat) u => match b with
          | none => some u
          | some v => some (if freeCores s k u > freeCores s k v then u else v)) none with
        | some g, some u => s.modKernel kernel (fun k => { k with reserved := k.reserved ++ [(g, u)] })
        | _, _ => s)

/-! ## Saving and restoring (R340–R343, R366) -/

/-- A thread at a safe point (R340). -/
def Thread.safe (th : Thread) : Bool :=
  th.state = .exited || th.state = .yielded || th.state = .stopped || th.state = .saved || (th.state = .waiting && isBarrierWait th)
def cellSafe (c : Cell) : Bool := c.squads.all (fun q => q.threads.all Thread.safe)

/-- Whether what a save waits for is over (R27, R73, R210, R276): array operations, immediate accesses and atomics in flight, transfers, requests to
peers, and the TCOPY that XP0 has begun. -/
def saveDrained (s : State) (cells : List Nat) : Bool :=
  let mine (t : Tid) : Bool := cells.contains t.cell
  s.cores.all (fun k => k.array.all (fun e => !cells.contains e.cell) && (match k.tcopy with
      | q :: _ => !cells.contains q.cell || q.tensor.isNone
      | [] => true))
    && s.late.all (fun e => !mine e.t) && s.reqs.all (fun q => !q.tree.tids.any mine) && s.replies.all (fun q => !q.tree.tids.any mine)
    && s.cells.all (fun c => !cells.contains c.id || (c.runs.isEmpty && c.xps.all (fun p => p.fail.isNone)))
    && s.remote.all (fun q => match q.use with
      | .load t _ _ _ _ _ _ _ => !mine t
      | .atomic _ _ _ _ tree => !tree.tids.any mine
      | .uload t _ _ _ _ => !mine t
      | .store (some t) _ _ _ => !mine t
      | .store none _ _ _ => true
      | .ask (.xp x) => !cells.contains x.cell
      | .ask (.run c _ _) => !cells.contains c
      | .ask _ => true
      | .message => true)

/-- A MONWAIT ends with status 3 at a forced save (R241, R342). -/
def Thread.endSleep (th : Thread) (now : Nat) : Thread :=
  match th.wait with
  | some (.monitor d t) => th.endMonwait d t 3 now
  | _ => th

/-- The walks of some cells' threads stop at the step at which they stand, and what the threads have asked of peers is dropped
(R73, R188, R342). -/
def stopWalks (s : State) (cells : List Nat) : State :=
  (s.cells.filter (fun c => cells.contains c.id)).foldl (fun s c =>
    (cellThreads c).foldl (fun s x => if x.2.2.walk.isSome then saveWalk s x.1 else dropAsks s (.thread x.1)) s) s

/-- What YIELD declared dead is restored as +0 (R341). -/
def Thread.dropDead (th : Thread) : Thread :=
  if th.state = .yielded then
    { th with v := ((List.range th.v.length).zip th.v).map (fun x => if x.1 < th.liveV then x.2 else 0),
              taint := ((List.range th.taint.length).zip th.taint).map (fun x => if x.1 < th.liveV then x.2 else false),
              w := ((List.range th.w.length).zip th.w).map (fun x => if x.1 < th.liveW then x.2 else zeroPacket) }
  else th

/-- A command's pre-emption keeps the gang's cells on their cores until the exchange or the copy (R283, R285, R479). -/
def forCommand (s : State) (cs : List Cell) : Bool :=
  cs.any (fun c => (match s.ctx? c.ctx with
      | some x => x.parking
      | none => false)
    || s.swaps.any (fun p => (s.partitions.getD p 0).getLsbD (c.core / 6)))

/-- The gang's cells, drained, become SAVED, the evicted squads with them (R332, R345). Stopping squads are delivered first (R366). -/
def finishSave (s : State) (gang : Nat) (forced : Bool) : State :=
  let cs := gangLive s gang
  let ids := cs.map (·.id)
  let s := stopWalks s ids
  let s := { s with cells := s.cells.map (fun (c : Cell) => if ids.contains c.id then { c with squads := c.squads.map (fun (q : Squad) =>
      { q with threads := q.threads.map (fun th => { th with board := th.board.map (fun o => if o.awaits = .unit then { o with awaits := .done } else o) }) }) }
    else c) }
  let s := cs.foldl (fun s c => (List.range c.squads.length).foldl (fun s i =>
    match s.squad? c.id i with
    | some q => if q.state = .active && q.trap = .stopping then deliver s c.id i else s
    | none => s) s) s
  let keep := forCommand s cs
  let cave := cs.all (fun c => !caveTaken s c.core)
  let save (c : Cell) : Cell :=
    { c with
      squads := c.squads.map (fun (q : Squad) =>
        if q.state = .active then
          { q with state := .saved, threads := q.threads.map (fun th => (if forced then th.endSleep s.clk else th.dropDead).save) }
        else if q.state = .evicted then { q with state := .saved, wasEvicted := true }
        else q),
      state := .saved, preq := false, place := if keep then c.place else if cave then .caved else .parked,
      tcopy := (s.cores.flatMap (fun k => k.tcopy)).filter (fun q => q.cell = c.id) }
  let s := { s with cells := s.cells.map (fun c => if ids.contains c.id then save c else c),
                    cores := s.cores.map (fun (k : Core) => { k with tcopy := k.tcopy.filter (fun q => !ids.contains q.cell) }) }
  match cs with
  | c :: _ =>
    if keep then s
    else settleCtx ((cs.foldl (fun s c => carveFor s c.core) s).modGang gang (fun g => { g with gaveRoom := true })) c.ctx
  | [] => s

/-- Cells of a gang that drain become SAVING: those that are safe, or all of them when the gang is saved by force (R332, R340). -/
def beginSave (s : State) (gang : Nat) (all : Bool) : State :=
  { s with cells := s.cells.map (fun (c : Cell) => if c.gang = gang && c.state = .draining && (all || cellSafe c) then { c with state := .saving } else c) }

/-- The live cells of a gang whose pre-emption is under way; those of a context that runs nothing stay as they are (R286). -/
def savingCells (s : State) (gang : Nat) : Option (List Cell) :=
  let cs := gangLive s gang
  if !cs.isEmpty && cs.all (fun c => (c.state = .draining || c.state = .saving) && ctxLive s c.ctx) then some cs else none

/-- COOPERATIVE_SAVE (R340, R341): a cell that is safe issues nothing more, and once every cell of the gang is safe the gang is saved. -/
def execCooperativeSave (gang : Nat) (s : State) : Host.Outcome State Fault Refusal :=
  .next (match savingCells s gang with
    | none => s
    | some cs =>
      let s := beginSave s gang false
      if cs.all cellSafe && saveDrained s (cs.map (·.id)) then finishSave s gang false else s)

/-- FORCED_SAVE (R340, R342): a cell is not safe when the deadline has passed. -/
def execForcedSave (gang : Nat) (s : State) : Host.Outcome State Fault Refusal :=
  .next (match savingCells s gang with
    | none => s
    | some cs =>
      if cs.all cellSafe || !cs.any (fun c => !cellSafe c && decide (s.clk - c.preqAt ≥ c.deadline)) then s
      else
        let s := stopWalks (beginSave s gang true) (cs.map (·.id))
        if saveDrained s (cs.map (·.id)) then finishSave s gang true else s)

/-- PREQ_CLEAR (R340): before the save begins; YIELDED threads go on. -/
def execPreqClear (gang : Nat) (s : State) : Host.Outcome State Fault Refusal :=
  .next (match savingCells s gang with
    | none => s
    | some cs =>
      if cs.all (fun c => c.state = .saving) then s
      else
        { s with cells := s.cells.map (fun (c : Cell) => if c.gang = gang && (c.state = .draining || c.state = .saving) then
            { c with preq := false, state := .running, squads := c.squads.map (fun (q : Squad) => { q with threads := q.threads.map (fun th =>
                if th.state = .yielded then { th with state := .ready, readyAt := s.clk } else th) }) }
          else c) })

/-! ## Recall (R345) -/

/-- Whether a core has a slot and registers for one more squad of a cell. -/
def squadRoom (s : State) (c : Cell) : Bool :=
  let u := useOf (coreCells s c.core)
  u.squads < 32 && u.wregs + 32 * c.shape.wregs ≤ 32768

/-- RECALL (R345): the squad takes a free slot; where room lacks, another victim is evicted or a gang asked to yield. -/
def execRecall (cell squad : Nat) (s : State) : Host.Outcome State Fault Refusal :=
  .next (match s.cell? cell, s.squad? cell squad with
    | some c, some q =>
      if !q.recalled || !c.resident || !ctxLive s c.ctx then s
      else if squadRoom s c then
        let p := leastPartition s c.core
        let slot := freeSlot (slotsUsed s c.core p) 0
        s.modSquad cell squad (fun q => { q with state := .active, partition := p, slot := slot, parked := false,
                                                 threads := q.threads.map (fun th => th.restore s.clk) })
      else
        match firstVictim (victimsOn s (cellPrio s c) [c.core]) with
        | some v => evictSquad s v.1 v.2
        | none =>
          if (coreCells s c.core).any (fun x => x.preq) then s
          else match pickGang s (lowerGangs s (cellPrio s c) [c.core]) with
            | some g => raisePreq s g.id
            | none => s
    | _, _ => s)

/-! ## Exit of a cell (R346, R322, R308) -/

/-- A cell whose work is over: its last squad has retired, or a transfer-only cell's XP1 has ended. -/
def cellDone (s : State) (c : Cell) : Bool :=
  c.place = .core && c.state ≠ .exited && (if c.squads.isEmpty then
      c.xps.all (fun x => x.state = .exited || x.state = .killed)
    else c.squads.all (fun q => q.state = .retired)) && ctxLive s c.ctx

/-- Sets the exited cell's bit (R322): the memory after it, where a page or a peer delays it, or that it cannot be set. -/
inductive BitSet where
  | done (s : State)
  | waits (s : State)
  | failed

def setBit (s : State) (k : Kernel) (cell i : Nat) : BitSet :=
  if k.desc.bmapRef = 0 then .done s
  else
    let off : Int := ((refOff k.desc.bmapRef + i / 8 : Nat) : Int)
    match checkBuffer s k.ctx needAtomic (refIndex k.desc.bmapRef) off 1 1 with
    | .ok a =>
      if a.isRemote then
        let p := a.peer
        let at' := p.2.2.2 / 4 * 4
        let w : Access := { a with store := [(at', .remote p.1 p.2.1 p.2.2.1 at')], size := 4 }
        let op : PeerOp := .atomic 2 false (dword (2 ^ (i % 8 + 8 * (p.2.2.2 % 4))))
        match answerOf s (.cell cell) w op with
        | .unasked => .waits (askPeer s (.cell cell) w op)
        | .open' => .waits s
        | .data _ => .done (dropAsks s (.cell cell))
        | .bad _ => .failed
      else .done (homeWrite s none a [BitVec.ofNat 8 (byteField (homeRead s none a).1 0 1 ||| 2 ^ (i % 8))])
    | .waits r p => .waits (firstTouch s r p)
    | .bad _ _ => .failed

/-- The gang of an exited cell: with its last cell it ends, and a fused L1 is emptied and split (R327, R346). -/
def endGang (s : State) (gang : Nat) : State :=
  if (gangLive s gang).isEmpty then
    let s := match s.gang? gang with
      | some g => if g.fused then emptyCluster s (6 * g.unit) else s
      | none => s
    { s with cells := s.cells.filter (fun c => c.gang ≠ gang), gangs := s.gangs.filter (fun g => g.id ≠ gang),
             owners := s.owners.filter (fun o => o.gang ≠ gang) }
  else s

/-- CELL_EXIT (R346): its contexts are killed and their transfers land, its array operations are performed, its requests are
acknowledged, its writes are published, its bit is set, and what it held is freed. -/
def execCellExit (cell : Nat) (s : State) : Host.Outcome State Fault Refusal :=
  .next (match s.cell? cell with
    | none => s
    | some c =>
      if !cellDone s c then s
      else
        let live (p : XpCtx) : Bool := p.state = .running || p.state = .waiting || p.state = .stopped
        let s := (List.range c.xps.length).foldl (fun s i => match s.xp? ⟨cell, i + 1⟩ with
          | some p => if live p then xpKill s ⟨cell, i + 1⟩ else s
          | none => s) s
        let tcopies := s.cores.any (fun k => k.tcopy.any (fun q => q.cell = cell))
        if !saveDrained s [cell] || tcopies then s
        else
          match viewHeld s [cell] with
          | some x => firstTouch s x.1 x.2
          | none =>
          let s := publish s [cell]
          if publishedOpen s cell then s
          else
            match s.kernel? c.kernel with
            | none => s
            | some k =>
              let finish (s : State) : State :=
                let s := s.modCell cell (fun c => { c with state := .exited, squads := [], scratch := [], slots := [], tiles := [], bank := [],
                                                           tileIssue := [], panelIssue := [], xps := [] })
                let s := dropAsks { s with owners := s.owners.filter (fun o => o.t.cell ≠ cell) } (.cell cell)
                let s := carveFor s c.core
                let s := s.modKernel k.id (fun k => { k with exited := k.exited ++ [(c.index, c.core)] })
                settleKernel (endGang (settleCtx s c.ctx) c.gang) k.id
              match setBit s k cell c.index with
              | .waits s => s
              | .done s => finish s
              | .failed => finish (doomCode s k.id 5))

end Sys2Proof.Machine
end

