-- ==== Sys2Proof/Machine/Context.lean ====
section
/-! DEFINITION. Contexts: their commands, the swap through the cave, parking and teardown (R277–R288, R479). -/
namespace Sys2Proof.Machine
open Sys2Proof

/-- A command ends with a status (R282), and its completion raises an interrupt (R407) (DESIGN CHOICE, log entry 25). -/
def done (s : State) (c : Cmd) (code : Nat) : State := (s.emit (.status c code)).emit .irqCommand

/-! ## Making and binding (R277–R279, R282) -/

/-- A power of two in a range. -/
def powerOfTwoIn (n lo hi : Nat) : Bool := lo ≤ n && n ≤ hi && (List.range 32).any (fun i => n = 2 ^ i)

/-- A context descriptor (R277): the context it makes, none where it breaks a rule of the table. -/
def parseContext (b : List Byte) : Option Context :=
  let f (off n : Nat) : Nat := byteField b off n
  let comb := f 15 1
  let ok := b.length = 128 && refOff (dword (f 0 8)) % 32 = 0 && 1 ≤ f 8 4 && f 8 4 ≤ 2 ^ 20 && f 12 2 < 2 ^ 10 && f 14 1 < 8
    && !tb comb 6 && f 16 4 % 4 = 0 && 1 ≤ f 28 4 && refOff (dword (f 40 8)) % 64 = 0 && powerOfTwoIn (f 48 4) 16 65536
    && (f 52 8 = 0) = (f 60 4 = 0) && f 64 64 = 0
  if ok then
    some ⟨f 12 2, .built, dword (f 0 8), f 8 4, tb (f 14 1) 0, tb (f 14 1) 1, tb (f 14 1) 2, if tb comb 7 then comb % 2 ^ 6 else 8,
      word (f 16 4), if f 20 8 = 0 then 1000000 else f 20 8, f 28 4, dword (f 32 8), dword (f 40 8), f 48 4, dword (f 52 8), f 60 4, 0, 0,
      [], 1, false, false⟩
  else none

/-- CTX_CREATE (R282): the id must be free and the descriptor keep its rules; a light context has a table of at most 64 (R287). -/
def execCtxCreate (desc : List Byte) (s : State) : Host.Outcome State Fault Refusal :=
  .next (if (s.ctx? (byteField desc 12 2)).isSome then done s .ctxCreate 1
    else match parseContext desc with
      | none => done s .ctxCreate 2
      | some c =>
        if c.light && c.btcount > 64 then done s .ctxCreate 2
        else done { s with contexts := s.contexts ++ [c] } .ctxCreate 0)

/-- Whether a mask is a union of device partitions (R279). -/
def isUnion (s : State) (pset : BitVec 24) : Bool :=
  pset ≠ 0 && (s.partitions.filter (fun p => p &&& pset = p)).foldl (· ||| ·) 0 = pset

/-- A command on a context: status 1 unless its state is among those its rows give; held while the context is being moved. -/
def onCtx (s : State) (c : Cmd) (id : Nat) (states : List CtxState) (g : Context → State) : Host.Outcome State Fault Refusal :=
  .next (match s.ctx? id with
    | none => done s c 1
    | some x => if x.busy then s else if states.contains x.state then g x else done s c 1)

/-- CTX_BIND (R282). -/
def execCtxBind (ctx : Nat) (pset : BitVec 24) (s : State) : Host.Outcome State Fault Refusal :=
  onCtx s .ctxBind ctx [.built] (fun _ =>
    if isUnion s pset then done (s.modCtx ctx (fun c => { c with state := .bound, pset := pset })) .ctxBind 0 else done s .ctxBind 3)

/-- A queue's user half for its launch processor (R292): one in a peer's buffer comes with the peer's answer (R406). -/
def userHalf (s : State) (q : Queue) : Ready := readyFor s (.queue q.qid) none (checkRef s q.ctx needLoadImm q.uref 0 64)

/-- WIDX of a queue's user half, RIDX where it cannot be read. -/
def userWidx (s : State) (q : Queue) : Nat :=
  match userHalf s q with
  | .ok a => byteField (homeRead s none a).1 0 8
  | _ => q.ridx

/-- The queues of a context whose user half a CTX_UNBIND cannot read yet: its page is in motion, or a peer has it. -/
def unbindAsks (s : State) (ctx : Nat) : List (Asker × Ready) :=
  (s.queues.filter (fun q => q.ctx = ctx)).filterMap (fun q => match userHalf s q with
    | .peer a => some (.queue q.qid, .peer a)
    | .page root page => some (.queue q.qid, .page root page)
    | _ => none)

/-- CTX_UNBIND (R282): status 1 while a queue of the context holds an unread entry. -/
def execCtxUnbind (ctx : Nat) (s : State) : Host.Outcome State Fault Refusal :=
  onCtx s .ctxUnbind ctx [.bound] (fun _ =>
    let unread := s.queues.any (fun q => q.ctx = ctx && userWidx s q ≠ q.ridx)
    let s := (s.queues.filter (fun q => q.ctx = ctx)).foldl (fun s q => dropAsks s (.queue q.qid)) s
    if unread then done s .ctxUnbind 1
    else done (s.modCtx ctx (fun c => { c with state := .built, pset := 0 })) .ctxUnbind 0)

/-! ## Swap through the cave (R283, R284, R479) -/

/-- The cores of a device partition. -/
def partCores (s : State) (part : Nat) : List Nat :=
  let m := s.partitions.getD part 0
  (List.range 144).filter (fun c => m.getLsbD (c / 6))

/-- The live cells on or in the caves of a device partition. -/
def partCells (s : State) (part : Nat) : List Cell :=
  let cs := partCores s part
  s.cells.filter (fun c => cs.contains c.core && c.place ≠ .parked && c.state ≠ .exited)

/-- The contexts that a swap moves cells of. -/
def swapCtxs (s : State) (part : Nat) : List Nat := dedup ((partCells s part).map (·.ctx))

/-- CTX_SWAP (R283): csr.preq rises on every resident cell, and with it on its gang. The exchange follows once they are saved. A context of
the cells must be RUNNING or CAVED (R282). -/
def execCtxSwap (part : Nat) (s : State) : Host.Outcome State Fault Refusal :=
  .next (
    let ctxs := swapCtxs s part
    if part ≥ s.partitions.length then done s .ctxSwap 2
    else if ctxs.any (fun i => ((s.ctx? i).map (·.busy)).getD false) then s
    else if ctxs.any (fun i => !((s.ctx? i).any (fun c => c.state = .running || c.state = .caved))) then done s .ctxSwap 1
    else
      let gangs := dedup (((partCells s part).filter (fun c => c.place = .core && c.state = .running)).map (·.gang))
      let s := gangs.foldl raisePreq s
      { s with swaps := s.swaps ++ [part],
               contexts := s.contexts.map (fun (c : Context) => if ctxs.contains c.id then { c with busy := true } else c) })

/-- Restarts the gangs of some cells that are whole again on their cores (R343, R479). -/
def restartGangs (s : State) (gangs : List Nat) : State :=
  gangs.foldl (fun s g =>
    let cs := gangLive s g
    if cs.all (fun c => (c.place = .core || c.place = .inPlace) && c.state = .saved) then restartAll s false g (cs.map (fun c => (c.id, c.core))) else s) s

/-- A context is moved no longer, unless another swap still moves it. -/
def unbusy (s : State) (ctxs : List Nat) : State :=
  let still := s.swaps.flatMap (swapCtxs s)
  { s with contexts := s.contexts.map (fun (c : Context) => if ctxs.contains c.id && !still.contains c.id then { c with busy := false } else c) }

/-- CAVE_EXCHANGE (R283, R479): the resident set and the cave change places; a gang that is whole restarts. Where an error has
stopped one of the contexts the swap is given up (DEDUCED, log entry 80). -/
def execCaveExchange (part : Nat) (s : State) : Host.Outcome State Fault Refusal :=
  .next (
    let cells := partCells s part
    let cores := partCores s part
    let ctxs := dedup (cells.map (·.ctx))
    let resident := cells.filter (fun c => c.place = .core || c.place = .inPlace)
    let outGangs := dedup (resident.map (·.gang))
    let inIds := (cells.filter (fun c => c.place = .caved)).map (·.id)
    let inGangs := dedup ((cells.filter (fun c => c.place = .caved)).map (·.gang))
    if !s.swaps.contains part then s
    else if ctxs.any (fun i => !ctxLive s i) then
      let s := { s with swaps := s.swaps.erase part }
      let s := restartGangs s outGangs
      let s := { s with cells := s.cells.map (fun (c : Cell) => if outGangs.contains c.gang && c.state = .draining then
        { c with preq := false, state := .running, squads := c.squads.map (fun (q : Squad) => { q with threads := q.threads.map (fun th =>
            if th.state = .yielded then { th with state := .ready, readyAt := s.clk } else th) }) } else c) }
      done (unbusy s ctxs) .ctxSwap 1
    else if !resident.all (fun c => c.state = .saved) then s
    else
      let move (c : Cell) : Cell :=
        if inIds.contains c.id then { c with place := .core }
        else if c.state = .exited || c.place = .parked || !outGangs.contains c.gang then c
        else if cores.contains c.core then { c with place := .caved }
        else if c.place = .core then { c with place := .inPlace } else c
      let s := { s with cells := s.cells.map move, swaps := s.swaps.erase part }
      let s := cores.foldl carveFor s
      let s := restartGangs s inGangs
      let s := ctxs.foldl settleCtx s
      done (unbusy s ctxs) .ctxSwap 0)

/-! ## Parking (R285) -/

/-- The live cells of a context. -/
def ctxCells (s : State) (ctx : Nat) : List Cell := s.cells.filter (fun c => c.ctx = ctx && c.state ≠ .exited)

/-- CTX_PARK (R285): the context's resident gangs are saved first. -/
def execCtxPark (ctx : Nat) (s : State) : Host.Outcome State Fault Refusal :=
  onCtx s .ctxPark ctx [.running, .caved] (fun x =>
    if x.park = 0 then done s .ctxPark 3
    else
      let gangs := dedup (((ctxCells s ctx).filter (fun c => c.place = .core && c.state = .running)).map (·.gang))
      (gangs.foldl raisePreq s).modCtx ctx (fun c => { c with busy := true, parking := true }))

/-- PARK_COPY_DONE (R285): the images fit the area and every cell is parked, or nothing is copied and the context goes back to its
former state. -/
def execParkCopyDone (ctx : Nat) (s : State) : Host.Outcome State Fault Refusal :=
  .next (match s.ctx? ctx with
    | none => s
    | some x =>
      let cs := ctxCells s ctx
      if !x.parking || !cs.all (fun c => c.state = .saved) then s
      else
        let s := s.modCtx ctx (fun c => { c with busy := false, parking := false })
        let toPark := cs.filter (fun c => c.place ≠ .parked)
        if parkUsed s ctx + (toPark.map imageBytes).sum > parkSpace s ctx then
          done (settleCtx (restartGangs s (dedup ((cs.filter (fun c => c.place = .core)).map (·.gang)))) ctx) .ctxPark 3
        else
          let ids := toPark.map (·.id)
          let s := { s with cells := s.cells.map (fun (c : Cell) => if ids.contains c.id then { c with place := .parked } else c),
                            gangs := s.gangs.map (fun (g : Gang) => if cs.any (fun c => c.gang = g.id) then { g with gaveRoom := false } else g) }
          let s := (dedup (toPark.map (·.core))).foldl carveFor s
          done (settleCtx s ctx) .ctxPark 0)

/-- CTX_UNPARK (R285): every parked gang is placed, or none. -/
def execCtxUnpark (ctx : Nat) (s : State) : Host.Outcome State Fault Refusal :=
  onCtx s .ctxUnpark ctx [.parked] (fun _ =>
    let gangs := dedup (((ctxCells s ctx).filter (fun c => c.place = .parked)).map (·.gang))
    match gangs.foldl (fun (o : Option State) g => o.bind (fun s => restoreGang s g)) (some s) with
    | some s' => done (settleCtx s' ctx) .ctxUnpark 0
    | none => done s .ctxUnpark 3)

/-! ## Teardown (R288) -/

/-- A message leaves the window undelivered (R422, R423): it is counted, a request's credit goes back, and a reply's slot
is free again. -/
def dropMessage (s : State) (w : Waiting) : State :=
  let m := w.msg
  let s := dropAsks { s with ports := s.ports.modify w.via (fun p => { p with amdrop := p.amdrop + 1 }) } (.ctx m.pctx)
  if m.reply then { s with credits := min 4096 (s.credits + 1) } else returnCredit s m.srcRank

/-- Requests that a teardown drops where they have not been sent (R288): all but those of runs and TCOPYs in flight and of writes published
earlier. A SIGNAL's stamp and an XSTAMP are among them. -/
def unperformed (s : State) (cells : List Nat) (ctx : Nat) (u : RemoteUse) : Bool :=
  match u with
  | .load t _ _ _ _ _ _ _ => cells.contains t.cell
  | .atomic _ _ _ _ tree => tree.tids.any (fun t => cells.contains t.cell)
  | .uload t _ _ _ _ => cells.contains t.cell
  | .store (some t) _ _ _ => cells.contains t.cell
  | .store none _ _ _ => false
  | .ask (.thread t) => cells.contains t.cell
  | .ask (.xp x) => cells.contains x.cell
  | .ask (.queue q) => s.queues.any (fun y => y.qid = q && y.ctx = ctx)
  | .ask (.copy j) => s.copyJobs.any (fun y => y.id = j && y.ctx = ctx)
  | .ask (.kernel k) => s.kernels.any (fun y => y.id = k && y.ctx = ctx)
  | .ask (.cell c) => cells.contains c
  | .ask (.ctx c) => c = ctx
  | .ask .host => false
  | .ask .coll => (s.colls.head?.map (·.ctx)) = some ctx
  | .ask (.run _ _ _) => false
  | .ask (.tcopy _ _) => false
  | .message => false
  | .ask (.dev w) => s.devWrites.any (fun y => y.id = w && y.ctx = ctx)

/-- Steps 1 to 6 of R288 as far as they happen at once (DEDUCED, log entry 81). -/
def stopContext (s : State) (ctx : Nat) : State :=
  let ids := (ctxCells s ctx).map (·.id)
  let s := endContextWork (s.modCtx ctx (fun c => { c with state := .stopping })) ctx
  let stop (c : Cell) : Cell :=
    { c with squads := c.squads.map (fun (q : Squad) => { q with threads := q.threads.map (fun th =>
               if th.state = .exited then th
               else { (th.endSleep s.clk).dropWalk with mon := none, state := .stopped, wait := none, heldWait := none }) }),
             slots := c.slots.map (fun _ => Slot.start), view := [], marks := [],
             xps := c.xps.map (fun x => if x.state = .running || x.state = .waiting || x.state = .stopped then
               { x with state := .killed, pendmx := [], rem := 0, waitOn := .none, fail := none, exiting := false } else x),
             tcopy := [] }
  let s := { s with cells := s.cells.map (fun (c : Cell) => if ids.contains c.id then stop c else c),
                    cores := s.cores.map (fun (k : Core) => { k with
                      array := k.array.filter (fun e => !ids.contains e.cell),
                      tcopy := k.tcopy.filter (fun q => !(ids.contains q.cell && q.tensor.isNone)) }),
                    terms := s.terms.filter (fun t => !t.terms.any (fun y => y.ctx = ctx)),
                    remote := s.remote.filter (fun q => q.sent || !unperformed s ids ctx q.use) }
  let s := (s.batches.filter (fun b => b.ctx = ctx)).foldl abortBatch s
  let gone := s.window.filter (fun m => m.msg.pctx = ctx)
  gone.foldl dropMessage { s with window := s.window.filter (fun m => m.msg.pctx ≠ ctx) }

/-- CTX_KILL (R288). -/
def execCtxKill (ctx : Nat) (s : State) : Host.Outcome State Fault Refusal :=
  onCtx s .ctxKill ctx [.built, .bound, .running, .caved, .parked, .faulted] (fun _ => done (stopContext s ctx) .ctxKill 0)

/-- Whether a party waits for a peer that cannot be reached (R416). -/
def cutOff (s : State) (who : Asker → Bool) : Bool :=
  s.remote.any (fun q => (portsFor s q.peer).isEmpty && (match q.use with
    | .ask w => who w
    | _ => false))

/-- The runs of a cell that wait for an unreachable peer, or behind such a run (R258, R416). -/
def cutRuns (s : State) (c : Cell) : List Run :=
  c.runs.foldl (fun l r =>
    let held : Bool := cutOff s (fun w => match w with
      | .run cell run _ => cell = c.id && run = r.id
      | _ => false)
    if held || l.any (fun y => y.ctx = r.ctx && (overlaps y.writes r.writes || overlaps y.writes r.reads)) then l ++ [r] else l) []

/-- Whether a core's tensor copy waits for an unreachable peer (R416). -/
def cutCopy (s : State) (q : TcopyReq) : Bool := cutOff s (fun w => match w with
  | .tcopy _ req => req = q.id
  | _ => false)

/-- TEARDOWN_COMPLETE (R288, R282): once the runs in flight and the TCOPY in progress have landed, but for what an unreachable peer delays
(R416), everything of the context is discarded; requests that have been sent keep their tags until they are answered. -/
def execTeardownComplete (ctx : Nat) (s : State) : Host.Outcome State Fault Refusal :=
  .next (match s.ctx? ctx with
    | none => s
    | some x =>
      let cs := ctxCells s ctx
      let ids := cs.map (·.id)
      let landing := cs.any (fun c => c.runs.length ≠ (cutRuns s c).length) || s.cores.any (fun k => k.tcopy.any (fun q => ids.contains q.cell && !cutCopy s q))
      if x.state ≠ .stopping || landing then s
      else
        let mine (t : Tid) : Bool := ids.contains t.cell
        let moving (w : Asker) : Bool := match w with
          | .run c _ _ => ids.contains c
          | .tcopy _ req => s.cores.any (fun k => k.tcopy.any (fun q => q.id = req && ids.contains q.cell))
          | _ => false
        let gangs := s.gangs.filter (fun g => ((s.kernel? g.kernel).map (·.ctx)) = some ctx)
        let s := { s with
          cells := s.cells.filter (fun c => c.ctx ≠ ctx), gangs := s.gangs.filter (fun g => !(gangs.any (fun h => h.id = g.id))),
          late := s.late.filter (fun e => !mine e.t), reqs := s.reqs.filter (fun q => q.ctx ≠ ctx), replies := s.replies.filter (fun q => !q.tree.tids.any mine),
          batchReplies := s.batchReplies.filter (fun b => !mine b.t),
          remote := s.remote.filter (fun q => q.sent || !(unperformed s ids ctx q.use || (match q.use with
            | .ask w => moving w
            | _ => false))),
          asks := s.asks.filter (fun q => !(unperformed s ids ctx (.ask q.who) || moving q.who)),
          cores := s.cores.map (fun (k : Core) => { k with tcopy := k.tcopy.filter (fun q => !ids.contains q.cell) }),
          copyJobs := s.copyJobs.filter (fun c => c.ctx ≠ ctx), colls := s.colls.filter (fun c => c.ctx ≠ ctx),
          owners := s.owners.filter (fun o => !mine o.t), devWrites := s.devWrites.filter (fun w => w.ctx ≠ ctx) }
        let s := (dedup (cs.map (·.core))).foldl carveFor s
        report (s.modCtx ctx (fun c => { c with state := .dead, busy := false, parking := false })) 0x17F 3 ctx)

/-- CTX_FREE (R282): the id is free again. -/
def execCtxFree (ctx : Nat) (s : State) : Host.Outcome State Fault Refusal :=
  onCtx s .ctxFree ctx [.dead] (fun _ => done { s with contexts := s.contexts.filter (fun c => c.id ≠ ctx), kernels := s.kernels.filter (fun k => k.ctx ≠ ctx) } .ctxFree 0)

end Sys2Proof.Machine
end

