-- ==== Sys2Proof/Machine/Crypto.lean ====
section
/-! DEFINITION. The cryptographic functions that the trust chain names (R451–R456): SHA-384, HMAC-SHA-384, the counter-mode derivation of
NIST SP 800-108, and ECDSA on P-384 with the nonces of RFC 6979. -/
namespace Sys2Proof.Machine
open Sys2Proof

/-! ## SHA-384 -/

/-- The number of a byte string, most significant byte first. -/
def beNat (l : List Byte) : Nat := l.foldl (fun a b => 256 * a + b.toNat) 0
/-- n bytes of a number, most significant byte first. -/
def beBytes (n v : Nat) : List Byte := (leBytes n v).reverse

/-- The 80 round constants. -/
def shaK : List Dword :=
  [0x428a2f98d728ae22, 0x7137449123ef65cd, 0xb5c0fbcfec4d3b2f, 0xe9b5dba58189dbbc,
   0x3956c25bf348b538, 0x59f111f1b605d019, 0x923f82a4af194f9b, 0xab1c5ed5da6d8118,
   0xd807aa98a3030242, 0x12835b0145706fbe, 0x243185be4ee4b28c, 0x550c7dc3d5ffb4e2,
   0x72be5d74f27b896f, 0x80deb1fe3b1696b1, 0x9bdc06a725c71235, 0xc19bf174cf692694,
   0xe49b69c19ef14ad2, 0xefbe4786384f25e3, 0x0fc19dc68b8cd5b5, 0x240ca1cc77ac9c65,
   0x2de92c6f592b0275, 0x4a7484aa6ea6e483, 0x5cb0a9dcbd41fbd4, 0x76f988da831153b5,
   0x983e5152ee66dfab, 0xa831c66d2db43210, 0xb00327c898fb213f, 0xbf597fc7beef0ee4,
   0xc6e00bf33da88fc2, 0xd5a79147930aa725, 0x06ca6351e003826f, 0x142929670a0e6e70,
   0x27b70a8546d22ffc, 0x2e1b21385c26c926, 0x4d2c6dfc5ac42aed, 0x53380d139d95b3df,
   0x650a73548baf63de, 0x766a0abb3c77b2a8, 0x81c2c92e47edaee6, 0x92722c851482353b] ++
  [0xa2bfe8a14cf10364, 0xa81a664bbc423001, 0xc24b8b70d0f89791, 0xc76c51a30654be30,
   0xd192e819d6ef5218, 0xd69906245565a910, 0xf40e35855771202a, 0x106aa07032bbd1b8,
   0x19a4c116b8d2d0c8, 0x1e376c085141ab53, 0x2748774cdf8eeb99, 0x34b0bcb5e19b48a8,
   0x391c0cb3c5c95a63, 0x4ed8aa4ae3418acb, 0x5b9cca4f7763e373, 0x682e6ff3d6b2b8a3,
   0x748f82ee5defb2fc, 0x78a5636f43172f60, 0x84c87814a1f0ab72, 0x8cc702081a6439ec,
   0x90befffa23631e28, 0xa4506cebde82bde9, 0xbef9a3f7b2c67915, 0xc67178f2e372532b,
   0xca273eceea26619c, 0xd186b8c721c0c207, 0xeada7dd6cde0eb1e, 0xf57d4f7fee6ed178,
   0x06f067aa72176fba, 0x0a637dc5a2c898a6, 0x113f9804bef90dae, 0x1b710b35131c471b,
   0x28db77f523047d84, 0x32caab7b40c72493, 0x3c9ebe0a15c9bebc, 0x431d67c49c100d4c,
   0x4cc5d4becb3e42b6, 0x597f299cfc657e2a, 0x5fcb6fab3ad6faec, 0x6c44198c4a475817]

/-- The initial hash value. -/
def shaInit : List Dword :=
  [0xcbbb9d5dc1059ed8, 0x629a292a367cd507, 0x9159015a3070dd17, 0x152fecd8f70e5939,
   0x67332667ffc00b31, 0x8eb44a8768581511, 0xdb0c2e0d64f98fa7, 0x47b5481dbefa4fa4]

/-- A message padded to whole blocks: a one bit, zeros, and its length in bits. -/
def shaPad (m : List Byte) : List Byte :=
  m ++ [0x80] ++ List.replicate ((239 - m.length % 128) % 128) 0 ++ beBytes 16 (8 * m.length)

/-- The next word of a message schedule, from its last sixteen, newest first. -/
def shaNext (w : List Dword) : Dword :=
  let x := w.getD 14 0
  let y := w.getD 1 0
  (y.rotateRight 19 ^^^ y.rotateRight 61 ^^^ (y >>> 6)) + w.getD 6 0 + (x.rotateRight 1 ^^^ x.rotateRight 8 ^^^ (x >>> 7)) + w.getD 15 0

/-- The 80 words of a block's schedule. -/
def shaSchedule (block : List Byte) : List Dword :=
  let w := ((chunksOf 8 16 block).map (fun b => dword (beNat b))).reverse
  ((List.range 64).foldl (fun l _ => shaNext l :: l) w).reverse

/-- One round on the eight working variables. -/
def shaRound (v : List Dword) (kw : Dword × Dword) : List Dword :=
  match v with
  | [a, b, c, d, e, f, g, h] =>
    let t1 := h + (e.rotateRight 14 ^^^ e.rotateRight 18 ^^^ e.rotateRight 41) + ((e &&& f) ^^^ (~~~e &&& g)) + kw.1 + kw.2
    let t2 := (a.rotateRight 28 ^^^ a.rotateRight 34 ^^^ a.rotateRight 39) + ((a &&& b) ^^^ (a &&& c) ^^^ (b &&& c))
    [t1 + t2, a, b, c, d + t1, e, f, g]
  | _ => v

/-- The hash value after one more block. -/
def shaBlock (h : List Dword) (block : List Byte) : List Dword :=
  ((shaK.zip (shaSchedule block)).foldl shaRound h).zip h |>.map (fun x => x.1 + x.2)

/-- The SHA-384 digest of a byte string, 48 bytes. -/
def sha384 (m : List Byte) : List Byte :=
  let p := shaPad m
  (((chunksOf 128 p.length p).foldl shaBlock shaInit).take 6).flatMap (fun x => beBytes 8 x.toNat)

/-! ## HMAC-SHA-384 and key derivation -/

/-- HMAC-SHA-384. -/
def hmac384 (key m : List Byte) : List Byte :=
  let k := if key.length > 128 then sha384 key else key
  let k := k ++ List.replicate (128 - k.length) 0
  sha384 (k.map (· ^^^ 0x5C) ++ sha384 (k.map (· ^^^ 0x36) ++ m))

/-- The counter-mode derivation of SP 800-108 with HMAC-SHA-384, for 384 bits: one iteration, its counter before the fixed input data. -/
def kdf384 (key fixed : List Byte) : List Byte := hmac384 key (beBytes 4 1 ++ fixed)

/-! ## The curve P-384 -/

def p384P : Nat := 0xfffffffffffffffffffffffffffffffffffffffffffffffffffffffffffffffeffffffff0000000000000000ffffffff
def p384N : Nat := 0xffffffffffffffffffffffffffffffffffffffffffffffffc7634d81f4372ddf581a0db248b0a77aecec196accc52973
def p384B : Nat := 0xb3312fa7e23ee7e4988e056be3f82d19181d9c6efe8141120314088f5013875ac656398d8a2ed19d2a85c8edd3ec2aef

/-- A point of the curve: none is the point at infinity. -/
abbrev Point384 := Option (Nat × Nat)

def p384G : Point384 := some (0xaa87ca22be8b05378eb1c71ef320ad746e1d3b628ba79b9859f741e082542a385502f25dbf55296c3a545e3872760ab7,
  0x3617de4a96262c6f5d9e98bf9292dc29f8f41dbd289a147ce9da3113b5f0b8c00a60b1ce1d7e819d7a431d7c90ea0e5f)

/-- Square and multiply modulo m, from bit n - 1 of the exponent down. -/
def powGo (m b e : Nat) : Nat → Nat → Nat
  | 0, r => r
  | n + 1, r => powGo m b e n (if e.testBit n then r * r % m * b % m else r * r % m)

/-- The inverse modulo a prime below 2^384, by Fermat's theorem. -/
def invMod (m a : Nat) : Nat := powGo m (a % m) (m - 2) 384 1

/-- a - b modulo m. -/
def subMod (m a b : Nat) : Nat := (a + m - b % m) % m

/-- The sum of two points of the curve. -/
def addPoint (a b : Point384) : Point384 :=
  match a, b with
  | none, _ => b
  | _, none => a
  | some (x, y), some (x', y') =>
    if x = x' && (y + y') % p384P = 0 then none
    else
      let l := if x = x' then (3 * x ^ 2 + p384P - 3) * invMod p384P (2 * y) % p384P else subMod p384P y' y * invMod p384P (subMod p384P x' x) % p384P
      let z := subMod p384P (subMod p384P (l ^ 2) x) x'
      some (z, subMod p384P (l * subMod p384P x z) y)

/-- Double and add, from bit n - 1 of the number down. -/
def mulGo (k : Nat) (a : Point384) : Nat → Point384 → Point384
  | 0, r => r
  | n + 1, r => mulGo k a n (if k.testBit n then addPoint (addPoint r r) a else addPoint r r)

/-- A multiple of a point by a number below 2^384. -/
def mulPoint (k : Nat) (a : Point384) : Point384 := mulGo k a 384 none

/-- Whether a point lies on the curve, with coordinates below p. -/
def onCurve (a : Nat × Nat) : Bool :=
  decide (a.1 < p384P) && decide (a.2 < p384P) && decide (a.2 ^ 2 % p384P = (a.1 ^ 3 + (p384P - 3) * a.1 + p384B) % p384P)

/-! ## ECDSA -/

/-- Whether (r, s) is a valid signature of a digest under a public key. -/
def ecdsaVerify (key : Nat × Nat) (digest : List Byte) (r s : Nat) : Bool :=
  if r = 0 || r ≥ p384N || s = 0 || s ≥ p384N || !onCurve key then false
  else
    let w := invMod p384N s
    match addPoint (mulPoint (beNat digest * w % p384N) p384G) (mulPoint (r * w % p384N) (some key)) with
    | none => false
    | some (x, _) => x % p384N = r

/-- The signature of a digest with a private scalar and a nonce; none where r or s would be 0. -/
def ecdsaSignWith (d : Nat) (digest : List Byte) (k : Nat) : Option (Nat × Nat) :=
  match mulPoint k p384G with
  | none => none
  | some (x, _) =>
    let r := x % p384N
    let s := invMod p384N k * (beNat digest + r * d) % p384N
    if r = 0 || s = 0 then none else some (r, s)

/-- The nonces of RFC 6979 in their order, until one of them signs: `fuel` bounds how many are tried. -/
def signLoop (d : Nat) (digest : List Byte) : Nat → List Byte → List Byte → Option (Nat × Nat)
  | 0, _, _ => none
  | fuel + 1, key, v =>
    let v := hmac384 key v
    let k := beNat v
    match (if k = 0 || k ≥ p384N then none else ecdsaSignWith d digest k) with
    | some x => some x
    | none =>
      let key := hmac384 key (v ++ [0])
      signLoop d digest fuel key (hmac384 key v)

/-- The deterministic ECDSA P-384 signature of RFC 6979 with SHA-384 (R456). -/
def ecdsaSign (d : Nat) (digest : List Byte) : Option (Nat × Nat) :=
  let seed := beBytes 48 d ++ beBytes 48 (beNat digest % p384N)
  let v := List.replicate 48 (1#8)
  let key := hmac384 (List.replicate 48 0) (v ++ [0] ++ seed)
  let v := hmac384 key v
  let key := hmac384 key (v ++ [1] ++ seed)
  signLoop d digest 1000 key (hmac384 key v)

/-! ## Keys and signatures as bytes -/

/-- Two numbers of 48 bytes each, least significant byte first as R4 has every multi-byte value (DEDUCED, log entry 138). -/
def pairBytes (a b : Nat) : List Byte := leBytes 48 a ++ leBytes 48 b

/-- Whether 96 bytes are Helpor's signature of a digest (R451, R453). -/
def imageKeyVerifies (digest sig : List Byte) : Bool :=
  decide (sig.length = 96) && ecdsaVerify Config.imageKey digest (byteField sig 0 48) (byteField sig 48 48)

/-- The private scalar that the response of the unclonable function gives (R454) (PRESUMED, log entry 139). -/
def identityScalar (response : BitVec 256) : Nat := 1 + beNat (kdf384 (beBytes 32 response.toNat) Config.kdfInput) % (p384N - 1)

/-- The public key of a private scalar, x then y (R456). -/
def publicKey (d : Nat) : List Byte := match mulPoint d p384G with
  | some (x, y) => pairBytes x y
  | none => pairBytes 0 0

/-- A signature, r then s (R456). -/
def signatureBytes (d : Nat) (digest : List Byte) : List Byte := match ecdsaSign d digest with
  | some (r, s) => pairBytes r s
  | none => pairBytes 0 0

end Sys2Proof.Machine
end

