-- ==== Sys2Proof/Machine/Page.lean ====
section
/-! DEFINITION. Buffers and pages: the buffer table command, mapping, brine, migration, pools, scans and checkpoints (R390–R404). -/
namespace Sys2Proof.Machine
open Sys2Proof

/-! ## The buffer table (R390, R401, R409) -/

/-- A buffer table entry of 32 bytes (R390), none where it breaks a rule of the table (DEDUCED, log entry 82). -/
def parseBt (b : List Byte) : Option BtEntry :=
  let f (off n : Nat) : Nat := byteField b off n
  let flags := f 0 1
  let ilv := f 1 1 % 8
  let view := tb (f 1 1) 3
  let mx := f 1 1 / 16 % 4
  let tol := tb (f 1 1) 6
  let sel := f 2 1
  let len := f 8 8
  let pt := f 16 8
  let r := f 24 8
  let rv := tb r 63
  let selOk : Bool := match ilv with
    | 1 => sel ≤ 1 | 2 => sel ≤ 5 | 3 => sel ≤ 11 | _ => sel = 0
  let ok := b.length = 32 && flags < 32 && ilv ≤ 4 && !tb (f 1 1) 7 && (if view then mx ≠ 3 else mx = 0) && selOk && f 3 1 = 0 && f 4 2 < 2 ^ 10
    && f 6 2 = 0 && len ≤ 2 ^ 44 && pt % 2 ^ 16 = 0 && !(view && tol) && (!view || len % 64 = 0) && (!tol || len % 4 = 0)
    && r / 2 ^ 56 % 2 ^ 7 = 0 && r / 2 ^ 42 % 2 ^ 6 = 0 && r / 2 ^ 20 % 2 ^ 12 = 0
    && (!rv || (!view && !tol && pt = 0 && ilv = 0)) && !(ilv = 4 && tb flags 3)
  if ok then
    some { valid := tb flags 0, rd := tb flags 1, wr := tb flags 2, at' := tb flags 3, ex := tb flags 4, ilv := ilv, view := view, mxfmt := mx,
           tol := tol, ilvsel := sel, owner := f 4 2, length := len, ptroot := pt, rvalid := rv, peer := r / 2 ^ 48 % 2 ^ 8,
           pctx := r / 2 ^ 32 % 2 ^ 10, pidx := r % 2 ^ 20 }
  else none

/-- A command on memory names a context that it may be given for (R401). -/
def onTables (s : State) (c : Cmd) (ctx : Nat) (g : Context → State) : Host.Outcome State Fault Refusal :=
  .next (match s.ctx? ctx with
    | none => done s c 1
    | some x =>
      if x.state = .built || x.state = .bound || x.state = .running || x.state = .caved || x.state = .parked then g x else done s c 1)

/-- A command on one of a context's buffers (R401). -/
def onBuf (s : State) (c : Cmd) (ctx index : Nat) (g : Context → State) : Host.Outcome State Fault Refusal :=
  onTables s c ctx (fun x => if index ≥ x.btcount then done s c 2 else g x)

/-- The entry that the table holds at an index, valid or not. -/
def btHeld (c : Context) (index : Nat) : Option BtEntry := (c.bt.find? (fun e => e.1 == index)).map (·.2)

/-- A whole frame of one of the 12 stacks of 64 · 10^9 bytes (R3, R5, R394). -/
def frameOk (frame : Nat) : Bool :=
  frame % 2 ^ 17 = 0 && decide (frame / 2 ^ 36 < 12) && decide (frame % 2 ^ 36 + 2 ^ 17 ≤ 64 * 10 ^ 9)

/-- A frame or host page that an interleave set admits (R394, R396). -/
def frameFits (ilv ilvsel frame : Nat) : Bool :=
  if ilv = 4 then frame % 2 ^ 17 = 0 && decide (frame < 2 ^ 40) else frameOk frame && (stacksOf ilv ilvsel).contains (frame / 2 ^ 36)

/-- The pages of an entry that are mapped. -/
def entryPages (s : State) (e : BtEntry) : List PageEntry := if e.rvalid then [] else s.pages.filter (fun p => p.root == e.ptroot)

/-- Whether a page's frames lie in an interleave set. -/
def pageFits (e : BtEntry) (p : PageEntry) : Bool :=
  p.state = .brined || ((if p.ilv = 4 || e.ilv = 4 then p.ilv = e.ilv else frameFits e.ilv e.ilvsel p.loc || p.state = .expanding)
    && (p.target.map (frameFits e.ilv e.ilvsel)).getD true)

/-- BT_SET (R401): status 2 for an entry that breaks R390, or that would strand the pages of the index. -/
def execBtSet (ctx index : Nat) (entry : List Byte) (s : State) : Host.Outcome State Fault Refusal :=
  onBuf s .btSet ctx index (fun c =>
    match parseBt entry with
    | none => done s .btSet 2
    | some e =>
      let old := ((btHeld c index).map (entryPages s)).getD []
      let moves := (btHeld c index).any (fun o => o.ptroot ≠ e.ptroot || o.rvalid != e.rvalid)
      let ps := entryPages s e
      if (moves && !old.isEmpty) || !old.all (pageFits e) || !ps.all (pageFits e) then done s .btSet 2
      else
        let s := s.modCtx ctx (fun c => { c with bt := c.bt.filter (fun x => x.1 ≠ index) ++ [(index, e)] })
        let s := { s with pages := s.pages.map (fun (p : PageEntry) => if ps.any (fun x => x.root = p.root && x.page = p.page) then
          { p with ilv := e.ilv, ilvsel := e.ilvsel } else p) }
        done s .btSet 0)

/-! ## Moving a page's bytes -/

/-- The bytes of a memory in a frame, from its base, and a memory with a frame's bytes replaced. -/
def memFrame (m : Memory) (base : Nat) : Memory :=
  (m.filter (fun c => decide (base ≤ c.1) && decide (c.1 < base + 2 ^ 17))).map (fun c => (c.1 - base, c.2))
def memPaste (m : Memory) (base : Nat) (f : Memory) : Memory :=
  m.filter (fun c => decide (c.1 < base)) ++ (f.filter (fun c => decide (c.1 < 2 ^ 17))).map (fun c => (base + c.1, c.2))
    ++ m.filter (fun c => decide (base + 2 ^ 17 ≤ c.1))

/-- A page's first byte. -/
def PageEntry.base (p : PageEntry) : Loc := p.byteAt 0

/-- The bytes of a page where they lie. -/
def pageBytes (s : State) (p : PageEntry) : Memory :=
  match p.base with
  | .dev a => memFrame s.mem a
  | .host a => memFrame s.hostMem a
  | _ => ((s.brine.find? (fun b => b.addr == p.loc)).map (·.bytes)).getD []

/-- Words in a page's frame have no older values left. -/
def dropOld (s : State) (base : Loc) : State :=
  { s with oldWords := s.oldWords.filter (fun o => !(decide (base.key / 4 ≤ o.word) && decide (o.word < base.key / 4 + 2 ^ 15))) }

/-- What names bytes by location and was made through a page goes with the page's bytes: unpublished writes, monitors and film pairs, and older
values, which stay as well for the other pages that map the old frame (R400, R405) (DEDUCED, log entry 75). -/
def followPage (s : State) (root page : Nat) (old new : Loc) : State :=
  let inside (l : Loc) : Bool := decide (old.key ≤ l.key) && decide (l.key < old.key + 2 ^ 17)
  let move (l : Loc) : Loc := if inside l then new.add (l.key - old.key) else l
  let block (b : Nat) : Nat := if decide (old.key / 64 ≤ b) && decide (b < old.key / 64 + 2 ^ 11) then new.key / 64 + (b - old.key / 64) else b
  let moved := (s.oldWords.filter (fun o => decide (old.key / 4 ≤ o.word) && decide (o.word < old.key / 4 + 2 ^ 15))).map (fun (o : OldWord) =>
    { o with word := new.key / 4 + (o.word - old.key / 4) })
  let shared := s.pages.any (fun p => !(p.root == root && p.page == page) && p.base = old)
  let s := dropOld s new
  let s := if shared then s else dropOld s old
  { s with
    oldWords := s.oldWords ++ moved,
    cells := s.cells.map (fun (c : Cell) =>
      let mine (l : Loc) : Bool := c.marks.any (fun m => m.loc == l && m.page == some (root, page))
      { c with
        view := c.view.map (fun x => (if mine x.1 then move x.1 else x.1, x.2)),
        marks := c.marks.map (fun m => if m.page == some (root, page) then { m with loc := move m.loc } else m),
        squads := c.squads.map (fun (q : Squad) => { q with threads := q.threads.map (fun th =>
          { th with mon := th.mon.map (fun m => if m.pages.contains (root, page) then { m with block := block m.block } else m) }) }) }),
    owners := s.owners.map (fun o => if o.pages.contains (root, page) then { o with loc := move o.loc } else o), replies := s.replies.map (fun r => { r with loc := move r.loc }) }

/-- A frame's bytes written at a frame, host page or brine image. -/
def placeBytes (s : State) (new : Loc) (f : Memory) : State :=
  match new with
  | .dev a => { s with mem := memPaste s.mem a f }
  | .host a => { s with hostMem := memPaste s.hostMem a f }
  | _ => s

/-! ## Ending residency (R400) -/

def Place.onPage (root page : Nat) : Place → Bool
  | .glob a => a.pages.contains (root, page)
  | .scratch _ _ _ => false

/-- Whether a run touches a page. -/
def Run.onPage (r : Run) (root page : Nat) : Bool := r.elems.any (fun e => e.src.onPage root page || e.dst.any (Place.onPage root page))
def runOnPage (s : State) (root page : Nat) : Bool := s.cells.any (fun c => c.runs.any (fun r => r.onPage root page))

/-- Accesses translated before an invalidation are performed on the old frame (R400). A run that awaits a peer stays. -/
def settleAccesses (s : State) (root page : Nat) : State :=
  let s := performLates s (s.late.filter (fun e => e.access.pages.contains (root, page)))
  let s := (s.reqs.filter (fun q => q.pages.contains (root, page))).foldl performReq s
  (s.cells.filter (fun c => c.runs.any (fun r => r.onPage root page))).foldl
    (fun s c => c.runs.foldl (fun s r => landOne s ⟨c.id, r.ctx⟩ r.id) s) s

/-- A page whose residency ends: the accesses are performed, and the batches there abort (R234, R400). -/
def settlePage (s : State) (root page : Nat) : State := settleTerms (settleAccesses s root page) root page

/-- Ends a page's residency once every access to its frame is over; meanwhile the command is held. -/
def endingResidency (s : State) (root page : Nat) (g : State → State) : State :=
  let s := settlePage s root page
  if runOnPage s root page then s else g s

/-! ## The page commands (R398–R401) -/

/-- PG_MAP, PG_BRINE and PG_MIGRATE: an entry that is valid and local. -/
def onPages (s : State) (c : Cmd) (ctx index : Nat) (g : BtEntry → State) : Host.Outcome State Fault Refusal :=
  onBuf s c ctx index (fun x => match btHeld x index with
    | some e => if e.valid && !e.rvalid then g e else done s c 2
    | none => done s c 2)

/-- PG_UNMAP and PG_SCAN: an entry that is local and has a page table. -/
def onTable (s : State) (c : Cmd) (ctx index : Nat) (g : BtEntry → State) : Host.Outcome State Fault Refusal :=
  onBuf s c ctx index (fun x => match btHeld x index with
    | some e => if !e.rvalid && e.ptroot ≠ 0 then g e else done s c 2
    | none => done s c 2)

/-- PG_MAP (R398). -/
def execPgMap (ctx index page frame : Nat) (zero : Bool) (s : State) : Host.Outcome State Fault Refusal :=
  onPages s .pgMap ctx index (fun e =>
    if (s.page? e.ptroot page).isSome then done s .pgMap 1
    else if page ≥ 2 ^ 27 || !frameFits e.ilv e.ilvsel frame then done s .pgMap 2
    else
      let p : PageEntry := ⟨e.ptroot, page, .resident, false, false, frame, e.ilv, e.ilvsel, none, .resident, false⟩
      let s := if zero then placeBytes s p.base [] else s
      let s := if !zero && s.pages.any (fun q => q.base = p.base) then s else dropOld s p.base
      done { s with pages := s.pages ++ [p] } .pgMap 0)

/-- PG_UNMAP (R398, R400): the frame or the brine image goes back to the driver (DEDUCED, log entry 76). -/
def execPgUnmap (ctx index page : Nat) (s : State) : Host.Outcome State Fault Refusal :=
  onTable s .pgUnmap ctx index (fun e =>
    match s.page? e.ptroot page with
    | none => done s .pgUnmap 1
    | some p =>
      if !(p.state = .resident || p.state = .brined || p.state = .poisoned) then done s .pgUnmap 1
      else endingResidency s e.ptroot page (fun s =>
        let s := { s with pages := s.pages.filter (fun x => !(x.root == e.ptroot && x.page == page)),
                          brine := if p.state = PageState.brined then s.brine.filter (fun b => b.addr ≠ p.loc) else s.brine }
        done (s.emit (.returned p.loc)) .pgUnmap 0))

/-- PG_BRINE (R398): compression into the brine region begins. System pages are never brined (R406). -/
def execPgBrine (ctx index page : Nat) (s : State) : Host.Outcome State Fault Refusal :=
  onPages s .pgBrine ctx index (fun e =>
    match s.page? e.ptroot page with
    | none => done s .pgBrine 1
    | some p =>
      if p.state ≠ .resident then done s .pgBrine 1
      else if e.ilv = 4 then done s .pgBrine 2
      else endingResidency s e.ptroot page (fun s =>
        done (s.modPage e.ptroot page (fun p => { p with state := .migrating, back := .brined, target := none })) .pgBrine 0))

/-- Whether a checkpoint is reading a page. -/
def ckptReads (s : State) (root page : Nat) : Bool := match s.ckpt with
  | some j => j.reading && (match j.pages with
    | x :: _ => x.2.1 = root && x.2.2 = page
    | [] => false)
  | none => false

/-- BRINE_DONE (R398): the image is written, the frame is returned and the page is BRINED. -/
def execBrineDone (root page : Nat) (s : State) : Host.Outcome State Fault Refusal :=
  .next (match s.page? root page with
    | none => s
    | some p =>
      if p.state ≠ .migrating || p.back ≠ .brined || p.inImage || ckptReads s root page then s
      else
        let addr := s.brineNext
        let s := { s with brine := s.brine ++ [(⟨addr, pageBytes s p⟩ : BrineImage)], brineNext := addr + 2 ^ 17 }
        let s := s.modPage root page (fun p => { p with state := .brined, loc := addr, inImage := true })
        (followPage s root page p.base (.brine root page 0)).emit (.returned p.loc))

/-- PG_MIGRATE (R398). -/
def execPgMigrate (ctx index page frame : Nat) (s : State) : Host.Outcome State Fault Refusal :=
  onPages s .pgMigrate ctx index (fun e =>
    match s.page? e.ptroot page with
    | none => done s .pgMigrate 1
    | some p =>
      if p.state ≠ .resident then done s .pgMigrate 1
      else if !frameFits e.ilv e.ilvsel frame then done s .pgMigrate 2
      else endingResidency s e.ptroot page (fun s =>
        done (s.modPage e.ptroot page (fun p => { p with state := .migrating, back := .resident, target := some frame })) .pgMigrate 0))

/-- MIGRATE_DONE (R398): the copy ends, the old frame is returned and the page is RESIDENT in the new one. -/
def execMigrateDone (root page : Nat) (s : State) : Host.Outcome State Fault Refusal :=
  .next (match s.page? root page with
    | none => s
    | some p =>
      match p.target with
      | some f =>
        if p.state ≠ .migrating then s
        else
          let new : Loc := if p.ilv = 4 then .host f else .dev f
          let s := followPage (placeBytes s new (pageBytes s p)) root page p.base new
          (s.modPage root page (fun p => { p with state := .resident, loc := f, target := none })).emit (.returned p.loc)
      | none => s)

/-- EXPANSION_DONE (R398): the contents are restored exactly and the image is freed. -/
def execExpansionDone (root page : Nat) (s : State) : Host.Outcome State Fault Refusal :=
  .next (match s.page? root page with
    | none => s
    | some p =>
      match p.target with
      | some f =>
        if p.state ≠ .expanding then s
        else
          let s := followPage (placeBytes s (.dev f) (pageBytes s p)) root page p.base (.dev f)
          let s := { s with brine := s.brine.filter (fun b => b.addr ≠ p.loc) }
          s.modPage root page (fun p => { p with state := .resident, loc := f, target := none, inImage := false })
      | none => s)

/-- PG_POOL (R399, R401): frames of the stack join its pool (DEDUCED, log entry 71). -/
def execPgPool (pool : StackPool) (frames : List Nat) (s : State) : Host.Outcome State Fault Refusal :=
  let stack := pool.stack
  onTables s .pgPool pool.ctx (fun _ => if stack ≥ 12 || !frames.all (fun f => frameOk f && f / 2 ^ 36 = stack) then done s .pgPool 2
    else done { s with pools := (s.pools.filter (fun p => p.1 ≠ stack)) ++ [(stack, poolOf s stack ++ frames)] } .pgPool 0)

/-- PG_SCAN (R403): DIRTY and ACCESSED of each page, cleared in the same step with CLEAR. -/
def execPgScan (ctx index first count : Nat) (clear : Bool) (s : State) : Host.Outcome State Fault Refusal :=
  onTable s .pgScan ctx index (fun e =>
    let bits := (List.range count).map (fun i => match s.page? e.ptroot (first + i) with
      | some p => (p.dirty, p.accessed)
      | none => (false, false))
    let s := s.emit (.scan bits)
    let s := if clear then { s with pages := s.pages.map (fun (p : PageEntry) =>
        if p.root = e.ptroot && first ≤ p.page && decide (p.page < first + count) then { p with dirty := false, accessed := false } else p) }
      else s
    done s .pgScan 0)

/-! ## Checkpoints (R404) -/

def insertPage (x : Nat × Nat × Nat) : List (Nat × Nat × Nat) → List (Nat × Nat × Nat)
  | [] => [x]
  | y :: r => if x.1 < y.1 || (x.1 = y.1 && x.2.2 ≤ y.2.2) then x :: y :: r else y :: insertPage x r

/-- Begins the next page of a checkpoint that is to be copied: DIRTY is cleared and the page enters MIGRATING in one step; poisoned
pages are listed, and a page in motion is waited for. -/
def ckptNext : Nat → State → State
  | 0, s => s
  | n + 1, s =>
    match s.ckpt with
    | none => s
    | some j =>
      if j.reading then s
      else
        match j.pages with
        | [] => s
        | (i, root, page) :: rest =>
          let skip (sk : List (Nat × Nat)) : State := ckptNext n { s with ckpt := some { j with pages := rest, skipped := j.skipped ++ sk } }
          match s.page? root page with
          | none => skip []
          | some p =>
            match p.state with
            | .poisoned => skip [(i, page)]
            | .unmapped => skip []
            | .expanding => s
            | .migrating => s
            | _ =>
              if !j.full && !p.dirty then skip []
              else
                let s := settleAccesses s root page
                if runOnPage s root page then s
                else
                  let s := s.modPage root page (fun q => { q with state := .migrating, back := p.state, target := none, dirty := false })
                  { s with ckpt := some { j with reading := true } }

/-- CKPT (R404): the pages of the named buffers in ascending index and page. -/
def execCkpt (ctx : Nat) (buffers : List Nat) (target : Dword) (full : Bool) (s : State) : Host.Outcome State Fault Refusal :=
  onTables s .ckpt ctx (fun x =>
    if s.ckpt.isSome then s
    else
      let pool := match btEntry? s ctx (refIndex target) with
        | some e => e.rvalid && e.wr
        | none => false
      if !pool || !buffers.all (fun i => decide (i < x.btcount)) then done s .ckpt 2
      else
        let pages := buffers.flatMap (fun i => (((btHeld x i).map (entryPages s)).getD []).map (fun p => (i, p.root, p.page)))
        let pages := (dedup pages).foldl (fun l p => insertPage p l) []
        ckptNext (pages.length + 1) { s with ckpt := some ⟨ctx, pages, false, full, [], target⟩ })

/-- CKPT_PAGE_READ (R404): the page's bytes are in the link switch, which sends them to the target's pool, and it returns to its state; a brined
page goes as its image, and one that the read has found POISONED is skipped (DESIGN CHOICE, log entry 137). -/
def execCkptPageRead (s : State) : Host.Outcome State Fault Refusal :=
  .next (match s.ckpt with
    | none => s
    | some j =>
      if !j.reading then ckptNext (j.pages.length + 1) s
      else
        match j.pages with
        | [] => s
        | (i, root, page) :: rest =>
          let onward (s : State) (sk : List (Nat × Nat)) : State :=
            ckptNext (rest.length + 1) { s with ckpt := some { j with pages := rest, reading := false, skipped := j.skipped ++ sk } }
          match s.page? root page with
          | some p =>
            if p.state = PageState.migrating then
              let pool : Nat × Nat × Nat := match btEntry? s j.ctx (refIndex j.target) with
                | some e => (e.peer, e.pctx, e.pidx)
                | none => (0, 0, 0)
              onward ((s.emit (.pageImage pool (refOff j.target) i page (pageBytes s p) p.inImage)).modPage root page (fun q => { q with state := q.back })) []
            else onward s (if p.state = PageState.poisoned then [(i, page)] else [])
          | none => onward s [])

/-- CKPT_COMPLETE (R404): the result lists the pages that were skipped. -/
def execCkptComplete (s : State) : Host.Outcome State Fault Refusal :=
  .next (match s.ckpt with
    | none => s
    | some j =>
      if j.reading || !j.pages.isEmpty then s
      else done (({ s with ckpt := none }).emit (.skipped j.skipped)) .ckpt 0)

end Sys2Proof.Machine
end

