-- ==== Sys2Proof/Machine/Kernel.lean ====
section
/-! DEFINITION. The kernel check (R317–R319, R321): parsing a launch descriptor, the refusals, the arguments, the bitmap and the binding
to a producer. -/
namespace Sys2Proof.Machine
open Sys2Proof

/-- The fields of R317 that lie within their ranges, with a grid that a prologue may have replaced (R306). -/
def descLegal (b : List Byte) (gx gy gz : Nat) : Bool :=
  let f (off n : Nat) : Nat := byteField b off n
  let ext (n : Nat) : Bool := 1 ≤ n && n ≤ 65535
  b.length = 128 && ext gx && ext gy && ext gz && f 8 4 % 4 = 0 && 1 ≤ f 18 1 && f 18 1 ≤ 32 && 1 ≤ f 19 1 && f 19 1 ≤ 12 && f 20 1 ≤ 8
    && f 21 1 % 16 ≤ 8 && f 21 1 < 128 && f 22 2 ≤ 2048 && 1 ≤ f 24 1 && f 24 1 ≤ 144 && f 25 1 % 8 ≤ 4 && f 25 1 / 32 % 4 ≠ 3
    && f 26 1 < 2 && f 27 1 = 0 && f 36 4 = 0 && f 40 8 % 8 = 0 && f 48 8 % 8 = 0 && f 66 1 < 32 && f 67 1 = 0
    && decide (toSigned 16 (f 68 2) ≤ toSigned 16 (f 70 2)) && f 74 1 < 32 && f 75 1 = 0
    && decide (toSigned 16 (f 76 2) ≤ toSigned 16 (f 78 2)) && b.drop 80 = List.replicate 48 0

/-- A launch descriptor's fields (R317). -/
def descFields (b : List Byte) (gx gy gz : Nat) : LaunchDesc :=
  let f (off n : Nat) : Nat := byteField b off n
  { codeRef := dword (f 0 8), entry := f 8 4, gx := gx, gy := gy, gz := gz,
    shape := ⟨f 18 1, 16 * f 19 1, 8 * f 20 1, 256 * f 22 2, f 21 1 % 16, tb (f 21 1) 4, f 21 1 / 32 % 4⟩,
    gcells := f 24 1, scope := f 25 1 % 8, fused := tb (f 25 1) 3, det := tb (f 25 1) 4, tmode := f 25 1 / 32 % 4, steal := tb (f 25 1) 7,
    xpauto := tb (f 26 1) 0, deadline := f 28 4, xpstart := f 32 4, argRef := dword (f 40 8), bmapRef := dword (f 48 8),
    prodDesc := dword (f 56 8), mx := f 64 2, sx := f 66 1, ox0 := toSigned 16 (f 68 2), ox1 := toSigned 16 (f 70 2),
    my := f 72 2, sy := f 74 1, oy0 := toSigned 16 (f 76 2), oy1 := toSigned 16 (f 78 2) }

/-- What XPLAUNCH launches (R308): cells of one core with no squads and context XP1, started at START with x1 := ARG. -/
def xpDesc (codeRef : Dword) (start gx gy gz scr : Nat) (arg : Dword) : LaunchDesc :=
  { codeRef := codeRef, entry := 0, gx := gx, gy := gy, gz := gz, shape := ⟨0, 0, 0, 4096 * scr, 0, false, 1⟩, gcells := 1, scope := 0,
    fused := false, det := false, tmode := 0, steal := false, xpauto := true, deadline := 0, xpstart := start, argRef := arg, bmapRef := 0,
    prodDesc := 0, mx := 0, sx := 0, ox0 := 0, ox1 := 0, my := 0, sy := 0, oy0 := 0, oy1 := 0 }

/-- Clusters that a queue's PPART allows, 0 standing for all of the context's (R291, R316). -/
def Queue.part (q : Queue) : BitVec 24 := if q.ppart = 0 then BitVec.allOnes 24 else q.ppart
def queuePset (q : Queue) (c : Context) : BitVec 24 := q.part &&& c.pset

/-- Cells of a shape that the enabled cores of a unit could hold if they were empty (R21, R12). -/
def unitCapacity (s : State) (d : LaunchDesc) (u : Nat) : Nat :=
  ((unitCores d.unitScope u).map (fun c => if enabled s c then (if d.fused then min 1 (Use.none.room d.shape) else Use.none.room d.shape) else 0)).sum

/-- The refusals of R319 that need no access to memory. -/
def descRefused (s : State) (q : Queue) (c : Context) (d : LaunchDesc) (gangLight : Bool) : Bool :=
  let n := d.gx * d.gy * d.gz
  n % d.gcells ≠ 0 || Use.none.room d.shape = 0 || decide (d.shape.squads * 32 * d.shape.wregs > 32768)
    || (c.light && (d.shape.rind || gangLight || decide (c.btcount > 64)))
    || (d.tmode ≠ 0 && (d.tmode = 2) ≠ c.tmode)
    || (d.fused && (d.scope ≠ 1 || decide (d.gcells > 6)))
    || (d.steal && (decide (d.gcells > 1) || d.prodDesc ≠ 0))
    || (q.maxCells ≠ 0 && decide (d.gcells > q.maxCells))
    || !(List.range (unitCount d.unitScope)).any (fun u =>
      unitWithin (queuePset q c) d.unitScope u && decide (unitCapacity s d u ≥ d.gcells))

/-- Whether a kernel record is of a launch of a descriptor in a context, passed or refused (R321). -/
def Kernel.launchOf (k : Kernel) (ctx : Nat) (descRef : Dword) : Bool := k.ctx = ctx && k.descRef = descRef && !k.xpOnly

/-- The latest launch of a descriptor in a context that was checked; the record of a refused one is CANCELLED and so cancels what binds
to it (R320, R321). -/
def latestLaunch (s : State) (ctx : Nat) (descRef : Dword) : Option Kernel := s.kernels.reverse.find? (fun k => k.launchOf ctx descRef)

/-- A relaunch is held while a consumer bound to an earlier launch has cells not started (R321). -/
def relaunchHeld (s : State) (ctx : Nat) (descRef : Dword) : Bool :=
  s.kernels.any (fun k => k.launchOf ctx descRef && s.kernels.any (fun c => c.producer = some k.id && !c.ended && !c.doomed && !c.unplaced.isEmpty))

/-- How a kernel check ends: passed or refused, with the kernel's record, or waiting. -/
inductive KCheck where
  | passed (s : State) (id : Nat)
  | refused (s : State)
  | waits (s : State)

/-- The record of a kernel that has been checked. -/
def newKernel (s : State) (q : Queue) (c : Context) (entry : Nat) (descRef : Dword) (d : LaunchDesc) (args : List Dword)
    (producer : Option Nat) (xpOnly : Bool) : Kernel :=
  { id := s.nextKernel, ctx := q.ctx, descRef := descRef, desc := d, args := args, state := .pending, code := 0, prio := q.prio, lp := q.lp,
    qid := q.qid, entry := entry, strict := d.det || c.strict, deadline := min (if d.deadline = 0 then 20000 else d.deadline) c.dlmax,
    pset := q.part, maxCells := q.maxCells, producer := producer, unplaced := List.range (d.gx * d.gy * d.gz / d.gcells), exited := [],
    doomed := false, headGang := none, headSince := s.clk, reserved := [], xpOnly := xpOnly, steal := [], seen := [] }

/-- A refused kernel is CANCELLED at once with CODE 1, which the driver is told (R319, R320) (DEDUCED, log entry 58). -/
def refuseKernel (s : State) (k : Kernel) : KCheck :=
  let k := { k with state := .cancelled, code := 1, producer := none, unplaced := [] }
  let s := { s with kernels := s.kernels ++ [k], nextKernel := s.nextKernel + 1 }
  .refused (tellKernel (kernelRecord s k 1) k.id)

/-- A kernel that passes is PENDING, or ends at once when its producer has already failed (R320). -/
def acceptKernel (s : State) (k : Kernel) : KCheck :=
  let s := tellKernel { s with kernels := s.kernels ++ [k], nextKernel := s.nextKernel + 1 } k.id
  match k.producer.bind s.kernel? with
  | some p => if p.state = .cancelled || p.state = .faulted then .passed (endKernel 1 s k.id .cancelled 2) k.id else .passed s k.id
  | none => .passed s k.id

/-- A read of the launch processor for a queue: bytes, a wait, or a failure. -/
inductive LpRead where
  | bytes (b : List Byte) (s : State)
  | waits (s : State)
  | bad

/-- Reads by an immediate-class access of a queue's context: a page in motion makes the launch processor wait, and so does a peer's buffer,
whose peer is asked (R292, R298, R406, R414). -/
def lpRead (s : State) (q : Queue) (r : Dword) (n align : Nat) : LpRead :=
  match readyFor s (.queue q.qid) none (checkBuffer s q.ctx needLoadImm (refIndex r) (refOff r) n align) with
  | .ok a => .bytes (homeRead s none a).1 (homeRead s none a).2
  | .bad _ _ => .bad
  | w => .waits (beginWait s (.queue q.qid) w)

def dwordsOf (b : List Byte) : List Dword := (chunksOf 8 b.length b).map (fun x => dword (leNat x))

/-- The argument words of a descriptor (R318). -/
def argWords (s : State) (q : Queue) (argRef : Dword) : LpRead :=
  if argRef = 0 then .bytes (List.replicate 128 0) s else lpRead s q argRef 128 8

/-- Clears a bitmap by immediate-class stores before the kernel is accepted; a store that fails refuses it (R319). -/
def clearThenAccept (s : State) (q : Queue) (a : Access) (n : Nat) (k : Kernel) : KCheck :=
  match putFor s (.queue q.qid) none a (List.replicate n 0) with
  | .waits s => .waits s
  | .done s => acceptKernel s k
  | .bad _ => refuseKernel s k

/-- Whether another queue's launch of a descriptor, checked, has its bitmap being cleared at a peer: a consumer checked later binds to that
launch, and waits for its record (R319, R321). -/
def clearing (s : State) (q : Queue) (descRef : Dword) : Bool :=
  s.queues.any (fun y => y.qid ≠ q.qid && y.ctx = q.ctx && s.asks.any (fun a => a.who = .queue y.qid && opOrdered a.op) && (match y.head.map Entry.kind with
    | some (.launch d) => d = descRef
    | some (.launchInd d _ _ _) => d = descRef
    | _ => false))

/-- Checks a parsed kernel (R319): its code, of which a peer makes its own checks (R406), its bitmap, which is cleared, and its producer. -/
def checkParsed (s : State) (q : Queue) (c : Context) (entry : Nat) (descRef : Dword) (d : LaunchDesc) (args : List Dword) (xpOnly : Bool) : KCheck :=
  let k := newKernel s q c entry descRef d args none xpOnly
  let n := (d.gx * d.gy * d.gz + 7) / 8
  let code := readyFor s (.queue q.qid) none (checkBuffer s q.ctx needExec (refIndex d.codeRef) d.entry 4 4)
  let bm (need : Need) : Checked := checkBuffer s q.ctx need (refIndex d.bmapRef) (refOff d.bmapRef) n 1
  let prod : Option (Option Nat) :=
    if d.prodDesc = 0 then some none
    else match latestLaunch s q.ctx d.prodDesc with
      | some p => if p.desc.bmapRef = 0 then none else some (some p.id)
      | none => none
  match code, (if d.prodDesc ≠ 0 && clearing s q d.prodDesc then none else some prod) with
  | .page r p, _ => .waits (firstTouch s r p)
  | .peer a, _ => .waits (beginWait s (.queue q.qid) (.peer a))
  | .bad _ _, _ => refuseKernel s k
  | .ok _, none => .waits s
  | .ok _, some none => refuseKernel s k
  | .ok _, some (some p) =>
    if d.bmapRef = 0 then acceptKernel s { k with producer := p }
    else
      match bm needStoreImm, bm needAtomic with
      | .ok a, .ok _ => clearThenAccept s q a n { k with producer := p }
      | .bad _ _, _ => refuseKernel s k
      | _, .bad _ _ => refuseKernel s k
      | .waits r p, _ => .waits (firstTouch s r p)
      | _, .waits r p => .waits (firstTouch s r p)

/-- The kernel check of a LAUNCH, or of a LAUNCH_IND with its prologue's grid and arguments (R319, R306). -/
def checkKernel (s : State) (q : Queue) (entry : Nat) (descRef : Dword) (pro : Option ((Nat × Nat × Nat) × List Dword)) : KCheck :=
  match s.ctx? q.ctx with
  | none => .waits s
  | some c =>
    if relaunchHeld s q.ctx descRef then .waits s
    else
      match lpRead s q descRef 128 64 with
      | .waits s => .waits s
      | .bad => refuseKernel s (newKernel s q c entry descRef (xpDesc 0 0 0 0 0 0 0) [] none false)
      | .bytes b s =>
        let g := (pro.map (·.1)).getD (byteField b 12 2, byteField b 14 2, byteField b 16 2)
        let d := descFields b g.1 g.2.1 g.2.2
        if !descLegal b g.1 g.2.1 g.2.2 || descRefused s q c d (d.shape.xp ≠ 0) then refuseKernel s (newKernel s q c entry descRef d [] none false)
        else
          match pro with
          | some x => checkParsed s q c entry descRef d x.2 false
          | none =>
            match argWords s q d.argRef with
            | .waits s => .waits s
            | .bad => refuseKernel s (newKernel s q c entry descRef d [] none false)
            | .bytes ab s => checkParsed s q c entry descRef d (dwordsOf ab) false

/-- The check of an XPLAUNCH (R308). -/
def checkXpKernel (s : State) (q : Queue) (entry : Nat) (d : LaunchDesc) : KCheck :=
  match s.ctx? q.ctx with
  | none => .waits s
  | some c =>
    if descRefused s q c d true then refuseKernel s (newKernel s q c entry 0 d [] none true)
    else checkParsed s q c entry 0 d (List.replicate 16 0) true

end Sys2Proof.Machine
end

