-- ==== Sys2Proof/Machine/Queue.lean ====
section
/-! DEFINITION. Queues and launch processors (R289–R316): loading the user half, reading an entry, the holds, the choice among queues, the entry
kinds, and the queue commands. -/
namespace Sys2Proof.Machine
open Sys2Proof

/-! ## Status codes (R293) -/

/-- The record of a code in the context's fault ring (R293, R365). -/
def codeRecord (s : State) (ctx qid lp index code sub pc info : Nat) (progress : Dword) : State :=
  writeRecord s ctx ⟨3, code, sub, 0, 0xFFFF, lp, 0xFF, index % 2 ^ 32, 0, pc, qid % 2 ^ 12, 0, info, progress⟩

/-- A code is written to CODE and QCODE and recorded in the context's fault ring. -/
def queueCode (s : State) (q : Queue) (index code sub pc info : Nat) (progress : Dword) : State :=
  let s := mirror (s.modQueue q.qid (fun q => { q with code := code })) q 25 [BitVec.ofNat 8 code]
  codeRecord s q.ctx q.qid q.lp index code sub pc info progress

/-- The code of an entry whose work runs on; one whose queue has been destroyed is recorded alone (R295). -/
def jobCode (s : State) (ctx qid lp index code : Nat) (progress : Dword) : State :=
  match s.queue? qid with
  | some q => queueCode s q index code 0 0 0 progress
  | none => codeRecord s ctx qid lp index code 0 0 0 progress

/-- A prologue is over: what it still awaits from a peer is answered to nobody. -/
def dropPrologue (s : State) (lp : Nat) : State :=
  let use (r : RemoteReq) : RemoteReq := match r.use with
    | .store (some t) ref c p => if t = proTid lp then { r with use := .store none ref c p } else r
    | _ => r
  let s := { s with remote := (s.remote.filter (fun (r : RemoteReq) => match r.use with
    | .uload t _ _ _ _ => t ≠ proTid lp
    | _ => true)).map use }
  let s := match (s.lps[lp]?).bind LaunchProc.prologue with
    | some p => dropAsks s (.queue p.qid)
    | none => s
  s.modLp lp (fun l => { l with prologue := none })

/-- A prologue of a queue is abandoned. -/
def dropPrologueOf (s : State) (q : Queue) : State :=
  match (s.lps[q.lp]?).bind LaunchProc.prologue with
  | some p => if p.qid = q.qid then dropPrologue s q.lp else s
  | none => s

/-- A queue stops with its head entry unconsumed; RQCOUNT and a repeating kernel stay with the entry (R293, R306). -/
def stopQueue (s : State) (q : Queue) : State :=
  let s := dropAsks (dropPrologueOf s q) (.queue q.qid)
  setQState (s.modQueue q.qid (fun q => { q with head := none, armed := false, pending := none, sample := none })) q.qid .error

/-- A code marked ERROR. -/
def queueError (s : State) (q : Queue) (code : Nat) : State := stopQueue (queueCode s q q.ridx code 0 0 0 0) q

/-- The contexts whose queues are served (R281). -/
def ctxServes (s : State) (q : Queue) : Bool := match s.ctx? q.ctx with
  | some c => c.state = .bound || c.state = .running || c.state = .caved || c.state = .parked
  | none => false

/-- A queue that has become IDLE or HELD ends its run of entries (R315). -/
def endRun (s : State) (q : Queue) : State :=
  s.modLp q.lp (fun l => { l with served := l.served.modify q.prio (fun o => o.map (fun x => if x.1 = q.qid then (x.1, max x.2 q.weight) else x)) })

/-- The queue's head entry waits (R302). -/
def holdQueue (s : State) (q : Queue) : State := setQState (endRun s q) q.qid .held

/-! ## Loading the user half and reading an entry (R290, R292, R296–R301) -/

/-- The user half's checks of R292, in order. -/
def userCode (s : State) (q : Queue) (b : List Byte) : Option Nat :=
  let widx := byteField b 0 8
  let ring := dword (byteField b 8 8)
  let ringOk := refOff ring % 64 = 0 && (match btEntry? s q.ctx (refIndex ring) with
    | some e => e.rd && e.owner = q.ctx && decide (refOff ring + 64 * 2 ^ q.rsizeLog2 ≤ e.length)
        && (!e.rvalid || s.routes.any (fun r => r.1 == e.peer))
    | none => false)
  if !ringOk then some 1
  else if widx < q.ridx || widx - q.ridx ≥ 2 ^ 31 then some 2
  else if byteField b 26 2 ≠ 0 || byteField b 28 1 ≥ 8 || byteField b 29 1 ≥ 2 || b.drop 30 ≠ List.replicate 34 0 then some 3
  else none

/-- The layout of an entry (R297, R301): its 64 bytes, and what they ask for. -/
def parseKind (b : List Byte) : Option EntryKind :=
  let f (off n : Nat) : Nat := byteField b off n
  let zeros (a z : Nat) : Bool := (b.drop a).take (z - a) = List.replicate (z - a) 0
  let ext (n : Nat) : Bool := 1 ≤ n
  if f 5 1 ≥ 2 || f 6 2 ≠ 0 then none
  else
    match f 4 1 with
    | 0 => if zeros 8 64 then some .nop else none
    | 1 => if zeros 16 64 then some (.launch (dword (f 8 8))) else none
    | 2 => if f 24 4 % 4 = 0 && zeros 28 32 && zeros 40 64 then some (.launchInd (dword (f 8 8)) (dword (f 16 8)) (word (f 24 4)) (dword (f 32 8)))
      else none
    | 3 => if ext (f 20 2) && ext (f 22 2) && ext (f 24 2) && f 26 1 ≤ 128 && zeros 27 32 && zeros 40 64 then
        some (.xplaunch (dword (f 8 8)) (f 16 4) (f 20 2) (f 22 2) (f 24 2) (f 26 1) (dword (f 32 8))) else none
    | 4 => if f 24 8 < 2 ^ 44 && zeros 32 64 then some (.copy (dword (f 8 8)) (dword (f 16 8)) (f 24 8)) else none
    | 5 => some (.qfence (((List.range 7).map (fun i => (f (8 + 8 * i) 2, f (10 + 8 * i) 6))).filter (fun x => x.1 ≠ 0xFFFF)))
    | 6 => if f 8 8 % 8 = 0 && zeros 24 64 then some (.signal (dword (f 8 8)) (dword (f 16 8))) else none
    | 7 => if f 8 8 % 8 = 0 && f 24 1 ≤ 2 && zeros 25 32 && zeros 36 64 then
        some (.wait (dword (f 8 8)) (dword (f 16 8)) (f 24 1) (f 32 4)) else none
    | 8 => if zeros 14 16 && f 16 4 < 1000000000 && zeros 20 24 && f 24 8 % 16 = 0 && zeros 32 64 then
        some (.timed (f 8 6) (f 16 4) (dword (f 24 8))) else none
    | 9 => if zeros 16 64 then some (.collective (dword (f 8 8))) else none
    | _ => none

/-- The slot of an index of a queue's ring. -/
def slotOff (q : Queue) (ring : Dword) (index : Nat) : Nat := refOff ring + 64 * (index % 2 ^ q.rsizeLog2)

/-- A read of a slot (R298). -/
def slotRead (s : State) (q : Queue) (ring : Dword) (off n : Nat) : LpRead :=
  lpRead s q (mkRef (refIndex ring) (slotOff q ring q.ridx + off)) n 8

/-- The queue is IDLE with its monitors armed (R296, R298). -/
def goIdle (s : State) (q : Queue) : State :=
  setQState ((dropAsks (endRun s q) (.queue q.qid)).modQueue q.qid (fun q => { q with woken := false })) q.qid .idle

/-- Reads the head entry's slot (R298). -/
def readHead (s : State) (q : Queue) (ring : Dword) : State :=
  match slotRead s q ring 0 8 with
  | .waits s => s
  | .bad => queueError s q 1
  | .bytes h s =>
    let seq := byteField h 0 4
    let delta := toSigned 32 ((seq + 2 ^ 32 - (q.ridx + 1) % 2 ^ 32) % 2 ^ 32)
    if delta = 0 then
      match slotRead s q ring 8 56 with
      | .waits s => s
      | .bad => queueError s q 1
      | .bytes b s =>
        match parseKind (h ++ b) with
        | none => queueError s q 4
        | some k => setQState ((dropAsks s (.queue q.qid)).modQueue q.qid (fun q =>
            { q with head := some ⟨q.ridx, tb (byteField h 5 1) 0, k⟩, armed := false })) q.qid .ready
    else if seq = 0 then goIdle s q
    else if delta % (2 ^ q.rsizeLog2 : Nat) ≠ 0 then queueError s q 4
    else if delta < 0 then goIdle s q
    else queueError s q 5

/-- QUEUE_WAKE (R292, R296): an IDLE queue's user half is loaded and checked, and its next entry read. -/
def execQueueWake (qid : Nat) (s : State) : Host.Outcome State Fault Refusal :=
  .next (match s.queue? qid with
    | none => s
    | some q =>
      if q.state ≠ .idle || !ctxServes s q then s
      else
        match lpRead s q q.uref 64 64 with
        | .waits s => s
        | .bad => queueError s q 3
        | .bytes b s =>
          match userCode s q b with
          | some c => queueError s q c
          | none =>
            let ring := dword (byteField b 8 8)
            let s := s.modQueue qid (fun q => { q with prio := min (byteField b 28 1 % 8) q.maxPrio, ringRef := ring })
            if tb (byteField b 29 1) 0 || byteField b 0 8 = q.ridx then goIdle s q else readHead s q ring)

/-! ## Holds (R302) -/

/-- Kinds that run work of a context, which must be BOUND or RUNNING for them. -/
def EntryKind.needsContext : EntryKind → Bool
  | .launch _ => true | .launchInd _ _ _ _ => true | .xplaunch _ _ _ _ _ _ _ => true | .copy _ _ _ => true | .collective _ => true
  | _ => false

/-- Kinds issued only when every earlier entry has completed (R311, R426). -/
def EntryKind.afterAll : EntryKind → Bool
  | .signal _ _ => true | .collective _ => true
  | _ => false

/-- Kinds that hold on a condition of their own. -/
def EntryKind.holds : EntryKind → Bool
  | .qfence _ => true | .wait _ _ _ _ => true | .timed _ _ _ => true
  | _ => false

/-- Whether a head entry is held by what R302 says of every kind, or by a peer that has not answered (R414). -/
def heldBy (s : State) (q : Queue) (e : Entry) : Bool :=
  asking s (.queue q.qid) || ((e.serial || e.kind.afterAll) && !q.open'.isEmpty) || q.repeatOf.isSome
    || (e.kind.needsContext && (match s.ctx? q.ctx with
      | some c => c.state ≠ .bound && c.state ≠ .running
      | none => true))
    || (match e.kind with
      | .launch d => relaunchHeld s q.ctx d
      | .launchInd d _ _ _ => q.pending.isSome && relaunchHeld s q.ctx d
      | _ => false)

/-- HELD_RELEASE (R302): the condition of a HELD queue has cleared. -/
def execHeldRelease (qid : Nat) (s : State) : Host.Outcome State Fault Refusal :=
  .next (match s.queue? qid with
    | none => s
    | some q =>
      match q.head with
      | none => s
      | some e => if ctxServes s q && q.state = .held && !e.kind.holds && !heldBy s q e then setQState s qid .ready else s)

/-! ## The choice among queues (R315) -/

/-- Whether a launch processor runs a prologue. -/
def proRuns (s : State) (lp : Nat) : Bool := match (s.lps[lp]?).bind LaunchProc.prologue with
  | some p => p.ended.isNone
  | none => false

/-- Whether a launch processor has a prologue to run or to act upon: it issues nothing else then (R307, R315). -/
def proHolds (s : State) (lp : Nat) : Bool := ((s.lps[lp]?).bind LaunchProc.prologue).isSome

/-- A queue whose head entry may be issued. -/
def issuable (s : State) (q : Queue) : Bool := q.state = .ready && ctxServes s q && (match q.head with
  | some e => !heldBy s q e && (!e.kind.holds || q.armed)
      && (match (s.lps[q.lp]?).bind LaunchProc.prologue, e.kind with
        | some p, .launchInd _ _ _ _ => p.qid = q.qid
        | _, _ => true)
  | none => false)

/-- A launch processor has issued an entry within the last 32 clk. -/
def paced (s : State) (lp : Nat) : Bool := match (s.lps[lp]?).bind LaunchProc.lastIssue with
  | some t => decide (s.clk < t + 32)
  | none => false

/-- The queue that a launch processor serves next, when 32 clk have passed since its last issue and it has no prologue to run or to act upon
(R307, R315). -/
def pickQueue (s : State) (lp : Nat) : Option Nat :=
  match s.lps[lp]? with
  | none => none
  | some l =>
    if s.blocksDown.contains lp || proHolds s lp || paced s lp then none
    else
      let ready := s.queues.filter (fun q => q.lp = lp && issuable s q)
      let timed := ready.filter (fun q => match q.timedAt with
        | some (t, n) => decide (s.clk ≤ t + 200) && decide (0 < n)
        | none => false)
      match (timed.map (·.qid)).min? with
      | some i => some i
      | none =>
        let top := (ready.map (·.prio)).foldl max 0
        let level := ready.filter (fun q => q.prio = top)
        let lowest := (level.map (·.qid)).min?
        match (l.served.getD top none) with
        | none => lowest
        | some (last, run) =>
          if level.any (fun q => q.qid = last && decide (run < q.weight)) then some last
          else
            match (((level.map (·.qid)).filter (fun i => decide (last < i))).min?) with
            | some i => some i
            | none => lowest

/-- Whether a queue's turn has come. -/
def turnOf (s : State) (q : Queue) : Bool := pickQueue s q.lp = some q.qid

/-- The launch processor has issued an entry of a queue (R315). -/
def served (s : State) (q : Queue) : State :=
  let bump (o : Option (Nat × Nat)) : Option (Nat × Nat) := match o with
    | some (i, n) => if i = q.qid then some (i, if n < q.weight then n + 1 else 1) else some (q.qid, 1)
    | none => some (q.qid, 1)
  let timed := (match q.timedAt with
    | some (t, n) => decide (s.clk ≤ t + 200) && decide (0 < n)
    | none => false)
  let s := s.modQueue q.qid (fun q => { q with timedAt := q.timedAt.map (fun x => (x.1, x.2 - 1)) })
  s.modLp q.lp (fun l => { l with lastIssue := some s.clk, served := if timed then l.served else l.served.modify q.prio bump })

/-- The head entry is issued (R299): RIDX and RDONE advance, and the queue looks for its next entry. -/
def consume (s : State) (q : Queue) : State :=
  let s := (dropAsks s (.queue q.qid)).modQueue q.qid (fun q =>
    { q with ridx := q.ridx + 1, head := none, rqcount := 0, armed := false, pending := none, sample := none, woken := true })
  let s := mirror s q 16 (leBytes 8 (q.ridx + 1))
  setQState s q.qid .idle

/-- Acts on the head entry of a queue whose turn has come. -/
def onTurn (s : State) (qid : Nat) (g : Queue → Entry → State) : Host.Outcome State Fault Refusal :=
  .next (match s.queue? qid with
    | none => s
    | some q =>
      match q.head with
      | none => s
      | some e =>
        if !ctxServes s q then s
        else if q.state = .ready && heldBy s q e then holdQueue s q
        else if turnOf s q then g q e
        else s)

/-! ## NOP, LAUNCH, XPLAUNCH (R301, R303, R308) -/

/-- NOP_ENTRY (R301): completes when issued. -/
def execNopEntry (qid : Nat) (s : State) : Host.Outcome State Fault Refusal :=
  onTurn s qid (fun q e => match e.kind with
    | .nop => consume (served s q) q
    | _ => s)

/-- The entry of a refused launch ends with LAUNCH_REFUSED (R293, R303). -/
def refusedEntry (s : State) (q : Queue) (e : Entry) : State := consume (queueCode s q e.index 8 0 0 0 0) q

/-- A kernel check's outcome for an entry that launches it (R302, R303). -/
def launched (q : Queue) (e : Entry) : KCheck → State
  | .waits s => holdQueue (completeEntry s q.qid e.index) q
  | .refused s => refusedEntry (completeEntry (served s q) q.qid e.index) q e
  | .passed s _ => consume (served s q) q

/-- The entry as issued and not complete. -/
def opened (s : State) (q : Queue) (e : Entry) : State := s.modQueue q.qid (fun q => { q with open' := q.open' ++ [e.index] })

/-- LAUNCH (R303). -/
def execLaunch (qid : Nat) (s : State) : Host.Outcome State Fault Refusal :=
  onTurn s qid (fun q e => match e.kind with
    | .launch d => launched q e (checkKernel (opened s q e) q e.index d none)
    | _ => s)

/-- XPLAUNCH (R308). -/
def execXplaunch (qid : Nat) (s : State) : Host.Outcome State Fault Refusal :=
  onTurn s qid (fun q e => match e.kind with
    | .xplaunch code start gx gy gz scr arg => launched q e (checkXpKernel (opened s q e) q e.index (xpDesc code start gx gy gz scr arg))
    | _ => s)

/-! ## LAUNCH_IND (R304–R307) -/

/-- The registers a prologue starts with (R305); the words of a descriptor that cannot be read are free. -/
def proStart (s : State) (q : Queue) (e : Entry) (param : Dword) (desc : Option (List Byte)) (args : Option (List Dword)) : List Dword × State :=
  let free (i : Nat) : Dword := Config.freeDword (s.free + i)
  let words := (List.range 16).map (fun i => match args with
    | some l => l.getD i 0
    | none => free i)
  let grid := match desc with
    | some b => [dword (byteField b 12 2), dword (byteField b 14 2), dword (byteField b 16 2)]
    | none => [free 16, free 17, free 18]
  ([0, dword e.index, dword q.rqcount, mkRef (refIndex q.ringRef) (slotOff q q.ringRef e.index), param] ++ List.replicate 19 0
      ++ [dword q.ctx] ++ List.replicate 7 0 ++ words ++ grid ++ List.replicate 9 0, { s with free := s.free + 19 })

/-- Starts the prologue of the head entry (R304, R305), or waits for a page. -/
def startPrologue (s : State) (q : Queue) (e : Entry) (descRef proRef : Dword) (pentry : Word) (param : Dword) : State :=
  let go (s : State) (desc : Option (List Byte)) (args : Option (List Dword)) : State :=
    let x := proStart s q e param desc args
    let p : Prologue := { qid := q.qid, ctx := q.ctx, code := proRef, pc := word (refOff proRef) + pentry, k := x.1, p := 0, startAt := none,
                          descRef := descRef, ended := none }
    (dropAsks x.2 (.queue q.qid)).modLp q.lp (fun l => { l with prologue := some p, lastIssue := some s.clk })
  match lpRead s q descRef 128 64 with
  | .waits s => holdQueue s q
  | .bad => go s none none
  | .bytes b s =>
    match argWords s q (dword (byteField b 40 8)) with
    | .waits s => holdQueue s q
    | .bad => go s (some b) none
    | .bytes a s => go s (some b) (some (dwordsOf a))

/-- An entry that launches nothing ends with a code (R293, R306, R307). -/
def endEntry (s : State) (q : Queue) (e : Entry) (code sub pc : Nat) : State :=
  consume (queueCode (served s q) q e.index code sub pc sub 0) q

/-- The launch of a prologue that has ended with disposition 0 or 2 (R306). -/
def launchAfter (s : State) (q : Queue) (e : Entry) (p : Prologue) (again : Bool) : State :=
  let at' (i : Nat) : Dword := p.k.getD i 0
  let given := (((at' 48).toNat, (at' 49).toNat, (at' 50).toNat), (List.range 16).map (fun i => at' (32 + i)))
  let s := if again then s else opened s q e
  match checkKernel s q e.index p.descRef (some given) with
  | .passed s id =>
    if !again then consume (served s q) q
    else
      let s := served s q
      let ended := ((s.kernel? id).map Kernel.ended).getD true
      if ended then (dropAsks s (.queue q.qid)).modQueue q.qid (fun q => { q with pending := none, rqcount := (q.rqcount + 1) % 2 ^ 16 })
      else holdQueue ((dropAsks s (.queue q.qid)).modQueue q.qid (fun q => { q with pending := none, repeatOf := some id })) q
  | .refused s => refusedEntry (completeEntry (served s q) q.qid e.index) q e
  | .waits s => holdQueue ((completeEntry s q.qid e.index).modQueue q.qid (fun q => { q with pending := some p })) q

/-- Acts on the disposition of a prologue that has ended (R306, R307) (DEDUCED, log entry 57). -/
def dispose (s : State) (q : Queue) (e : Entry) (p : Prologue) : State :=
  match p.ended with
  | none => s
  | some (.fault c _) => endEntry s q e 9 c.code p.pc.toNat
  | some .exit =>
    match (p.k.getD 0 0).toNat with
    | 0 => launchAfter s q e p false
    | 1 => consume (served s q) q
    | 2 => launchAfter s q e p true
    | _ => endEntry s q e 0x0B 0 0

/-- LAUNCH_IND (R304, R306): a prologue is run, then acted upon. -/
def execLaunchInd (qid : Nat) (s : State) : Host.Outcome State Fault Refusal :=
  .next (match s.queue? qid with
    | none => s
    | some q =>
      match q.head with
      | none => s
      | some e =>
        match e.kind with
        | .launchInd d pr pe pm =>
          (match (s.lps[q.lp]?).bind LaunchProc.prologue with
           | some p => if p.qid = qid && p.ended.isSome then dispose (dropPrologue s q.lp) q e p else s
           | none =>
             if !ctxServes s q then s
             else if q.state = .ready && heldBy s q e then holdQueue s q
             else if !turnOf s q then s
             else match q.pending with
               | some p => dispose s q e p
               | none => startPrologue s q e d pr pe pm)
        | _ => s)

/-- Whether a prologue has exceeded 4,096 clk from its first fetch (R307). -/
def overBudget (s : State) (p : Prologue) : Bool := match p.startAt with
  | some t => p.ended.isNone && decide (t + 4096 < s.clk)
  | none => false

/-- A prologue over its budget ends its entry (R307). -/
def endBudget (s : State) (lp : Nat) (p : Prologue) : State :=
  let s := dropPrologue s lp
  match s.queue? p.qid with
  | none => s
  | some q => match q.head with
    | some e => endEntry s q e 0x0A 0 0
    | none => s

/-- PROLOGUE_BUDGET (R307): 4,096 clk have passed since its first fetch. -/
def execPrologueBudget (lp : Nat) (s : State) : Host.Outcome State Fault Refusal :=
  .next (match (s.lps[lp]?).bind LaunchProc.prologue with
    | none => s
    | some p => if overBudget s p then endBudget s lp p else s)

/-! ## COPY (R309) -/

/-- COPY (R309): the data engine takes the entry. -/
def execCopy (qid : Nat) (s : State) : Host.Outcome State Fault Refusal :=
  onTurn s qid (fun q e => match e.kind with
    | .copy src dst n =>
      let s := opened s q e
      let job : CopyJob := ⟨s.nextId, qid, q.lp, e.index, q.ctx, src, dst, n, 0, []⟩
      consume (served { s with copyJobs := s.copyJobs ++ [job], nextId := s.nextId + 1 } q) q
    | _ => s)

/-- How the next bytes of a COPY go: moved, with what it then holds, waiting, or failed. -/
inductive CopyMove where
  | moved (held : List Byte) (s : State)
  | waits (s : State)
  | bad

/-- The sizes in which a COPY moves (DESIGN CHOICE, log entry 53). -/
def copySizes : List Nat := [64, 16, 4, 2, 1]

/-- Reads the longest of some sizes that passes its checks, or that a page or a peer delays (R309, R414). -/
def copyTake (s : State) (j : CopyJob) : List Nat → CopyMove
  | [] => .bad
  | n :: r =>
    if j.landed + n > j.bytes then copyTake s j r
    else
      match readyFor s (.copy j.id) none (checkBuffer s j.ctx needLoad (refIndex j.src) ((refOff j.src + j.landed : Nat) : Int) n 1) with
      | .ok a => .moved (homeRead s none a).1 (dropAsks (homeRead s none a).2 (.copy j.id))
      | .bad _ _ => copyTake s j r
      | w => .waits (beginWait s (.copy j.id) w)

/-- Writes the longest of some sizes of what is held; bytes for a peer have landed when it has acknowledged them (R309, R414). -/
def copyPut (s : State) (j : CopyJob) : List Nat → CopyMove
  | [] => .bad
  | n :: r =>
    if n > j.held.length then copyPut s j r
    else
      match checkBuffer s j.ctx needStore (refIndex j.dst) ((refOff j.dst + j.landed : Nat) : Int) n 1 with
      | .waits root page => .waits (firstTouch s root page)
      | .bad _ _ => copyPut s j r
      | .ok a =>
        match putFor s (.copy j.id) none a (j.held.take n) with
        | .done s => .moved (j.held.drop n) s
        | .waits s => .waits s
        | .bad _ => copyPut s j r

def setCopy (s : State) (j : CopyJob) : State := { s with copyJobs := s.copyJobs.map (fun (x : CopyJob) => if x.id = j.id then j else x) }

/-- The COPY ends (R302, R309). -/
def copyEnd (s : State) (j : CopyJob) (fault : Bool) : State :=
  let s := dropAsks { s with copyJobs := s.copyJobs.filter (fun x => x.id ≠ j.id) } (.copy j.id)
  let s := if fault then jobCode s j.ctx j.qid j.lp j.entry 0x0C (dword j.landed) else s
  completeEntry s j.qid j.entry

/-- Moves bytes in ascending order until the COPY ends, or a page or a peer delays it (R309, R414) (DESIGN CHOICE, log entry 53). -/
def copyRun : Nat → State → CopyJob → State
  | 0, s, j => setCopy s j
  | f + 1, s, j =>
    if j.landed ≥ j.bytes then copyEnd s j false
    else if j.held.isEmpty then
      match copyTake s j copySizes with
      | .moved b s => copyRun f s { j with held := b }
      | .waits s => setCopy s j
      | .bad => copyEnd s j true
    else
      match copyPut s j copySizes with
      | .moved rest s => copyRun f s { j with held := rest, landed := j.landed + (j.held.length - rest.length) }
      | .waits s => setCopy s j
      | .bad => copyEnd s j true

/-- COPY_COMPLETE (R309): the bytes move, and the entry completes with the last of them. -/
def execCopyComplete (copy : Nat) (s : State) : Host.Outcome State Fault Refusal :=
  .next (match s.copyJobs.find? (fun j => j.id == copy) with
    | none => s
    | some j => if asking s (.copy j.id) || !ctxLive s j.ctx then s else copyRun (2 * (j.bytes - j.landed) + 2) s j)

/-! ## QFENCE, SIGNAL, WAIT, TIMED (R310–R313) -/

/-- A head entry that holds on its own condition begins to (R302) (DEDUCED, log entry 54). -/
def arm (s : State) (q : Queue) : State := setQState (s.modQueue q.qid (fun q => { q with armed := true, heldAt := s.clk })) q.qid .held

/-- Acts on the head entry of a queue that is READY or HELD. -/
def onHead (s : State) (qid : Nat) (g : Queue → Entry → State) : Host.Outcome State Fault Refusal :=
  .next (match s.queue? qid with
    | none => s
    | some q =>
      match q.head with
      | none => s
      | some e => if ctxServes s q && (q.state = .ready || q.state = .held) then g q e else s)

/-- QFENCE (R310): each used slot must name a queue of the context. -/
def execQfence (qid : Nat) (s : State) : Host.Outcome State Fault Refusal :=
  onHead s qid (fun q e => match e.kind with
    | .qfence slots =>
      if q.armed then s
      else if slots.all (fun x => ((s.queue? x.1).map (·.ctx)) = some q.ctx) then arm s q else queueError s q 7
    | _ => s)

/-- Whether every entry below a mark has completed; a queue's own fence holds for its earlier entries. -/
def fencePassed (s : State) (q : Queue) (e : Entry) (x : Nat × Nat) : Bool :=
  match s.queue? x.1 with
  | none => false
  | some t =>
    if t.qid = q.qid then !q.open'.any (fun i => decide (i < e.index))
    else decide (x.2 ≤ t.ridx) && !t.open'.any (fun i => decide (i < x.2))

/-- The acquire of a release: the launch processor, which reads every word at its home, drops its sector's replicas (R15, R437)
(DEDUCED, log entry 118). -/
def acquireLp (s : State) (lp : Nat) : State := dropLines s [replicaOf (24 * lp)] (fun _ => true)

/-- A held entry whose condition holds is READY, and issued when its turn comes; the release is an acquire at system scope (R295, R302,
R315, R437) (DEDUCED, log entry 55). -/
def releaseHead (s : State) (q : Queue) : State :=
  let s := setQState (acquireLp (dropAsks s (.queue q.qid)) q.lp) q.qid .ready
  match s.queue? q.qid with
  | some q => if turnOf s q then consume (served s q) q else s
  | none => s

/-- QFENCE_RELEASE (R310). -/
def execQfenceRelease (qid : Nat) (s : State) : Host.Outcome State Fault Refusal :=
  onHead s qid (fun q e => match e.kind with
    | .qfence slots =>
      if !q.armed then s
      else if !heldBy s q e && (q.state = .ready || slots.all (fencePassed s q e)) then releaseHead s q
      else endRun s q
    | _ => s)

/-- SIGNAL (R311): every earlier entry has completed; the stamp is written by an immediate-class store, and the entry with it, at a peer
when it has acknowledged it (R302, R414). -/
def execSignal (qid : Nat) (s : State) : Host.Outcome State Fault Refusal :=
  onTurn s qid (fun q e => match e.kind with
    | .signal stamp value =>
      (match checkBuffer s q.ctx needStoreImm (refIndex stamp) (refOff stamp) 8 8 with
       | .ok a =>
         (match putFor s (.queue qid) none a (leBytes 8 value.toNat) with
          | .done s => consume (served s q) q
          | .waits s => holdQueue s q
          | .bad _ => queueError s q 4)
       | .waits r p => holdQueue (firstTouch s r p) q
       | .bad _ _ => queueError s q 4)
    | _ => s)

/-- WAIT (R312): the monitor is armed and the queue holds. -/
def execWait (qid : Nat) (s : State) : Host.Outcome State Fault Refusal :=
  onHead s qid (fun q e => match e.kind with
    | .wait _ _ _ _ => if q.armed then s else arm s q
    | _ => s)

/-- COND of R301. -/
def waitCond (cond : Nat) (x v : Dword) : Bool :=
  match cond with
  | 0 => v.ule x
  | 1 => x = v
  | _ => x ≠ v

/-- WAIT_RELEASE (R312): the stamp is read again at its home. -/
def execWaitRelease (qid : Nat) (s : State) : Host.Outcome State Fault Refusal :=
  onHead s qid (fun q e => match e.kind with
    | .wait stamp value cond _ =>
      if !q.armed then s
      else if heldBy s q e then endRun s q
      else if q.state = .ready then releaseHead s q
      else match lpRead s q stamp 8 8 with
        | .waits s => endRun s q
        | .bad => queueError s q 4
        | .bytes b s => if waitCond cond (dword (leNat b)) value then releaseHead s q else endRun (dropAsks s (.queue qid)) q
    | _ => s)

/-- WAIT_TIMEOUT (R312): TIMEOUT µs have passed and the stamp does not satisfy COND; a wait for its page or peer counts. -/
def execWaitTimeout (qid : Nat) (s : State) : Host.Outcome State Fault Refusal :=
  onHead s qid (fun q e => match e.kind with
    | .wait stamp value cond timeout =>
      if !q.armed || q.state ≠ .held || timeout = 0 || s.clk < q.heldAt + 1000 * timeout then s
      else match lpRead s q stamp 8 8 with
        | .bytes b s => if waitCond cond (dword (leNat b)) value then s else queueError s q 6
        | .bad => queueError s q 4
        | .waits _ => queueError s q 6
    | _ => s)

/-- TIMED (R313): RELREF is checked when the entry becomes the head. -/
def execTimed (qid : Nat) (s : State) : Host.Outcome State Fault Refusal :=
  onHead s qid (fun q e => match e.kind with
    | .timed _ _ rel =>
      if q.armed then s
      else if rel = 0 then arm s q
      else match checkBuffer s q.ctx needStoreImm (refIndex rel) (refOff rel) 16 8 with
        | .bad _ _ => queueError s q 4
        | _ => arm s q
    | _ => s)

/-- Whether the time unit has reached a time (R313) (DESIGN CHOICE, log entry 56). -/
def timeReached (s : State) (sec nsec : Nat) : Bool := decide (((sec * 10 ^ 9 + nsec : Nat) : Int) ≤ (s.clk : Int) + s.ptpOffset)

/-- The 16 bytes that a TIMED entry writes: a sample of the 1588 time at the release, seconds and nanoseconds (R313). -/
def timedSample (s : State) (sec nsec : Nat) : List Byte :=
  let x := max (ptpNs s) (sec * 10 ^ 9 + nsec)
  leBytes 8 (x / 10 ^ 9 % 2 ^ 48) ++ leBytes 8 (x % 10 ^ 9)

/-- A TIMED entry released at a clock is issued, and for 200 ns its queue goes first (R313, R315). -/
def timedDone (s : State) (q : Queue) (at' : Nat) : State :=
  let s := (consume s q).modQueue q.qid (fun q => { q with timedAt := some (at', q.weight) })
  s.modLp q.lp (fun l => { l with lastIssue := some s.clk })

/-- The sample of a release is written; a page in motion or a peer delays the words and the next entry, not the release (R313). -/
def timedWrite (s : State) (q : Queue) (rel : Dword) (at' : Nat) (data : List Byte) : State :=
  let kept (s : State) : State := s.modQueue q.qid (fun q => { q with sample := some (at', data) })
  match checkBuffer s q.ctx needStoreImm (refIndex rel) (refOff rel) 16 8 with
  | .bad _ _ => queueError s q 4
  | .waits root page => kept (firstTouch s root page)
  | .ok a =>
    match putFor s (.queue q.qid) none a data with
    | .done s => timedDone s q at'
    | .waits s => kept s
    | .bad _ => queueError s q 4

/-- TIMED_RELEASE (R313): the entry is released, at the pace of its launch processor, and its sample is written. -/
def execTimedRelease (qid : Nat) (s : State) : Host.Outcome State Fault Refusal :=
  onHead s qid (fun q e => match e.kind with
    | .timed sec nsec rel =>
      if !q.armed then s
      else match q.sample with
        | some (t, data) => if asking s (.queue qid) then s else timedWrite s q rel t data
        | none =>
          if heldBy s q e || !timeReached s sec nsec then endRun s q
          else if proHolds s q.lp || paced s q.lp then s
          else
            let data := timedSample s sec nsec
            let s := { s with free := s.free + 1 }
            if rel = 0 then timedDone s q s.clk else timedWrite s q rel s.clk data
    | _ => s)

/-! ## COLLECTIVE (R424–R426) -/

/-- A collective descriptor (R424). -/
def parseColl (b : List Byte) (q : Queue) (e : Entry) : Option CollJob :=
  let f (off n : Nat) : Nat := byteField b off n
  if f 0 1 ≤ 2 && f 1 1 ≤ 4 && f 2 1 ≤ 2 && (f 0 1 ≠ 1 || f 2 1 = 0) && f 3 1 ≤ 1 && 1 ≤ f 4 2 && f 4 2 ≤ 1024 && decide (f 6 2 < f 4 2)
      && 1 ≤ f 8 8 && f 8 8 ≤ 2 ^ 32 && 1 ≤ f 26 1 && f 26 1 ≤ 6 && f 27 1 = 0 && f 28 4 = 0 && f 60 4 = 0 then
    some { qid := q.qid, lp := q.lp, entry := e.index, ctx := q.ctx, kind := f 0 1, dt := f 1 1, op := f 2 1, nrank := f 4 2, myrank := f 6 2,
           count := f 8 8, nsrc := f 26 1, src := dword (f 32 8), stride := f 40 8, dst := dword (f 48 8), groupId := f 24 2, seq := f 56 4,
           ranks := [], agreed := [], failed := false, shards := [], acks := [], own := none, out := none }
  else none

/-- What this package tells its partners (R426). -/
def CollJob.offer (j : CollJob) : CollOffer := ⟨j.kind, j.dt, j.op, j.count, j.nrank, j.ranks⟩

/-- Whether every partner of a collective can be reached: what it sends waits otherwise (R412, R416). -/
def CollJob.reaches (s : State) (j : CollJob) : Bool :=
  (List.range j.nrank).all (fun g => g = j.myrank || !(portsFor s (j.ranks.getD g 0)).isEmpty)

/-- COLLECTIVE (R314, R424, R426): the descriptor and the table of ranks are read, the engine takes the entry and the partners are told. -/
def execCollective (qid : Nat) (s : State) : Host.Outcome State Fault Refusal :=
  onTurn s qid (fun q e => match e.kind with
    | .collective r =>
      (match lpRead s q r 64 1 with
       | .waits s => holdQueue s q
       | .bad => queueError s q 4
       | .bytes b s =>
         match parseColl b q e with
         | none => queueError s q 4
         | some j =>
           match lpRead s q (dword (byteField b 16 8)) (2 * j.nrank) 1 with
           | .waits s => holdQueue s q
           | .bad => queueError s q 4
           | .bytes t s =>
             let j := { j with ranks := (List.range j.nrank).map (fun g => byteField t (2 * g) 2) }
             if !j.reaches s then holdQueue s q
             else
             let s := opened (if j.nrank > 1 then s.emit (.offer j.groupId j.seq j.offer) else s) q e
             consume (served { s with colls := s.colls ++ [j] } q) q)
    | _ => s)

/-- Bytes of an element of a collective. -/
def collBytes (dt : Nat) : Nat := [4, 2, 2, 4, 8].getD dt 4

/-- The node operation of R425: sum, maximum or minimum in the element's type. -/
def collOp (dt op : Nat) (a b : Dword) : Dword :=
  let flt (f : Fmt) : Nat :=
    let x := a.toNat % 2 ^ f.width
    let y := b.toNat % 2 ^ f.width
    (match op with
     | 0 => faddV f (unpack f x) (unpack f y)
     | 1 => fminmaxBits f true x y
     | _ => fminmaxBits f false x y).1
  let int (w : Nat) : Nat :=
    let x := a.toNat % 2 ^ w
    let y := b.toNat % 2 ^ w
    match op with
    | 0 => (x + y) % 2 ^ w
    | 1 => if toSigned w x ≥ toSigned w y then x else y
    | _ => if toSigned w x ≤ toSigned w y then x else y
  dword (match dt with
    | 0 => flt fp32 | 1 => flt bf16 | 2 => flt fp16 | 3 => int 32 | _ => int 64)

/-- Elements that a local source holds, and that a peer sends. -/
def CollJob.inputs (j : CollJob) : Nat := if j.kind = 1 then j.count else j.nrank * j.count
def CollJob.peerElems (j : CollJob) : Nat := if j.kind = 2 then j.nrank * j.count else j.count

/-- A check of an element of a source or of the output. -/
def collCheck (s : State) (j : CollJob) (need : Need) (r : Dword) (off : Nat) : Checked :=
  checkBuffer s j.ctx need (refIndex r) ((refOff r + off : Nat) : Int) (collBytes j.dt) (collBytes j.dt)

/-- How reading elements ends. -/
inductive CollRead (α : Type) where
  | ok (a : α) (s : State)
  | waits (r : Ready)
  | bad

/-- The elements of the sources at some offsets. -/
def readElems (j : CollJob) : State → List Nat → CollRead (List Dword)
  | s, [] => .ok [] s
  | s, o :: rest =>
    match readyFor s .coll none (collCheck s j needLoad j.src o) with
    | .ok a =>
      (match readElems j (homeRead s none a).2 rest with
       | .ok l s => .ok (dword (leNat (homeRead s none a).1) :: l) s
       | e => e)
    | .bad _ _ => .bad
    | w => .waits w

/-- The on-die sums t of R425 over the local sources (DEDUCED, log entry 63). -/
def localSums (s : State) (j : CollJob) : CollRead (List Dword) :=
  let offs := (List.range j.nsrc).flatMap (fun i => (List.range j.inputs).map (fun e => i * j.stride + e * collBytes j.dt))
  match readElems j s offs with
  | .ok l s => .ok ((List.range j.inputs).map (fun e =>
      lattice (collOp j.dt j.op) 0 ((List.range j.nsrc).map (fun i => l.getD (i * j.inputs + e) 0)))) s
  | e => e

/-- The outputs of a package from its own sums and its partners' (R425). -/
def collOutput (j : CollJob) (own : List Dword) (peers : List (Nat × List Dword)) : List Dword :=
  let of (g e : Nat) : Dword :=
    if g = j.myrank then own.getD (if j.kind = 0 then j.myrank * j.count + e else e) 0
    else ((peers.find? (fun p => p.1 = g)).map (fun p => p.2.getD e 0)).getD 0
  if j.kind = 1 then (List.range j.nrank).flatMap (fun g => (List.range j.count).map (of g))
  else (List.range j.peerElems).map (fun e => lattice (collOp j.dt j.op) 0 ((List.range j.nrank).map (fun g => of g e)))

/-- Elements of the output. -/
def CollJob.outputs (j : CollJob) : Nat := if j.kind = 0 then j.count else j.nrank * j.count

/-- How writing the output goes on: whole, waiting with what is still to be written, or failed. -/
inductive CollWrite where
  | done (s : State)
  | waits (s : State) (rest : List Dword)
  | bad (s : State)

/-- Writes what is still to be written, in ascending order. -/
def writeOutput (j : CollJob) : State → List Dword → CollWrite
  | s, [] => .done s
  | s, x :: r =>
    match collCheck s j needStore j.dst ((j.outputs - (r.length + 1)) * collBytes j.dt) with
    | .bad _ _ => .bad s
    | .waits root page => .waits (firstTouch s root page) (x :: r)
    | .ok a =>
      match putFor s .coll none a (leBytes (collBytes j.dt) x.toNat) with
      | .done s => writeOutput j s r
      | .waits s => .waits s (x :: r)
      | .bad _ => .bad s

/-- The collective's entry ends with ENTRY_INVALID, at its partners too (R426) (DEDUCED, log entry 62). -/
def collFail (s : State) (j : CollJob) : State :=
  let s := completeEntry (dropAsks { s with colls := s.colls.drop 1 } .coll) j.qid j.entry
  let s := if j.nrank > 1 then s.emit (.collFailed j.groupId j.seq) else s
  let s := jobCode s j.ctx j.qid j.lp j.entry 4 0
  match s.queue? j.qid with
  | none => s
  | some q => if q.state = .stopped then s else stopQueue s q

def setColl (s : State) (j : CollJob) : State := { s with colls := j :: s.colls.drop 1 }

/-- A collective completes when its output has landed and every partner has acknowledged what this package sent (R426). -/
def collEnd (s : State) (j : CollJob) : State :=
  if (List.range j.nrank).all (fun g => g = j.myrank || j.acks.contains g) then
    completeEntry (dropAsks { s with colls := s.colls.drop 1 } .coll) j.qid j.entry
  else setColl s { j with out := some [] }

/-- The output is written as far as it can be. -/
def collWrite (s : State) (j : CollJob) (rest : List Dword) : State :=
  match writeOutput j s rest with
  | .bad s => collFail s j
  | .waits s rest => setColl s { j with out := some rest }
  | .done s => collEnd s j

/-- The partners' contributions are acknowledged and combined once they are all there. -/
def collGather (s : State) (j : CollJob) (own : List Dword) : State :=
  let j := { j with own := some own }
  if (List.range j.nrank).all (fun g => g = j.myrank || j.shards.any (fun p => p.1 = g)) then
    collWrite (if j.nrank > 1 then s.emit (.acknowledge j.groupId j.seq) else s) j (collOutput j own j.shards)
  else setColl s j

/-- Every partner has told the same of the collective (R426). -/
def CollJob.allAgree (j : CollJob) : Bool := (List.range j.nrank).all (fun g => g = j.myrank || j.agreed.contains g)

/-- The engine's collective goes on as far as it can: it ends where a partner disagrees or has ended it; once all agree, this package's sums
are formed and sent, the partners' are combined with them, the output is written, and the acknowledgements are awaited (R425, R426). -/
def collRun (s : State) (j : CollJob) : State :=
  if j.failed then collFail s j
  else if !j.allAgree then s
  else match j.out, j.own with
  | some rest, _ => collWrite s j rest
  | none, some own => collGather s j own
  | none, none =>
    match localSums s j with
    | .bad => collFail s j
    | .waits w => setColl (beginWait s .coll w) j
    | .ok own s => collGather (if j.nrank > 1 then (dropAsks s .coll).emit (.contribution j.groupId j.seq own) else dropAsks s .coll) j own

/-- Whether what has come is for a collective (R426). -/
def CollJob.hears (j : CollJob) (p : PeerShards) : Bool := j.groupId = p.group && j.seq = p.seq

/-- What has come from the partners is noted; a partner that tells something else ends the collective (R426). -/
def CollJob.take (j : CollJob) (p : PeerShards) : CollJob :=
  if j.hears p then
    { j with agreed := j.agreed ++ (p.offers.filter (fun o => o.2 = j.offer)).map (·.1),
             failed := j.failed || p.failed || p.offers.any (fun o => o.2 ≠ j.offer),
             shards := j.shards ++ p.shards.filter (fun x => x.2.length = j.peerElems), acks := j.acks ++ p.acks }
  else j

/-- Whether something has come from the partners. -/
def shardsSay (p : PeerShards) : Bool := p.failed || !p.offers.isEmpty || !p.shards.isEmpty || !p.acks.isEmpty

/-- COLLECTIVE_COMPLETE (R425, R426): what has come from the partners by an open port is noted, and the engine's first collective goes on while
it can reach them (R412) (DESIGN CHOICE, log entry 64). -/
def execCollectiveComplete (peers : PeerShards) (s : State) : Host.Outcome State Fault Refusal :=
  .next (
    let s := if shardsSay peers && !linkOpen s then s else { s with colls := s.colls.map (fun (j : CollJob) => j.take peers) }
    match s.colls with
    | [] => s
    | j :: _ => if !ctxLive s j.ctx || !j.reaches s then s else collRun s j)

/-! ## The queue commands (R291, R295) -/

/-- The shadow half that Q_CREATE checks (R291). -/
def parseShadow (b : List Byte) : Option Queue :=
  let f (off n : Nat) : Nat := byteField b off n
  if b.length = 64 && f 0 2 < 2 ^ 10 && f 2 2 < 2 ^ 12 && 4 ≤ f 4 1 && f 4 1 ≤ 20 && f 5 1 ≤ 7 && 1 ≤ f 6 1 && f 6 1 ≤ 16 && f 7 1 ≤ 5
      && f 15 1 = 0 && b.drop 36 = List.replicate 28 0 then
    some { qid := f 2 2, ctx := f 0 2, rsizeLog2 := f 4 1, maxPrio := f 5 1, weight := f 6 1, lp := f 7 1, maxCells := f 8 4,
           ppart := BitVec.ofNat 24 (f 12 3), uref := dword (f 16 8), ridx := 0, state := .idle, code := 0, rqcount := 0, head := none, prio := 0,
           ringRef := 0, open' := [], repeatOf := none, woken := true, armed := false, heldAt := 0, timedAt := none, sample := none, pending := none }
  else none

/-- Q_CREATE (R295). -/
def execQCreate (shadow : List Byte) (s : State) : Host.Outcome State Fault Refusal :=
  .next (match s.ctx? (byteField shadow 0 2 % 2 ^ 10) with
    | none => done s .qCreate 1
    | some c =>
      if !(c.state = .bound || c.state = .running || c.state = .caved || c.state = .parked) then done s .qCreate 1
      else match parseShadow shadow with
        | none => done s .qCreate 2
        | some q =>
          if q.ppart &&& ~~~c.pset ≠ 0 then done s .qCreate 2
          else if (s.queue? q.qid).isSome || decide ((s.queues.filter (fun x => x.lp = q.lp)).length ≥ 1024) then done s .qCreate 3
          else
            let s := { s with queues := s.queues ++ [q] }
            done (mirror (mirror s q 16 (leBytes 8 0)) q 24 [1, 0]) .qCreate 0)

/-- A command that reaches a queue while its prologue runs is held (R295). -/
def onQueue (s : State) (c : Cmd) (qid : Nat) (g : Queue → State) : Host.Outcome State Fault Refusal :=
  .next (match s.queue? qid with
    | none => done s c 1
    | some q =>
      match (s.lps[q.lp]?).bind LaunchProc.prologue with
      | some p => if p.qid = qid && p.ended.isNone then s else g q
      | none => g q)

/-- Q_RESET (R295): SKIP drops the head entry, and with it its repeats (R306). -/
def execQReset (qid : Nat) (skip : Bool) (s : State) : Host.Outcome State Fault Refusal :=
  onQueue s .qReset qid (fun q =>
    if q.state ≠ .error then done s .qReset 1
    else
      let s := if skip then mirror (s.modQueue qid (fun q => { q with ridx := q.ridx + 1, rqcount := 0, repeatOf := none })) q 16 (leBytes 8 (q.ridx + 1)) else s
      done (setQState (s.modQueue qid (fun q => { q with woken := true })) qid .idle) .qReset 0)

/-- Q_DESTROY (R295, R310): what its issued entries began runs on; fences that name it end in ERROR (DEDUCED, log entry 65). -/
def execQDestroy (qid : Nat) (s : State) : Host.Outcome State Fault Refusal :=
  onQueue s .qDestroy qid (fun q =>
    let s := dropAsks (dropPrologueOf s q) (.queue qid)
    let gone := qid + 2 ^ 12 * s.nextId
    let s := { s with
      nextId := s.nextId + 1, queues := s.queues.filter (fun x => x.qid ≠ qid),
      kernels := s.kernels.map (fun (k : Kernel) => if k.qid = qid then { k with qid := gone } else k),
      copyJobs := s.copyJobs.map (fun (j : CopyJob) => if j.qid = qid then { j with qid := gone } else j),
      colls := s.colls.map (fun (j : CollJob) => if j.qid = qid then { j with qid := gone } else j) }
    let names (x : Queue) : Bool := x.armed && x.state = .held && (match x.head with
      | some e => (match e.kind with
        | .qfence l => l.any (fun y => y.1 = qid)
        | _ => false)
      | none => false)
    let s := (s.queues.filter names).foldl (fun s x => queueError s x 7) s
    done s .qDestroy 0)

end Sys2Proof.Machine
end

