-- ==== Sys2Proof/Machine/Link.lean ====
section
/-! DEFINITION. The link: ports, requests to and from peers, active messages, and the host port (R242, R406–R423). -/
namespace Sys2Proof.Machine
open Sys2Proof

/-! ## Ports (R411–R414) -/

/-- A port whose state changes writes a record of KIND 4, and held requests go where they now can (R413, R416). -/
def setPort (s : State) (i : Nat) (f : Port → Port) : State :=
  match s.ports[i]? with
  | none => s
  | some p =>
    let s' := { s with ports := s.ports.modify i f }
    if (f p).state = p.state then s' else flushRemote (reportPlain s' (0x160 + i) 4)

def Port.up (p : Port) (lanes : Nat) : Port :=
  if lanes ≥ 4 then { p with state := .up, lanes := 4 } else { p with state := .degraded, lanes := min lanes 2 }
def Port.leave (p : Port) (st : PortState) : Port := { p with state := st, lanes := if st = .fenced then p.lanes else 0 }

/-- A command on a port in one of the states that its rows give (R413). -/
def onPort (s : State) (c : Cmd) (port : Nat) (states : List PortState) (f : Port → Port) : Host.Outcome State Fault Refusal :=
  .next (match s.ports[port]? with
    | none => done s c 2
    | some p => if states.contains p.state then done (setPort s port f) c 0 else done s c 1)

/-- A hardware event of a port. -/
def portEvent (s : State) (port : Nat) (states : List PortState) (f : Port → Port) : Host.Outcome State Fault Refusal :=
  .next (match s.ports[port]? with
    | none => s
    | some p => if linkRuns s && states.contains p.state then setPort s port f else s)

/-- LINK_CFG (R411). -/
def execLinkCfg (rank : Nat) (s : State) : Host.Outcome State Fault Refusal :=
  .next (if rank < 1024 then done { s with rank := rank } .linkCfg 0 else done s .linkCfg 2)
/-- LINK_ROUTE (R411). -/
def execLinkRoute (rank : Nat) (ports : BitVec 8) (s : State) : Host.Outcome State Fault Refusal :=
  .next (if rank < 1024 then
      done (flushRemote { s with routes := s.routes.filter (fun r => r.1 ≠ rank) ++ [(rank, ports)] }) .linkRoute 0
    else done s .linkRoute 2)
/-- LINK_ENABLE (R413). -/
def execLinkEnable (port : Nat) (s : State) : Host.Outcome State Fault Refusal := onPort s .linkEnable port [.down] (fun p => p.leave .training)
/-- TRAINING_DONE (R413) (DESIGN CHOICE, log entry 142). -/
def execTrainingDone (port lanes : Nat) (s : State) : Host.Outcome State Fault Refusal :=
  if lanes = 0 then .next s else portEvent s port [.training] (fun p => p.up lanes)
/-- TRAINING_TIMEOUT (R413). -/
def execTrainingTimeout (port : Nat) (s : State) : Host.Outcome State Fault Refusal := portEvent s port [.training] (fun p => p.leave .down)
/-- LINK_ERROR (R413). -/
def execLinkError (port : Nat) (s : State) : Host.Outcome State Fault Refusal := portEvent s port [.up, .degraded] (fun p => p.leave .retraining)
/-- RETRAINING_DONE (R413). -/
def execRetrainingDone (port lanes : Nat) (s : State) : Host.Outcome State Fault Refusal :=
  if lanes = 0 then .next s else portEvent s port [.retraining] (fun p => p.up lanes)
/-- RETRAINING_TIMEOUT (R413). -/
def execRetrainingTimeout (port : Nat) (s : State) : Host.Outcome State Fault Refusal := portEvent s port [.retraining] (fun p => p.leave .down)
/-- LINK_FENCE (R413). -/
def execLinkFence (port : Nat) (s : State) : Host.Outcome State Fault Refusal := onPort s .linkFence port [.up, .degraded] (fun p => p.leave .fenced)
/-- LINK_UNFENCE (R413): UP or DEGRADED by its lanes. -/
def execLinkUnfence (port : Nat) (s : State) : Host.Outcome State Fault Refusal := onPort s .linkUnfence port [.fenced] (fun p => p.up p.lanes)
/-- LINK_DISABLE (R413). -/
def execLinkDisable (port : Nat) (s : State) : Host.Outcome State Fault Refusal :=
  onPort s .linkDisable port [.down, .training, .up, .degraded, .retraining, .fenced] (fun p => p.leave .down)
/-- ISOLATE (R413), given by the apex core. -/
def execIsolate (port : Nat) (s : State) : Host.Outcome State Fault Refusal :=
  onPort s .isolate port [.down, .training, .up, .degraded, .retraining, .fenced, .isolated] (fun p => p.leave .isolated)
/-- RELEASE (R413), given by the apex core. -/
def execRelease (port : Nat) (s : State) : Host.Outcome State Fault Refusal := onPort s .release port [.isolated] (fun p => p.leave .down)
/-- LINK_QRY (R414): a UALink port's counters, or the host port's, number 8. -/
def execLinkQry (port : Nat) (s : State) : Host.Outcome State Fault Refusal :=
  .next (match s.ports[port]? with
    | some p => done (s.emit (.counters p.sent p.retrans p.dups 0 p.amdrop)) .linkQry 0
    | none => if port = 8 then done (s.emit (.counters 0 0 0 s.hostRej 0)) .linkQry 0 else done s .linkQry 2)

/-! ## Requests that arrive from peers (R242, R406, R414, R415) -/

/-- Whether a port accepts requests and messages from peers, and responses (R18, R412). -/
def accepts (s : State) (via : Nat) : Bool := linkRuns s && (s.ports[via]?).any (fun p => p.state = .up || p.state = .degraded)
def hears (s : State) (via : Nat) : Bool := linkRuns s && (s.ports[via]?).any (fun p => p.state = .up || p.state = .degraded || p.state = .fenced)

/-- The home's checks of a peer's access: the entry, its owner and its pages (R406) (DEDUCED, log entry 66). -/
def peerCheck (s : State) (r : PeerRequest) : Checked :=
  match btEntry? s r.pctx r.pidx with
  | none => .bad .refInvalid 0
  | some e =>
    let n := opLen r.op
    if e.rvalid then .bad .refInvalid 0
    else if e.owner ≠ r.pctx then .bad .refOwner 0
    else
      let (so, cnt) := storageSpan e.viewOf r.off (max n 1)
      let pages := (List.range ((so + cnt - 1) / 2 ^ 17 - so / 2 ^ 17 + 1)).map (so / 2 ^ 17 + ·)
      match checkPages s e.ptroot pages with
      | some c => c
      | none => .ok ⟨e.viewOf, r.off, n, (List.range cnt).map (fun i => (so + i, storageLoc s e (so + i))), pages.map (fun p => (e.ptroot, p))⟩

/-- Whether a tree combines a peer's request with a tag. -/
def AtomTree.hasTag (r : PeerRequest) : AtomTree → Bool
  | .leaf _ (.peer q) _ => q.src = r.src && q.port = r.port && q.tag = r.tag
  | .leaf _ (.thread _ _ _ _ _) _ => false
  | .node _ a b => a.hasTag r || b.hasTag r

/-- The peers' requests that a tree combines. -/
def AtomTree.peers : AtomTree → Nat
  | .leaf _ (.peer _) _ => 1
  | .leaf _ (.thread _ _ _ _ _) _ => 0
  | .node _ a b => a.peers + b.peers

/-- Peers' atomics that have arrived and are not answered, and whether one of them has a request's tag. -/
def flyingPeers (s : State) : Nat := (s.reqs.map (fun q => q.tree.peers)).sum + (s.replies.map (fun q => q.tree.peers)).sum
def flyingTag (s : State) (r : PeerRequest) : Bool := s.reqs.any (fun q => q.tree.hasTag r) || s.replies.any (fun q => q.tree.hasTag r)

/-- A peer's atomic enters the link switch's ingress and goes to its home slice by the combining points on the way (R16, R24, R242). -/
def peerAtomic (s : State) (r : PeerRequest) (a : Access) (op : Nat) (wide : Bool) (cas : Option (Dword × Dword)) (c : Dword) : State :=
  let l := ((a.store.head?).map (·.2)).getD (.dev 0)
  arriveReq { s with nextId := s.nextId + 1 }
    ⟨s.nextId, r.pctx, op, wide, l, cas, c, r.key, if cas.isSome || op = 9 then [] else pathIn l, s.clk, a.pages, .leaf s.nextId (.peer r) c⟩

/-- An atomic request of the link's own specification is answered with an error response (R410). -/
def refuseForeign (s : State) (r : PeerRequest) : State := s.emit (.errorResponse r.src r.port r.tag)

/-- A peer's request that has passed its checks: a read or a write is performed at its home slice and answered, an atomic sets out for it. -/
def performPeer (s : State) (r : PeerRequest) (a : Access) : State :=
  match r.op with
  | .read _ => respond (homeRead s none a).2 r (homeRead s none a).1 0
  | .write d => respond (homeWrite s none a d) r [] 0
  | .atomic op w c => peerAtomic s r a op.toNat w none c
  | .cas w cmp new => peerAtomic s r a 0 w (some (cmp, new)) 0
  | .message _ => s
  | .foreign => refuseForeign s r

/-- The filter's entry of a request's tag while it is held. -/
def filterHit (s : State) (r : PeerRequest) : Option FilterEntry :=
  s.filter.find? (fun f => f.src = r.src && f.port = r.port && f.tag = r.tag && decide (s.clk < f.at' + 100000))

/-- Whether the replay filter has no entry for one more write or atomic (R242). -/
def filterFull (s : State) : Bool := decide (s.filter.length + flyingPeers s ≥ 8192)

/-- Whether a request is an active message, which arrives by AM_ARRIVAL (R420). -/
def isMessage (r : PeerRequest) : Bool := match r.op with
  | .message _ => true
  | _ => false

/-- REMOTE_REQUEST_ARRIVAL at a port (R242, R412, R414, R415): a duplicate write or atomic is answered from the filter, or ignored while the
first is on its way; any other request is checked and performed once. A page in motion delays it, and a full filter withholds credit. -/
def execRemoteRequestArrival (a : Arrived PeerRequest) (s : State) : Host.Outcome State Fault Refusal :=
  .next (
    let via := a.via
    let r := a.what
    let arrive (s : State) : State := match peerCheck s r with
      | .waits root page => firstTouch s root page
      | .bad c _ => respond s r [] c.code
      | .ok a => performPeer s r a
    if !accepts s via || isMessage r then s
    else if r.op = .foreign then refuseForeign s r
    else if !opOrdered r.op then arrive s
    else match filterHit s r with
      | some f => ({ s with ports := s.ports.modify via (fun p => { p with dups := p.dups + 1 }) }).emit
          (.response r.src ⟨r.port, r.tag, f.reply, f.cause⟩)
      | none => if flyingTag s r || filterFull s then s else arrive s)

/-- REPLAY_FILTER_EXPIRY (R242): a tag's 100 µs have passed. -/
def execReplayFilterExpiry (entry : Nat) (s : State) : Host.Outcome State Fault Refusal :=
  .next (match s.filter[entry]? with
    | some f => if s.clk ≥ f.at' + 100000 then { s with filter := s.filter.eraseIdx entry } else s
    | none => s)

/-- REMOTE_RETRANSMIT (R415): no answer for 50 µs; the request goes again with its tag, over any port of its route in service. -/
def execRemoteRetransmit (req : Nat) (s : State) : Host.Outcome State Fault Refusal :=
  .next (match s.remote.find? (fun r => r.id == req) with
    | none => s
    | some r =>
      if !r.sent then trySend s req
      else if s.clk < r.sentAt + 50000 then s
      else
        let ports := portsFor s r.peer
        if ports.isEmpty then s
        else
          let port := ports.getD (r.off / 64 % ports.length) 0
          let s := { s with ports := s.ports.modify port (fun p => { p with retrans := p.retrans + 1 }),
                            remote := s.remote.map (fun (x : RemoteReq) => if x.id = req then { x with sentAt := s.clk } else x) }
          s.emit (.link port (wireSpan r).1 (wireSpan r).2 r))

/-! ## Answers (R414, R415) -/

/-- The cell's own unpublished bytes over a peer's (R439). -/
def overlayView (s : State) (cell : Nat) (r : RemoteReq) (b : List Byte) : List Byte :=
  let view := ((s.cell? cell).map (·.view)).getD []
  ((List.range b.length).zip b).map (fun x => (viewByte view (.remote r.peer r.pctx r.pidx (r.off + x.1))).getD x.2)

/-- What an answer does for whoever asked: a thread or a prologue goes on or stops, a combined request's reply splits, and what else waits
finds it (R406, R414, R415). -/
def answered (s : State) (r : RemoteReq) (p : PeerResponse) : State :=
  let c := Cause.ofCode p.cause
  let bad : Bool := p.cause ≠ 0
  match r.use with
  | .load t ref d width signed spectral taint pops =>
    if bad then refuseHeld s t r.id ref c
    else
      let b := overlayView s t.cell r (p.data.take width)
      finishHeld s t r.id (loadWrites d spectral signed b) taint pops
  | .atomic op wide loc _ tree =>
    if bad then refuseTree c s tree else { s with replies := s.replies ++ [⟨r.id, op, wide, loc, dword (leNat p.data), tree⟩] }
  | .uload t ref k width signed =>
    if t = proTid t.lane then
      (if bad then failPrologue s t.lane c ref
       else s.modPro t.lane (fun q => { q with k := q.k.set k (uldValue (p.data.take width) signed) }))
    else if bad then refuseHeld s t r.id ref c
    else
      (match s.thread? t with
       | some th =>
         if th.wait ≠ some (.remote r.id) then s
         else
           let v := uldValue (overlayView s t.cell r (p.data.take width)) signed
           (passStep s t [(k, v)] none).modThread t (fun th => (th.receive (.remote r.id) {} false).goTo th.npc s.clk)
       | none => s)
  | .store (some t) ref _ pops =>
    if t = proTid t.lane then (if bad then failPrologue s t.lane c ref else s)
    else if bad then refuseHeld s t r.id ref c else finishHeld s t r.id {} false pops
  | .store none _ _ _ => s
  | .message => s
  | .ask who => s.answer who r p.data p.cause

/-- REMOTE_RESPONSE at a port (R412, R415): the first answer to a request counts, and any other is discarded. -/
def execRemoteResponse (a : Arrived PeerResponse) (s : State) : Host.Outcome State Fault Refusal :=
  let p := a.what
  .next (match (if hears s a.via then s.remote.find? (fun r => r.sent && r.port == p.port && r.tag == p.tag) else none) with
    | none => s
    | some r =>
      let s := { s with remote := s.remote.filter (fun x => x.id ≠ r.id),
                        tagHold := s.tagHold.filter (fun x => decide (s.clk < x.2.2)) ++ [(r.port, r.tag, s.clk + 100000)] }
      flushRemote (answered s r p))

/-! ## Active messages (R417–R423) -/

/-- The number of a source-target pair, by which messages are numbered (R422). -/
def pairKey (src cell pctx dest dcell : Nat) : Nat := (((src * 2 ^ 32 + cell) * 2 ^ 10 + pctx) * 2 ^ 10 + dest) * 2 ^ 32 + dcell

/-- The number that follows in a list of counters. -/
def counter (l : List (Nat × Nat)) (k : Nat) : Nat := ((l.find? (fun x => x.1 == k)).map (·.2)).getD 0
def setCounter (l : List (Nat × Nat)) (k n : Nat) : List (Nat × Nat) := l.filter (fun x => x.1 ≠ k) ++ [(k, n)]

/-- An entry of a handler table (R417): 16 bytes read through AMTAB. -/
def amEntry (s : State) (x : Context) (i : Nat) : Checked :=
  if x.amtab = 0 then .bad .refInvalid 0 else checkBuffer s x.id needLoad (refIndex x.amtab) ((refOff x.amtab + 16 * i : Nat) : Int) 16 1

/-- AMSEND (R419) (DESIGN CHOICE, log entry 67). -/
def semAmsend (f : Ext) : LaneSem := fun r s =>
  let hidx := f.imm.toNat % 2 ^ 8
  let nw := f.imm.toNat / 2 ^ 8 % 2 ^ 4
  match s.ctx? r.c.ctx with
  | none => .stall s
  | some x =>
    let addr := faultAddr x.amtab ((16 * hidx : Nat) : Int)
    match readyFor s (.thread r.t) (some r.t.cell) (amEntry s x hidx) with
    | .page root page => .stall (firstTouch s root page)
    | .peer a => .stall (beginWait s (.thread r.t) (.peer a))
    | .bad c sub => .cause c (some addr) sub 0
    | .ok a =>
      let y := phasedRead s r.t.cell a
      let send := tb (byteField y.1 3 1) 0
      let target := (r.x64 f.a).toNat
      let dest : Option (Nat × Nat) :=
        if f.fn = 0 then (if r.q.handler.isSome then none else some (target % 2 ^ 16, target / 2 ^ 16 % 2 ^ 32))
        else if r.q.handler.isNone then none
        else match r.th.msg with
          | some m => if m.isReply || m.replied then none else some (m.srcRank, m.srcCell)
          | none => none
      if !send then .cause .refInvalid (some addr) 0 0
      else
        match dest with
        | none => .cause .illegalInstr none 0 0
        | some (rank, cell) =>
          if !(s.routes.any (fun q => q.1 == rank)) then .cause .refInvalid (some addr) 0 0
          else if (f.fn = 0 && s.credits = 0) || accessesOpen s r.t then .stall s
          else match releaseWaits s r.t.cell 5 with
          | some s => .stall s
          | none =>
            let s := releaseAt y.2 r.t.cell 5
            if publishedOpen s r.t.cell then .stall s
            else
              let pctx := byteField y.1 0 2 % 2 ^ 10
              let key := pairKey s.rank r.c.index pctx rank cell
              let seq := counter s.amSeqOut key
              let m : AmMessage := ⟨s.rank, rank, word seq, pctx, byteField y.1 2 1, cell, f.fn ≠ 0, r.c.index, tixOf r.t, nw,
                (List.range nw).map (r.vreg f.b)⟩
              let s := { s with amSeqOut := setCounter s.amSeqOut key (seq + 1), credits := if f.fn = 0 then s.credits - 1 else s.credits }
              let s := if f.fn = 0 then s
                else s.modThread r.t (fun th => { th with msg := th.msg.map (fun m => { m with replied := true }) })
              .done (sendRemote s rank pctx (2 ^ 20) (64 * seq) (.message m) .message) {}

/-- AMSEND (R418, R419). -/
def execAmsend (f : Ext) (s : State) : Host.Outcome State Fault Refusal := issue { form := .ext 0xDB f, sem := semAmsend f } s

/-- What becomes of a message (R420): it is dropped, its entry's page is in motion or at a peer, or it waits for a cell with a handler's
registers and offset. -/
inductive AmDest where
  | drop
  | waits
  | to (cell : Option Nat) (vregs entry : Nat)

/-- The entry that receives a message (R417). -/
def amReceive (s : State) (m : AmMessage) : Ready := match s.ctx? m.pctx with
  | none => .bad .refInvalid 0
  | some x => readyFor s (.ctx m.pctx) none (amEntry s x m.phidx)

def amDest (s : State) (m : AmMessage) : AmDest :=
    match amReceive s m with
    | .bad _ _ => .drop
    | .ok a =>
      let b := (homeRead s none a).1
      let fl := byteField b 3 1
      let hv := fl / 16
      match latestLaunch s m.pctx (dword (byteField b 4 8)) with
      | none => .drop
      | some k =>
        if !tb fl 1 || (tb fl 2 && !m.reply) || hv < 1 || hv > 12 || k.state ≠ .running || m.cell ≥ k.count || k.exited.any (fun x => x.1 = m.cell)
        then .drop
        else .to ((s.cells.find? (fun c => c.kernel = k.id && c.index = m.cell && c.state ≠ .exited)).map (·.id)) (16 * hv) (byteField b 12 4)
    | _ => .waits

/-- Messages that can no longer be delivered are discarded (R422). -/
def purgeWindow (s : State) : State :=
  let dead (w : Waiting) : Bool := match amDest s w.msg with
    | .drop => true
    | _ => false
  (s.window.filter dead).foldl dropMessage { s with window := s.window.filter (fun w => !dead w) }

def sameTarget (a b : AmMessage) : Bool := a.pctx = b.pctx && a.cell = b.cell && a.phidx = b.phidx

/-- Whether two messages are of one source cell to one target cell (R422). -/
def samePair (a b : AmMessage) : Bool := a.srcRank = b.srcRank && a.srcCell = b.srcCell && a.pctx = b.pctx && a.cell = b.cell

/-- The waiting messages of one target that a handler squad can take, at most 32 in arrival order: none behind an earlier one of its source that
waits outside a squad (R420, R422). -/
def groupable (s : State) (m : AmMessage) : List Waiting :=
  let go (acc : List Waiting × List Waiting) (w : Waiting) : List Waiting × List Waiting :=
    if w.group.isSome then acc
    else if sameTarget w.msg m && decide (acc.1.length < 32) && !acc.2.any (fun x => samePair x.msg w.msg) then (acc.1 ++ [w], acc.2)
    else (acc.1, acc.2 ++ [w])
  (s.window.foldl go ([], [])).1

/-- Forms the first waiting messages of one target into a handler squad. -/
def formGroup (s : State) (m : AmMessage) : State :=
  let ws := groupable s m
  if ws.isEmpty then s
  else { s with window := s.window.map (fun w => if ws.contains w then { w with group := some s.nextId } else w), nextId := s.nextId + 1 }

/-- The write request as which a message comes (R410, R415). -/
def packetRequest (p : AmPacket) : PeerRequest := ⟨p.msg.srcRank, p.port, p.tag, p.msg.pctx, 0, 0, .message p.msg, 0⟩

/-- How far a message is ahead of its pair's sequence, modulo 2^32 (R422). -/
def messageAhead (s : State) (p : AmPacket) : Word :=
  p.msg.seq - word (counter s.amSeqIn (pairKey p.msg.srcRank p.msg.srcCell p.msg.pctx s.rank p.msg.cell))

/-- Requests in the message window, which holds 8,192; a reply has its slot of the reply buffer (R420, R421). -/
def windowFull (s : State) : Bool := decide ((s.window.filter (fun w => !w.msg.reply)).length ≥ 8192)

/-- Whether an arriving message waits: for a window or filter entry, or for an earlier message of its pair; a duplicate never does (R420–R422). -/
def messageWaits (s : State) (p : AmPacket) : Bool :=
  (filterHit s (packetRequest p)).isNone && !(messageAhead s p).msb && ((windowFull s && !p.msg.reply) || filterFull s || messageAhead s p ≠ 0)

/-- AM_ARRIVAL at a port (R412, R415, R420, R422): a message is acknowledged once it has entered the window, or has been discarded as one that cannot
be delivered or that has come before; with 32 waiting for one handler of one cell a squad is formed. -/
def execAmArrival (p : AmPacket) (s : State) : Host.Outcome State Fault Refusal :=
  .next (
    let m := p.msg
    let key := pairKey m.srcRank m.srcCell m.pctx s.rank m.cell
    if !accepts s p.via || messageWaits s p then s
    else match filterHit s (packetRequest p) with
      | some f => ({ s with ports := s.ports.modify p.via (fun q => { q with dups := q.dups + 1 }) }).emit (.response m.srcRank ⟨p.port, p.tag, f.reply, f.cause⟩)
      | none =>
        let fresh : Bool := messageAhead s p = 0
        let s := respond s (packetRequest p) [] 0
        if !fresh then s
        else
          let s := { s with amSeqIn := setCounter s.amSeqIn key (counter s.amSeqIn key + 1) }
          let w : Waiting := ⟨p.via, m, s.clk, none⟩
          match amDest s m with
          | .drop => dropMessage s w
          | _ =>
            let s := { s with window := s.window ++ [w] }
            if (groupable s m).length ≥ 32 then formGroup s m else s)

/-- The messages that wait for a handler of a cell. -/
def waitingFor (s : State) (cell hidx : Nat) : List Waiting :=
  s.window.filter (fun w => w.msg.phidx = hidx && (match amDest s w.msg with
    | .to (some c) _ _ => c = cell
    | _ => false))

/-- AM_BATCH_TIMEOUT (R420): the oldest has waited 64 clk. -/
def execAmBatchTimeout (cell hidx : Nat) (s : State) : Host.Outcome State Fault Refusal :=
  .next (
    let s := purgeWindow s
    match (waitingFor s cell hidx).find? (fun w => w.group.isNone) with
    | some w => if s.clk ≥ w.at' + 64 then formGroup s w.msg else s
    | none => s)

/-- Whether an earlier message from one source cell to one target waits outside a group (R422). -/
def overtakes (s : State) (g : Nat) : Bool :=
  let mine := s.window.filter (fun w => w.group = some g)
  mine.any (fun w => (s.window.takeWhile (fun x => x ≠ w)).any (fun x => x.group ≠ some g && x.msg.srcRank = w.msg.srcRank
    && x.msg.srcCell = w.msg.srcCell && x.msg.pctx = w.msg.pctx && x.msg.cell = w.msg.cell))

/-- A handler squad's thread (R420). -/
def handlerThread (vregs entry now lane : Nat) (w : Option Waiting) : Thread :=
  let th := Thread.start lane vregs 0 entry now
  match w with
  | none => { th with state := .exited }
  | some w =>
    let m := w.msg
    let given := (List.range 8).map (fun i => m.payload.getD i 0)
      ++ [word m.srcRank, word m.srcCell, word m.srcTix, word (m.nw + if m.reply then 2 ^ 31 else 0)]
    { th with v := given ++ th.v.drop 12, msg := some ⟨m.srcRank, m.srcCell, m.reply, false⟩ }

/-- Lane registers of a core that squads hold, in bytes (R10). -/
def laneBytes (s : State) (core : Nat) : Nat :=
  ((coreCells s core).map (fun c => ((c.squads.filter (fun q => q.state ≠ .retired && q.state ≠ .evicted)).map (fun q =>
    (q.threads.map (fun th => 4 * th.v.length)).sum)).sum)).sum

/-- HANDLER_SQUAD_START (R420–R422): the first squad formed starts once a slot and lane registers are free; its start acquires at
system scope, and a reply that it delivers returns its credit. -/
def execHandlerSquadStart (cell hidx : Nat) (s : State) : Host.Outcome State Fault Refusal :=
  .next (
    let s := purgeWindow s
    match s.cell? cell, (waitingFor s cell hidx).findSome? (fun w => w.group) with
    | some c, some g =>
      let ms := s.window.filter (fun w => w.group = some g)
      match (ms.head?).map (fun w => amDest s w.msg) with
      | some (.to _ hv entry) =>
        let room : Bool := decide ((useOf (coreCells s c.core)).squads < 32) && decide (laneBytes s c.core + 128 * hv ≤ 2 ^ 20)
        if !c.resident || c.state ≠ .running || !ctxLive s c.ctx || !room || overtakes s g then s
        else
          let p := leastPartition s c.core
          let k : List Dword := (((((List.replicate 60 0).set 0 (dword ms.length)).set 1 (dword hidx)).set 16 (dword c.index)).set 20 0xFFFFFFFF).set 24 (dword c.ctx)
          let q := { Squad.start p (freeSlot (slotsUsed s c.core p) 0) hv k ((List.range 32).map (fun l => handlerThread hv entry s.clk l ms[l]?)) with
            handler := some hidx, tags := List.replicate (min 12 hv) false ++ List.replicate (hv - 12) true }
          let s := acquireAt (s.modCell cell (fun c => { c with squads := c.squads ++ [q] })) c.core 5
          let s := dropAsks s (.ctx c.ctx)
          { s with window := s.window.filter (fun w => w.group ≠ some g),
                   credits := min 4096 (s.credits + (ms.filter (fun w => w.msg.reply)).length) }
      | _ => s
    | _, _ => s)

/-- CREDIT_RETURN by an open port (R412, R421). -/
def execCreditReturn (s : State) : Host.Outcome State Fault Refusal :=
  .next (if linkOpen s then { s with credits := min 4096 (s.credits + 1) } else s)

/-! ## The host port (R407–R409, R450) -/

/-- A window entry of 16 bytes (R408). -/
def parseWin (seg : Nat) (b : List Byte) : Option WinEntry :=
  let f (off n : Nat) : Nat := byteField b off n
  if b.length = 16 && f 0 1 < 8 && f 1 1 = 0 && f 2 2 < 2 ^ 10 && f 4 4 < 2 ^ 20 && f 8 8 < 2 ^ 44 && f 8 8 % 2 ^ 17 = 0 then
    some ⟨seg, tb (f 0 1) 0, tb (f 0 1) 1, tb (f 0 1) 2, f 2 2, f 4 4, f 8 8⟩
  else none

/-- WIN_SET (R408). -/
def execWinSet (seg : Nat) (entry : List Byte) (s : State) : Host.Outcome State Fault Refusal :=
  .next (match (if seg < 512 then parseWin seg entry else none) with
    | none => done s .winSet 2
    | some w => done { s with windows := s.windows.filter (fun x => x.seg ≠ seg) ++ [w] } .winSet 0)

/-- A host access through the device window, checked with the window's rights (R408). -/
def hostCheck (s : State) (need : Need) (right : WinEntry → Bool) (off n : Nat) : Checked :=
  match s.windows.find? (fun w => w.seg = off / 2 ^ 27 && w.valid) with
  | some w =>
    if s.bootStep < 7 || off ≥ 2 ^ 36 then .bad .refInvalid 0
    else checkBuffer s w.ctx { need with right := fun e => need.right e && right w } w.bidx ((w.offBase + off % 2 ^ 27 : Nat) : Int) n 1
  | none => .bad .refInvalid 0

/-- A host read that can be answered, one of a peer's buffer once the peer has answered it (R406). -/
def hostReady (s : State) (off len : Nat) : Ready := readyFor s .host none (hostCheck s needLoadImm WinEntry.rd off len)

/-- A host access that fails its checks is counted. -/
def hostReject (s : State) : State := { dropAsks s .host with hostRej := s.hostRej + 1 }

/-- HOST_READ (R408). -/
def execHostRead (off len : Nat) (s : State) : Host.Outcome State Fault Refusal :=
  .next (match hostReady s off len with
    | .ok a => (dropAsks (homeRead s none a).2 .host).emit (.data (homeRead s none a).1)
    | .bad _ _ => (hostReject s).emit .unsupported
    | w => beginWait s .host w)

/-- HOST_WRITE (R408): one that fails its checks is dropped. -/
def execHostWrite (off : Nat) (data : List Byte) (s : State) : Host.Outcome State Fault Refusal :=
  .next (match hostCheck s needStoreImm WinEntry.wr off data.length with
    | .waits root page => firstTouch s root page
    | .bad _ _ => hostReject s
    | .ok a => match putFor s .host none a data with
      | .done s => s
      | .waits s => s
      | .bad _ => hostReject s)

/-- HOST_ATOMICOP (R407): the device is no completer for AtomicOps. -/
def execHostAtomicop (_off : Nat) (s : State) : Host.Outcome State Fault Refusal := .next (s.emit .unsupported)

/-- HOST_CONFIG_REQUEST (R450): retried until step 7; afterwards answered, with a value that the manual does not give (DESIGN CHOICE, log entry 68). -/
def execHostConfigRequest (s : State) : Host.Outcome State Fault Refusal :=
  .next (if s.bootStep < 7 then s.emit .retry
    else s.fresh.2.emit (.data (leBytes 4 (s.fresh.1.toNat % 2 ^ 32))))

end Sys2Proof.Machine
end

