-- ==== Sys2Proof/Machine/Device.lean ====
section
/-! DEFINITION. Bring-up, trust, power and reliability, the time input and the error log's reader (R6, R7, R368–R371, R450–R461). -/
namespace Sys2Proof.Machine
open Sys2Proof

/-! ## Measurement (R451, R452) -/

/-- A byte list cut or padded to a length. -/
def fit (n : Nat) (l : List Byte) : List Byte := (List.range n).map (fun i => l.getD i 0)

/-- TYPE, VERSION and LENGTH of an image's header (R451) (DESIGN CHOICE, log entry 23). -/
def imageType (i : Image) : Nat := (Config.imageHeader i.header).1
def imageVersion (i : Image) : Nat := (Config.imageHeader i.header).2.1.toNat
def imageLength (i : Image) : Nat := (Config.imageHeader i.header).2.2

/-- What is measured of an image: its header and its body, LENGTH bytes (R451) (DEDUCED, log entry 141). -/
def measured (i : Image) : List Byte := i.header ++ i.content.take (imageLength i)

/-- The slots of an image type. -/
def slotsOf (f : Flash) (type : Nat) : Slots := if type = 1 then f.memPort else if type = 2 then f.linkSwitch else f.launchProc

/-- Whether an image verifies for a type, under the record's minimum for it (R451) (DEDUCED, log entry 141). -/
def imageOk (s : State) (type : Nat) (i : Image) : Bool :=
  decide (imageType i = type) && decide (imageLength i ≤ i.content.length) && decide (imageVersion i ≥ s.minVersions.getD (type - 1) 0)
    && imageKeyVerifies (sha384 (measured i)) i.sig

/-- The image of a type that is used, with its slot: the higher version, slot A on a tie (R452). -/
def pickImage (s : State) (type : Nat) : Option (Bool × Image) :=
  let f := slotsOf s.flash type
  match f.a.filter (imageOk s type), f.b.filter (imageOk s type) with
  | some a, some b => some (if imageVersion b > imageVersion a then (true, b) else (false, a))
  | some a, none => some (false, a)
  | none, some b => some (true, b)
  | none, none => none

/-- An entry of the measurement log, or its overflow. -/
def measure (s : State) (e : MeasEntry) : State :=
  if s.mlog.length ≥ 64 then { s with mlogOverflow := true } else { s with mlog := s.mlog ++ [e] }

/-- The image of a type is measured and its block unlocked. -/
def unlock (s : State) (type : Nat) : Option State :=
  (pickImage s type).map (fun x => measure s ⟨type, x.1, imageVersion x.2, sha384 (measured x.2)⟩)

/-! ## Bring-up (R7, R450, R453, R455) -/

/-- The record's signature and fields (R453). -/
def recordOk (r : List Byte) : Bool :=
  let f (off n : Nat) : Nat := byteField r off n
  r.length = 512 && f 0 4 = 0x43533943 && f 9 7 = 0 && f 34 2 = 0
    && 10 ≤ f 50 2 && f 50 2 ≤ 100 && (r.drop 52).take 364 = List.replicate 364 0 && imageKeyVerifies (sha384 (r.take 416)) (r.drop 416)

/-- The boot stops at a step. -/
def bootStop (s : State) (step : Nat) : State := ({ s with bootStep := step - 1, bootFailed := true }).emit (.bootFailure step)

/-- The clusters that hold an enabled core. -/
def liveClusters (mask : BitVec 144) : BitVec 24 :=
  (List.range 24).foldl (fun m c => if (List.range 6).any (fun i => mask.getLsbD (6 * c + i)) then m ||| (1#24 <<< c) else m) 0

/-- Step 7: capabilities, cores and the driver's interface. Until the driver divides them the enabled clusters are one device partition. -/
def release (s : State) (r : List Byte) : State :=
  let f (off n : Nat) : Nat := byteField r off n
  let mask := BitVec.ofNat 144 (f 16 18)
  { s with
    bootStep := 7, coremask := mask, reserve := f 46 4,
    cores := ((List.range 144).filter (fun i => mask.getLsbD i)).map (fun i => Core.start i s.clk (f 42 4)),
    hearts := (List.range 19).map (fun b => ⟨b, s.clk, none⟩),
    partitions := if s.partitions.isEmpty then [liveClusters mask] else s.partitions }

/-- Steps 4 to 7 after the record (DESIGN CHOICE, log entry 28). -/
def bringUp (s : State) (r : List Byte) : State :=
  match unlock s 1 with
  | none => bootStop s 4
  | some s =>
    let bad := s.upsets.filterMap (fun u => match u with
      | .stackFails k => some k
      | _ => none)
    match bad with
    | k :: _ => bootStop (report s (0x140 + k) 5 (k * 2 ^ 36)) 4
    | [] =>
      match unlock s 2 with
      | none => bootStop s 5
      | some s =>
        match unlock s 3 with
        | none => bootStop s 6
        | some s => release s r

/-- POWER_GOOD (R450): the boot, in its order. -/
def execPowerGood (s : State) : Host.Outcome State Fault Refusal :=
  .next (
    let r := s.flash.record
    let f (off n : Nat) : Nat := byteField r off n
    if s.bootStep ≠ 0 || s.bootFailed then s
    else if !recordOk r then bootStop { s with bootStep := 1 } 2
    else
      let s := { s with stepping := f 8 1, vdroop := f 50 2, minVersions := [f 36 2, f 38 2, f 40 2] }
      let s := measure s ⟨0, false, f 4 4, sha384 (r.take 416)⟩
      let s := match s.flash.helper.bind Config.pufResponse with
        | some x => { s with identity := some x }
        | none => reportPlain { s with identity := none } 0x17F 5
      bringUp s r)

/-! ## Reload and reset (R457, R458) -/

/-- The error log's source number of a firmware block (R369); the link switch controller has none and is reported by the apex core
(DEDUCED, log entry 69). -/
def blockSource (b : Nat) : Nat := if b < 6 then 0x170 + b else if b = 6 then 0x17F else 0x140 + (b - 7)

/-- A firmware block's image type. -/
def blockType (b : Nat) : Nat := if b < 6 then 3 else if b = 6 then 2 else 1

/-- A launch processor starts again: a prologue ends with PROLOGUE_FAULT, and its queues are served from RIDX. -/
def restartLp (s : State) (lp : Nat) : State :=
  let s := match (s.lps[lp]?).bind LaunchProc.prologue with
    | some p =>
      let s := dropPrologue s lp
      (match s.queue? p.qid with
       | some q => (match q.head with
          | some e => endEntry s q e 9 0 p.pc.toNat
          | none => s)
       | none => s)
    | none => s
  let qs := s.queues.filter (fun q => q.lp = lp && (q.state = .ready || q.state = .held || q.state = .idle))
  let s := qs.foldl (fun s q => setQState ((dropAsks s (.queue q.qid)).modQueue q.qid (fun q =>
    { q with head := none, armed := false, pending := none, timedAt := none, sample := none, woken := true })) q.qid .idle) s
  s.modLp lp (fun _ => LaunchProc.reset)

/-- FW_RELOAD's work: the image is measured again and the block restarted, or it stays in reset; a launch processor's prologue ends either way. -/
def reload (s : State) (b : Nat) : State × Bool :=
  match unlock s (blockType b) with
  | none =>
    let s := if b < 6 then restartLp s b else s
    ({ s with blocksDown := if s.blocksDown.contains b then s.blocksDown else s.blocksDown ++ [b] }, false)
  | some s =>
    let s := { s with blocksDown := s.blocksDown.filter (· ≠ b),
                      hearts := s.hearts.map (fun (h : Heart) => if h.block = b then { h with last := s.clk } else h) }
    (if b < 6 then restartLp s b else if b = 6 then flushRemote s else s, true)

/-- FW_RELOAD (R458) (DEDUCED, log entry 70). -/
def execFwReload (block : Nat) (s : State) : Host.Outcome State Fault Refusal :=
  .next (if block > 18 then done s .fwReload 2
    else
      let x := reload s block
      done x.1 .fwReload (if x.2 then 0 else 3))

/-- The home slice of a monitor's block; a brined page's is that of its image. -/
def blockSlice (s : State) (b : Nat) : Nat :=
  let n := 64 * b
  if n < 2 ^ 40 then homeSlice (.dev n)
  else if n < 2 ^ 120 then homeSlice (.host (n - 2 ^ 40))
  else if n < 2 ^ 200 then 0
  else
    let m := n - 2 ^ 200
    homeSlice (.dev (((s.page? (m / 2 ^ 44) (m / 2 ^ 17 % 2 ^ 27)).map (·.loc)).getD 0 + m % 2 ^ 17))

/-- A thread's monitor ends with the reset of its home's sector: MONWAIT gives 3, at once or when it comes (R241, R458). -/
def Thread.endMonitor (th : Thread) (now : Nat) : Thread :=
  match th.wait with
  | some (.monitor _ _) => { th.endSleep now with mon := none }
  | _ => { th with mon := th.mon.map (fun m => { m with ended := true }) }

/-- The frames of the lines in a sector's slices that hold an uncorrectable error, in ascending slice. -/
def spoiltLines (s : State) (sector : Nat) : List Nat :=
  dedup ((List.range 8).flatMap (fun i => s.upsets.filterMap (fun u => match u with
    | .line a => if homeSlice (.dev a) = 8 * sector + i then some (a / 2 ^ 17 * 2 ^ 17) else none
    | _ => none)))

/-- SECTOR_RESET's work (R458), its reports in ascending source (R370). -/
def resetSector (s : State) (sector : Nat) : State :=
  let s := (spoiltLines s sector).foldl poison s
  let there := s.cells.filter (fun c => c.core / 24 = sector && c.place ≠ .parked && c.state ≠ .exited)
  let s := (dedup (there.map (·.ctx))).foldl faultContext s
  let s := (s.batches.filter (fun b => homeSlice b.loc / 8 = sector)).foldl abortBatch s
  let thread (th : Thread) : Thread := match th.mon with
    | some m => if blockSlice s m.block / 8 = sector then th.endMonitor s.clk else th
    | none => th
  let s := { s with cells := s.cells.map (fun (c : Cell) => { c with squads := c.squads.map (fun (q : Squad) => { q with threads := q.threads.map thread }) }),
                    cores := s.cores.map (fun (k : Core) => if k.id / 24 = sector then { Core.start k.id s.clk k.mxidle with rescorr := k.rescorr, carve := k.carve } else k) }
  let s := dropLines s ((144 + sector) :: (List.range 24).map (24 * sector + ·)) (fun _ => true)
  (reload s sector).1

/-- SECTOR_RESET (R458). -/
def execSectorReset (sector : Nat) (s : State) : Host.Outcome State Fault Refusal :=
  .next (if sector < 6 then done (resetSector s sector) .sectorReset 0 else done s .sectorReset 2)

/-- HEARTBEAT (R457). -/
def execHeartbeat (block : Nat) (s : State) : Host.Outcome State Fault Refusal :=
  .next { s with hearts := s.hearts.map (fun (h : Heart) => if h.block = block then { h with last := s.clk } else h) }

/-- HEARTBEAT_TIMEOUT (R457): after 10 ms the block is reloaded; within 1 s of that its sector is reset, or every UALink port isolated. -/
def execHeartbeatTimeout (block : Nat) (s : State) : Host.Outcome State Fault Refusal :=
  .next (match s.hearts.find? (fun h => h.block = block) with
    | none => s
    | some h =>
      if s.clk < h.last + 10000000 then s
      else
        let again : Bool := match h.reloadedAt with
          | some t => decide (s.clk ≤ t + 1000000000)
          | none => false
        let touch (s : State) : State := { s with hearts := s.hearts.map (fun (h : Heart) => if h.block = block then { h with last := s.clk } else h) }
        let note (s : State) : State := { s with hearts := s.hearts.map (fun (h : Heart) => if h.block = block then { h with reloadedAt := some s.clk } else h) }
        if !again then note (reload (touch (reportPlain s (blockSource block) 5)) block).1
        else if block = 6 then (List.range 8).foldl (fun s i => setPort s i (fun p => p.leave .isolated)) (touch s)
        else resetSector (touch s) (if block < 6 then block else (block - 7) / 2))

/-! ## Attestation (R452, R456) -/

/-- A measurement-log entry's 64 bytes. -/
def measBytes (e : MeasEntry) : List Byte :=
  leBytes 1 e.type ++ leBytes 1 (if e.slotB then 1 else 0) ++ leBytes 2 0 ++ leBytes 4 e.version ++ fit 48 e.digest ++ leBytes 8 0

/-- The report's first 256 bytes. -/
def reportBody (s : State) (d : Nat) (nonce : List Byte) : List Byte :=
  leBytes 4 0x41545339 ++ leBytes 4 ((capValue s 0x800).toNat % 2 ^ 32) ++ leBytes 2 s.mlog.length ++ leBytes 1 (if s.mlogOverflow then 1 else 0)
    ++ leBytes 5 0 ++ nonce ++ sha384 (s.mlog.flatMap measBytes) ++ sha384 (s.flash.record.take 416) ++ publicKey d

/-- ATTEST (R455, R456). -/
def execAttest (nonce : List Byte) (s : State) : Host.Outcome State Fault Refusal :=
  .next (match s.identity with
    | none => done s .attest 3
    | some x =>
      if nonce.length ≠ 48 then done s .attest 2
      else
        let d := identityScalar x
        let b := reportBody s d nonce
        done (s.emit (.report (b ++ signatureBytes d (sha384 b)))) .attest 0)

/-! ## Registers, power and time (R98, R123, R459, R460) -/

/-- CSR_SET (R460, R98). -/
def execCsrSet (csr : SetCsr) (value : Nat) (s : State) : Host.Outcome State Fault Refusal :=
  .next (if value ≥ 2 ^ 32 then done s .csrSet 2
    else match csr with
      | .mxidle => done { s with cores := s.cores.map (fun (k : Core) => { k with mxidle := value }) } .csrSet 0
      | .reserve => done { s with reserve := value } .csrSet 0)

/-- PWR_QRY (R459): board power is what the board draws (DESIGN CHOICE, log entry 24). -/
def execPwrQry (s : State) : Host.Outcome State Fault Refusal :=
  .next (done ({ s with free := s.free + 1 }.emit (.power s.stretches (Config.boardPower s.free))) .pwrQry 0)

/-- DROOP_DETECT (R459). -/
def execDroopDetect (sector : Nat) (s : State) : Host.Outcome State Fault Refusal :=
  .next (if sector ≥ 6 || s.stretched.getLsbD sector then s
    else { s with stretched := s.stretched ||| (1#6 <<< sector), stretches := s.stretches.modify sector (· + 1) })

/-- DROOP_RECOVER (R459). -/
def execDroopRecover (sector : Nat) (s : State) : Host.Outcome State Fault Refusal :=
  .next { s with stretched := s.stretched &&& ~~~(1#6 <<< sector) }

/-- PPS_INPUT (R6, R123): the time unit is set to the source's time. -/
def execPpsInput (sec nsec : Nat) (s : State) : Host.Outcome State Fault Refusal :=
  .next { s with ptpOffset := ((sec * 10 ^ 9 + nsec : Nat) : Int) - (s.clk : Int) }

/-! ## Soft errors (R461) -/

/-- K groups that a cell's array operation in progress has performed, freely up to all of them (R365) (DESIGN CHOICE, log entry 120). -/
def groupsDone (s : State) (cell : Nat) : Dword × State :=
  let op := ((s.cell? cell).bind (fun c => s.core? c.core)).bind (fun k => k.array.head?)
  let kg : Nat := match op with
    | some e => if e.cell = cell then (match e.op with
        | .mxm _ _ _ _ _ kg _ _ => if e.begun then kg else 0
        | .mxmv _ _ _ kg _ => kg
        | _ => 0) else 0
    | none => 0
  if kg = 0 then (0, s) else (dword (s.fresh.1.toNat % (kg + 1)), s.fresh.2)

/-- A list of differences between held residues and values, after a word has changed under its residue (R94). -/
def strike (l : List (Nat × Nat)) (n old new : Nat) : List (Nat × Nat) :=
  let held := old + ((l.find? (fun x => x.1 = n)).map (·.2)).getD 0
  let d := (held + 2 * new) % 3
  let l := l.filter (fun x => x.1 ≠ n)
  if d = 0 then l else l ++ [(n, d)]

/-- A soft error turns one bit of a register over; the residue or parity written with the word stays as it was (R94, R461). -/
def strikeRegister (s : State) (t : Tid) (r : Reg) (bit : Nat) : State :=
  match r with
  | .v n => s.modThread t (fun th =>
      let x := th.v.getD n 0
      let y := x ^^^ (1#32 <<< (bit % 32))
      if n < th.v.length then { th with v := th.v.set n y, vres := strike th.vres n x.toNat y.toNat } else th)
  | .w n => s.modThread t (fun th =>
      let p := th.w.getD n zeroPacket
      let j := bit / 32 % 8
      let x := p.getD j 0
      let y := x ^^^ (1#32 <<< (bit % 32))
      if n < th.w.length then { th with w := th.w.set n (p.set j y), wres := strike th.wres (8 * n + j) x.toNat y.toNat } else th)
  | .k n => s.modSquad t.cell t.squad (fun q =>
      let x := q.k.getD n 0
      let y := x ^^^ (1#64 <<< (bit % 64))
      let i := 2 * n + bit / 32 % 2
      if n < q.k.length then { q with k := q.k.set n y, kres := strike q.kres i (halfOf q.k i).toNat (halfOf (q.k.set n y) i).toNat } else q)
  | .p n => s.modThread t (fun th => if 1 ≤ n ∧ n < 16 then { th with p := th.p ^^^ (1#16 <<< n), ppar := !th.ppar } else th)

/-- A soft error as its structure handles it. -/
def applyUpset (s : State) (u : Upset) : State :=
  match u with
  | .residue _ => s
  | .stackFails _ => s
  | .register t r bit => strikeRegister s t r bit
  | .core c a => report s c 1 a
  | .lineCorrectable a => report s (0x100 + homeSlice (.dev a)) 1 a
  | .line a => report (poisonFrame s (a / 2 ^ 17 * 2 ^ 17)) (0x100 + homeSlice (.dev a)) 2 a
  | .cellState c => cellCheck (groupsDone s c).2 c (groupsDone s c).1
  | .frameCorrectable f => report s (0x140 + f / 2 ^ 36) 1 f
  | .frame a => report (poisonFrame s (a / 2 ^ 17 * 2 ^ 17)) (0x140 + a / 2 ^ 36) 2 a
  | .firmwareCorrectable b a => report s (blockSource b) 1 a
  | .firmware b a => (reload (report s (blockSource b) 5 a) b).1

/-- SCRUB (R461), by a memory port that runs (R7, R18): every frame of the stack: what it finds is corrected, or its page is POISONED. -/
def execScrub (stack : Nat) (s : State) : Host.Outcome State Fault Refusal :=
  .next (
    let mine (u : Upset) : Bool := match u with
      | .frame f => f / 2 ^ 36 = stack
      | .frameCorrectable f => f / 2 ^ 36 = stack
      | _ => false
    if s.bootStep < 7 || s.blocksDown.contains (7 + stack) then s
    else (s.upsets.filter mine).foldl applyUpset { s with upsets := s.upsets.filter (fun u => !mine u) })

/-! ## The error log's reader (R368, R371) -/

/-- A record's 32 bytes (R368). -/
def logBytes (r : LogRec) : List Byte :=
  leBytes 8 r.seq ++ leBytes 2 r.src ++ leBytes 1 r.kind ++ leBytes 1 0 ++ leBytes 4 r.count ++ leBytes 8 r.addr ++ leBytes 8 r.time

/-- ERROR_LOG_READ (R371): the oldest unread record; status 1 where there is none (DESIGN CHOICE, log entry 72). -/
def execErrorLogRead (s : State) : Host.Outcome State Fault Refusal :=
  .next (match s.errlog with
    | [] => done s .errorLogRead 1
    | r :: rest => done (({ s with errlog := rest, logRead := s.logRead + 1 }).emit (.logRecord (logBytes r))) .errorLogRead 0)

end Sys2Proof.Machine
end

