-- ==== Sys2Proof/Machine/Sweep.lean ====
section
/-! DEFINITION. The sweep instructions (R140–R146): one operation over many segments of a cell's scratch, its iterations in step
across the threads of the bundle. -/
namespace Sys2Proof.Machine
open Sys2Proof

/-- An operand of a sweep: its k register, signed byte step and element size. -/
structure SweepOp where
  code : Code
  step : Int
  size : Nat

/-- Bytes of a format's element in memory. -/
def fmtBytes (c : Nat) : Nat := (nfmt c).width / 8

def stepOf (w : BitVec 16) : Int := toSigned 16 w.toNat

/-- The scratch operands in the order D, A, B, C. -/
def sweepOps (op : Nat) (f : Sweep) : List SweepOp :=
  let sz (c : Nat) : Nat := if op = 0x74 then fmtBytes c else 4
  let d : SweepOp := ⟨f.d, stepOf f.stepD, sz (f.cvtsel.toNat / 16 % 16)⟩
  let a : SweepOp := ⟨f.a, stepOf f.stepA, sz (f.cvtsel.toNat % 16)⟩
  let b : SweepOp := ⟨f.b, stepOf f.stepB, 4⟩
  let c : SweepOp := ⟨f.c, stepOf f.stepC, 4⟩
  if op = 0x76 then [a] else if op = 0x74 || op = 0x75 then [d, a] else if op = 0x72 then [d, a, b, c] else [d, a, b]

/-- off(X, i, L) for a thread (R141). -/
def sweepOff (q : Squad) (th : Thread) (lane : Nat) (x : SweepOp) (i : Nat) : Int :=
  ((readK q th (x.code.toNat - 0xC0)).toNat : Int) + i * x.step + lane * x.size

/-- What the checks of R141 find for a thread: the cause with the first failing offset, misalignment first by its lower code;
of the operands of one iteration the first in the order D, A, B, C (DESIGN CHOICE, log entry 36). -/
def sweepCheck (c : Cell) (q : Squad) (th : Thread) (lane : Nat) (ops : List SweepOp) (count : Nat) : Option (Cause × Dword) :=
  let all : List (SweepOp × Int) := (List.range count).flatMap (fun i => ops.map (fun x => (x, sweepOff q th lane x i)))
  let ofs (o : Int) : Dword := dword (wrapNat 64 o)
  match all.find? (fun y => y.2 % (y.1.size : Int) ≠ 0) with
  | some y => some (.misaligned, ofs y.2)
  | none =>
    match all.find? (fun y => decide (y.2 < 0) || decide (y.2 + (y.1.size : Int) > (c.shape.scratch : Int))) with
    | some y => some (.scratchBounds, ofs (if y.2 < 0 then y.2 else max y.2 (c.shape.scratch : Int)))
    | none => none

/-- The element operation of a sweep on the source elements (R142, R144). -/
def sweepElem (op : Nat) (f : Sweep) (xs : List Nat) : Nat × Flags :=
  let v (i : Nat) : FVal := unpack fp32 (xs.getD i 0)
  let sat := tb f.fn.toNat 0
  if op = 0x70 then satIf sat (faddV fp32 (v 0) (v 1))
  else if op = 0x71 then satIf sat (fmulV fp32 (v 0) (v 1))
  else if op = 0x72 then satIf sat (ffmaV fp32 (v 0) (v 1) (v 2))
  else if op = 0x73 then fminmaxBits fp32 true (xs.getD 0 0) (xs.getD 1 0)
  else if op = 0x74 then
    let s := f.cvtsel.toNat
    cvtBits (nfmt (s % 16)) (nfmt (s / 16 % 16)) (RMode.ofCode (s / 256 % 4)) (tb s 10) (xs.getD 0 0)
  else (xs.getD 0 0, 0)

/-- The threads of the bundle that pass the checks. -/
def sweepPassing (r : Rd) (ops : List SweepOp) (count : Nat) : List Tid :=
  r.act.filter (fun t => match r.s.cell? t.cell, r.s.squad? t.cell t.squad, r.s.thread? t with
    | some c, some q, some th => (sweepCheck c q th t.lane ops count).isNone
    | _, _, _ => false)

/-- One iteration: every thread reads before any writes (R142). -/
def sweepIter (op : Nat) (f : Sweep) (ops : List SweepOp) (s0 : State) (ts : List Tid) (s : State) (i : Nat) : State :=
  let outs := ts.filterMap (fun t => match s0.squad? t.cell t.squad, s0.thread? t with
    | some q, some th =>
      let at' (x : SweepOp) : Nat := (sweepOff q th t.lane x i).toNat
      match ops with
      | d :: srcs =>
        let xs := srcs.map (fun x => leNat (scratchRead s t.cell (at' x) x.size))
        let y := sweepElem op f xs
        some (t, at' d, leBytes d.size y.1, y.2)
      | [] => none
    | _, _ => none)
  outs.foldl (fun s o => orFlags (scratchWrite s o.1.cell o.2.1 o.2.2.1) o.1 o.2.2.2) s

/-- A sweep in one thread: the checks; the first thread that passes performs the iterations for all that do. -/
def semSweep (op : Nat) (f : Sweep) : LaneSem := fun r s =>
  let ops := sweepOps op f
  let n := f.count.toNat
  match sweepCheck r.c r.q r.th r.t.lane ops n with
  | some (c, a) => .cause c (some a) 0 0
  | none =>
    let pass := sweepPassing r ops n
    if pass.head? = some r.t then .done ((List.range n).foldl (sweepIter op f ops r.s pass) s) {}
    else .done s {}

/-- SW.SUM: the lattice sum of the thread's elements (R145); its flags never trap (R143). -/
def semSwSum (f : Sweep) : LaneSem := fun r s =>
  let ops := sweepOps 0x76 f
  let n := f.count.toNat
  match sweepCheck r.c r.q r.th r.t.lane ops n, ops with
  | some (c, a), _ => .cause c (some a) 0 0
  | none, x :: _ =>
    let els := (List.range n).map (fun i => leNat (scratchRead r.s r.t.cell (sweepOff r.q r.th r.t.lane x i).toNat 4))
    let y := latticeSum fp32 els
    .done (orFlags s r.t y.2) (writeV f.d (word y.1))
  | none, [] => .done s {}

/-- SW.FADD (R142). -/
def execSwFadd (f : Sweep) (s : State) : Host.Outcome State Fault Refusal := issue { form := .sweep 0x70 f, sem := semSweep 0x70 f } s
/-- SW.FMUL (R142). -/
def execSwFmul (f : Sweep) (s : State) : Host.Outcome State Fault Refusal := issue { form := .sweep 0x71 f, sem := semSweep 0x71 f } s
/-- SW.FFMA (R142). -/
def execSwFfma (f : Sweep) (s : State) : Host.Outcome State Fault Refusal := issue { form := .sweep 0x72 f, sem := semSweep 0x72 f } s
/-- SW.FMAX (R142). -/
def execSwFmax (f : Sweep) (s : State) : Host.Outcome State Fault Refusal := issue { form := .sweep 0x73 f, sem := semSweep 0x73 f } s
/-- SW.CVT (R144). -/
def execSwCvt (f : Sweep) (s : State) : Host.Outcome State Fault Refusal := issue { form := .sweep 0x74 f, sem := semSweep 0x74 f } s
/-- SW.COPY (R142). -/
def execSwCopy (f : Sweep) (s : State) : Host.Outcome State Fault Refusal := issue { form := .sweep 0x75 f, sem := semSweep 0x75 f } s
/-- SW.SUM (R145). -/
def execSwSum (f : Sweep) (s : State) : Host.Outcome State Fault Refusal := issue { form := .sweep 0x76 f, sem := semSwSum f } s

end Sys2Proof.Machine
end

