-- ==== Sys2Proof/Machine/Dispatch.lean ====
section
/-! DEFINITION. The dispatch: one arm per constructor of Instr, each one call of its meaning. -/
namespace Sys2Proof.Machine
open Sys2Proof

/-- The meaning of an instruction, event or command in a state. -/
def exec (i : Instr) (s : State) : Host.Outcome State Fault Refusal :=
  match i with
  | .nop => Sys2Proof.Machine.execNop s
  | .movBase f => Sys2Proof.Machine.execMovBase f s
  | .iaddBase f => Sys2Proof.Machine.execIaddBase f s
  | .isubBase f => Sys2Proof.Machine.execIsubBase f s
  | .imulBase f => Sys2Proof.Machine.execImulBase f s
  | .andBase f => Sys2Proof.Machine.execAndBase f s
  | .orBase f => Sys2Proof.Machine.execOrBase f s
  | .xorBase f => Sys2Proof.Machine.execXorBase f s
  | .andnBase f => Sys2Proof.Machine.execAndnBase f s
  | .shlBase f => Sys2Proof.Machine.execShlBase f s
  | .shrNBase f => Sys2Proof.Machine.execShrNBase f s
  | .shrSBase f => Sys2Proof.Machine.execShrSBase f s
  | .iminSBase f => Sys2Proof.Machine.execIminSBase f s
  | .imaxSBase f => Sys2Proof.Machine.execImaxSBase f s
  | .iminNBase f => Sys2Proof.Machine.execIminNBase f s
  | .imaxNBase f => Sys2Proof.Machine.execImaxNBase f s
  | .faddBase f => Sys2Proof.Machine.execFaddBase f s
  | .fsubBase f => Sys2Proof.Machine.execFsubBase f s
  | .fmulBase f => Sys2Proof.Machine.execFmulBase f s
  | .fminBase f => Sys2Proof.Machine.execFminBase f s
  | .fmaxBase f => Sys2Proof.Machine.execFmaxBase f s
  | .clzBase f => Sys2Proof.Machine.execClzBase f s
  | .ctzBase f => Sys2Proof.Machine.execCtzBase f s
  | .popcBase f => Sys2Proof.Machine.execPopcBase f s
  | .brevBase f => Sys2Proof.Machine.execBrevBase f s
  | .rolBase f => Sys2Proof.Machine.execRolBase f s
  | .rorBase f => Sys2Proof.Machine.execRorBase f s
  | .iaddBaseImm f => Sys2Proof.Machine.execIaddBaseImm f s
  | .shlBaseImm f => Sys2Proof.Machine.execShlBaseImm f s
  | .shrNBaseImm f => Sys2Proof.Machine.execShrNBaseImm f s
  | .shrSBaseImm f => Sys2Proof.Machine.execShrSBaseImm f s
  | .andBaseImm f => Sys2Proof.Machine.execAndBaseImm f s
  | .orBaseImm f => Sys2Proof.Machine.execOrBaseImm f s
  | .xorBaseImm f => Sys2Proof.Machine.execXorBaseImm f s
  | .movi f => Sys2Proof.Machine.execMovi f s
  | .movhi f => Sys2Proof.Machine.execMovhi f s
  | .braBase f => Sys2Proof.Machine.execBraBase f s
  | .callBase f => Sys2Proof.Machine.execCallBase f s
  | .retBase a => Sys2Proof.Machine.execRetBase a s
  | .exitBase => Sys2Proof.Machine.execExitBase s
  | .iaddBaseLit f => Sys2Proof.Machine.execIaddBaseLit f s
  | .isubBaseLit f => Sys2Proof.Machine.execIsubBaseLit f s
  | .imulBaseLit f => Sys2Proof.Machine.execImulBaseLit f s
  | .andBaseLit f => Sys2Proof.Machine.execAndBaseLit f s
  | .orBaseLit f => Sys2Proof.Machine.execOrBaseLit f s
  | .xorBaseLit f => Sys2Proof.Machine.execXorBaseLit f s
  | .andnBaseLit f => Sys2Proof.Machine.execAndnBaseLit f s
  | .shlBaseLit f => Sys2Proof.Machine.execShlBaseLit f s
  | .shrNBaseLit f => Sys2Proof.Machine.execShrNBaseLit f s
  | .shrSBaseLit f => Sys2Proof.Machine.execShrSBaseLit f s
  | .iminSBaseLit f => Sys2Proof.Machine.execIminSBaseLit f s
  | .imaxSBaseLit f => Sys2Proof.Machine.execImaxSBaseLit f s
  | .iminNBaseLit f => Sys2Proof.Machine.execIminNBaseLit f s
  | .imaxNBaseLit f => Sys2Proof.Machine.execImaxNBaseLit f s
  | .faddBaseLit f => Sys2Proof.Machine.execFaddBaseLit f s
  | .fsubBaseLit f => Sys2Proof.Machine.execFsubBaseLit f s
  | .fmulBaseLit f => Sys2Proof.Machine.execFmulBaseLit f s
  | .fminBaseLit f => Sys2Proof.Machine.execFminBaseLit f s
  | .fmaxBaseLit f => Sys2Proof.Machine.execFmaxBaseLit f s
  | .rolBaseLit f => Sys2Proof.Machine.execRolBaseLit f s
  | .rorBaseLit f => Sys2Proof.Machine.execRorBaseLit f s
  | .iadd f => Sys2Proof.Machine.execIadd f s
  | .isub f => Sys2Proof.Machine.execIsub f s
  | .imul f => Sys2Proof.Machine.execImul f s
  | .imulh f => Sys2Proof.Machine.execImulh f s
  | .imad f => Sys2Proof.Machine.execImad f s
  | .imin f => Sys2Proof.Machine.execImin f s
  | .imax f => Sys2Proof.Machine.execImax f s
  | .iabs f => Sys2Proof.Machine.execIabs f s
  | .ineg f => Sys2Proof.Machine.execIneg f s
  | .and f => Sys2Proof.Machine.execAnd f s
  | .or f => Sys2Proof.Machine.execOr f s
  | .xor f => Sys2Proof.Machine.execXor f s
  | .andn f => Sys2Proof.Machine.execAndn f s
  | .shl f => Sys2Proof.Machine.execShl f s
  | .shr f => Sys2Proof.Machine.execShr f s
  | .rol f => Sys2Proof.Machine.execRol f s
  | .ror f => Sys2Proof.Machine.execRor f s
  | .clz f => Sys2Proof.Machine.execClz f s
  | .ctz f => Sys2Proof.Machine.execCtz f s
  | .popc f => Sys2Proof.Machine.execPopc f s
  | .brev f => Sys2Proof.Machine.execBrev f s
  | .bfx f => Sys2Proof.Machine.execBfx f s
  | .bfi f => Sys2Proof.Machine.execBfi f s
  | .bitil f => Sys2Proof.Machine.execBitil f s
  | .bitdil f => Sys2Proof.Machine.execBitdil f s
  | .sel f => Sys2Proof.Machine.execSel f s
  | .mov f => Sys2Proof.Machine.execMov f s
  | .isetp f => Sys2Proof.Machine.execIsetp f s
  | .plop f => Sys2Proof.Machine.execPlop f s
  | .vote f => Sys2Proof.Machine.execVote f s
  | .cvt f => Sys2Proof.Machine.execCvt f s
  | .pack f => Sys2Proof.Machine.execPack f s
  | .unpack f => Sys2Proof.Machine.execUnpack f s
  | .refmk f => Sys2Proof.Machine.execRefmk f s
  | .refadd f => Sys2Proof.Machine.execRefadd f s
  | .refget f => Sys2Proof.Machine.execRefget f s
  | .fadd f => Sys2Proof.Machine.execFadd f s
  | .fsub f => Sys2Proof.Machine.execFsub f s
  | .fmul f => Sys2Proof.Machine.execFmul f s
  | .ffma f => Sys2Proof.Machine.execFfma f s
  | .fmin f => Sys2Proof.Machine.execFmin f s
  | .fmax f => Sys2Proof.Machine.execFmax f s
  | .fsetp f => Sys2Proof.Machine.execFsetp f s
  | .frnd f => Sys2Proof.Machine.execFrnd f s
  | .fclass f => Sys2Proof.Machine.execFclass f s
  | .ftwosum f => Sys2Proof.Machine.execFtwosum f s
  | .ftwoprod f => Sys2Proof.Machine.execFtwoprod f s
  | .fdivR f => Sys2Proof.Machine.execFdivR f s
  | .fsqrtR f => Sys2Proof.Machine.execFsqrtR f s
  | .rcpF f => Sys2Proof.Machine.execRcpF f s
  | .rcpR f => Sys2Proof.Machine.execRcpR f s
  | .rsqF f => Sys2Proof.Machine.execRsqF f s
  | .rsqR f => Sys2Proof.Machine.execRsqR f s
  | .exp2F f => Sys2Proof.Machine.execExp2F f s
  | .exp2R f => Sys2Proof.Machine.execExp2R f s
  | .log2F f => Sys2Proof.Machine.execLog2F f s
  | .log2R f => Sys2Proof.Machine.execLog2R f s
  | .sinpiF f => Sys2Proof.Machine.execSinpiF f s
  | .sinpiR f => Sys2Proof.Machine.execSinpiR f s
  | .cospiF f => Sys2Proof.Machine.execCospiF f s
  | .cospiR f => Sys2Proof.Machine.execCospiR f s
  | .tanhF f => Sys2Proof.Machine.execTanhF f s
  | .tanhR f => Sys2Proof.Machine.execTanhR f s
  | .hfma2 f => Sys2Proof.Machine.execHfma2 f s
  | .hadd2 f => Sys2Proof.Machine.execHadd2 f s
  | .hmul2 f => Sys2Proof.Machine.execHmul2 f s
  | .bfma2 f => Sys2Proof.Machine.execBfma2 f s
  | .swFadd f => Sys2Proof.Machine.execSwFadd f s
  | .swFmul f => Sys2Proof.Machine.execSwFmul f s
  | .swFfma f => Sys2Proof.Machine.execSwFfma f s
  | .swFmax f => Sys2Proof.Machine.execSwFmax f s
  | .swCvt f => Sys2Proof.Machine.execSwCvt f s
  | .swCopy f => Sys2Proof.Machine.execSwCopy f s
  | .swSum f => Sys2Proof.Machine.execSwSum f s
  | .ld f => Sys2Proof.Machine.execLd f s
  | .st f => Sys2Proof.Machine.execSt f s
  | .lds f => Sys2Proof.Machine.execLds f s
  | .sts f => Sys2Proof.Machine.execSts f s
  | .ldw f => Sys2Proof.Machine.execLdw f s
  | .stw f => Sys2Proof.Machine.execStw f s
  | .uld f => Sys2Proof.Machine.execUld f s
  | .ust f => Sys2Proof.Machine.execUst f s
  | .pref f => Sys2Proof.Machine.execPref f s
  | .fence f => Sys2Proof.Machine.execFence f s
  | .atom f => Sys2Proof.Machine.execAtom f s
  | .atomb f => Sys2Proof.Machine.execAtomb f s
  | .cas f => Sys2Proof.Machine.execCas f s
  | .red f => Sys2Proof.Machine.execRed f s
  | .filmadd f => Sys2Proof.Machine.execFilmadd f s
  | .monarm f => Sys2Proof.Machine.execMonarm f s
  | .monwait f => Sys2Proof.Machine.execMonwait f s
  | .wadd f => Sys2Proof.Machine.execWadd f s
  | .wsub f => Sys2Proof.Machine.execWsub f s
  | .wmul f => Sys2Proof.Machine.execWmul f s
  | .wfma f => Sys2Proof.Machine.execWfma f s
  | .wmin f => Sys2Proof.Machine.execWmin f s
  | .wmax f => Sys2Proof.Machine.execWmax f s
  | .wsel f => Sys2Proof.Machine.execWsel f s
  | .wmov f => Sys2Proof.Machine.execWmov f s
  | .wext f => Sys2Proof.Machine.execWext f s
  | .wins f => Sys2Proof.Machine.execWins f s
  | .wlambda f => Sys2Proof.Machine.execWlambda f s
  | .wsum f => Sys2Proof.Machine.execWsum f s
  | .wxyz f => Sys2Proof.Machine.execWxyz f s
  | .wmueller f => Sys2Proof.Machine.execWmueller f s
  | .wrcpF f => Sys2Proof.Machine.execWrcpF f s
  | .wrcpR f => Sys2Proof.Machine.execWrcpR f s
  | .wexp2F f => Sys2Proof.Machine.execWexp2F f s
  | .wexp2R f => Sys2Proof.Machine.execWexp2R f s
  | .wsetp f => Sys2Proof.Machine.execWsetp f s
  | .wcvt f => Sys2Proof.Machine.execWcvt f s
  | .samplew f => Sys2Proof.Machine.execSamplew f s
  | .sample f => Sys2Proof.Machine.execSample f s
  | .texld f => Sys2Proof.Machine.execTexld f s
  | .specup f => Sys2Proof.Machine.execSpecup f s
  | .trace f => Sys2Proof.Machine.execTrace f s
  | .trcont f => Sys2Proof.Machine.execTrcont f s
  | .trget f => Sys2Proof.Machine.execTrget f s
  | .mxbld f => Sys2Proof.Machine.execMxbld f s
  | .mxmE4m3 f => Sys2Proof.Machine.execMxmE4m3 f s
  | .mxmE5m2 f => Sys2Proof.Machine.execMxmE5m2 f s
  | .mxmE2m1 f => Sys2Proof.Machine.execMxmE2m1 f s
  | .mxmI8g f => Sys2Proof.Machine.execMxmI8g f s
  | .mxmI4g f => Sys2Proof.Machine.execMxmI4g f s
  | .mxmBf16 f => Sys2Proof.Machine.execMxmBf16 f s
  | .mxmF16 f => Sys2Proof.Machine.execMxmF16 f s
  | .mxmv f => Sys2Proof.Machine.execMxmv f s
  | .mxz f => Sys2Proof.Machine.execMxz f s
  | .mxrd f => Sys2Proof.Machine.execMxrd f s
  | .mxwr f => Sys2Proof.Machine.execMxwr f s
  | .mxst f => Sys2Proof.Machine.execMxst f s
  | .mxqry f => Sys2Proof.Machine.execMxqry f s
  | .barinit f => Sys2Proof.Machine.execBarinit f s
  | .bararv f => Sys2Proof.Machine.execBararv f s
  | .barwait f => Sys2Proof.Machine.execBarwait f s
  | .bartest f => Sys2Proof.Machine.execBartest f s
  | .barinv f => Sys2Proof.Machine.execBarinv f s
  | .barqry f => Sys2Proof.Machine.execBarqry f s
  | .sync f => Sys2Proof.Machine.execSync f s
  | .phase f => Sys2Proof.Machine.execPhase f s
  | .xprunStart f => Sys2Proof.Machine.execXprunStart f s
  | .xprunResume f => Sys2Proof.Machine.execXprunResume f s
  | .xprunQry f => Sys2Proof.Machine.execXprunQry f s
  | .xprunKill f => Sys2Proof.Machine.execXprunKill f s
  | .tcopy f => Sys2Proof.Machine.execTcopy f s
  | .qmapBind f => Sys2Proof.Machine.execQmapBind f s
  | .qmapUnbind f => Sys2Proof.Machine.execQmapUnbind f s
  | .amsend f => Sys2Proof.Machine.execAmsend f s
  | .bra f => Sys2Proof.Machine.execBra f s
  | .brx f => Sys2Proof.Machine.execBrx f s
  | .call f => Sys2Proof.Machine.execCall f s
  | .callx f => Sys2Proof.Machine.execCallx f s
  | .ret f => Sys2Proof.Machine.execRet f s
  | .exit f => Sys2Proof.Machine.execExit f s
  | .yield f => Sys2Proof.Machine.execYield f s
  | .trap f => Sys2Proof.Machine.execTrap f s
  | .tret f => Sys2Proof.Machine.execTret f s
  | .brk f => Sys2Proof.Machine.execBrk f s
  | .csrr f => Sys2Proof.Machine.execCsrr f s
  | .csrw f => Sys2Proof.Machine.execCsrw f s
  | .clk f => Sys2Proof.Machine.execClk f s
  | .ptpnow f => Sys2Proof.Machine.execPtpnow f s
  | .xnop f => Sys2Proof.Machine.execXnop f s
  | .xli f => Sys2Proof.Machine.execXli f s
  | .xadd f => Sys2Proof.Machine.execXadd f s
  | .xaddi f => Sys2Proof.Machine.execXaddi f s
  | .xsub f => Sys2Proof.Machine.execXsub f s
  | .xmul f => Sys2Proof.Machine.execXmul f s
  | .xand f => Sys2Proof.Machine.execXand f s
  | .xior f => Sys2Proof.Machine.execXior f s
  | .xxor f => Sys2Proof.Machine.execXxor f s
  | .xshl f => Sys2Proof.Machine.execXshl f s
  | .xshr f => Sys2Proof.Machine.execXshr f s
  | .xb f => Sys2Proof.Machine.execXb f s
  | .xbeq f => Sys2Proof.Machine.execXbeq f s
  | .xbne f => Sys2Proof.Machine.execXbne f s
  | .xblt f => Sys2Proof.Machine.execXblt f s
  | .xbge f => Sys2Proof.Machine.execXbge f s
  | .xloop f => Sys2Proof.Machine.execXloop f s
  | .xlend f => Sys2Proof.Machine.execXlend f s
  | .xld f => Sys2Proof.Machine.execXld f s
  | .xst f => Sys2Proof.Machine.execXst f s
  | .xgset f => Sys2Proof.Machine.execXgset f s
  | .xgpos f => Sys2Proof.Machine.execXgpos f s
  | .xgstep f => Sys2Proof.Machine.execXgstep f s
  | .xcopy f => Sys2Proof.Machine.execXcopy f s
  | .xgath f => Sys2Proof.Machine.execXgath f s
  | .xmcast f => Sys2Proof.Machine.execXmcast f s
  | .xqpush f => Sys2Proof.Machine.execXqpush f s
  | .xconv f => Sys2Proof.Machine.execXconv f s
  | .xbarv f => Sys2Proof.Machine.execXbarv f s
  | .xbwait f => Sys2Proof.Machine.execXbwait f s
  | .xmxm f => Sys2Proof.Machine.execXmxm f s
  | .xstamp f => Sys2Proof.Machine.execXstamp f s
  | .xqfence f => Sys2Proof.Machine.execXqfence f s
  | .xwait f => Sys2Proof.Machine.execXwait f s
  | .xtrap f => Sys2Proof.Machine.execXtrap f s
  | .xexit f => Sys2Proof.Machine.execXexit f s
  | .longLatencyRetire t => Sys2Proof.Machine.execLongLatencyRetire t s
  | .curdle core => Sys2Proof.Machine.execCurdle core s
  | .arrayOpPerform core => Sys2Proof.Machine.execArrayOpPerform core s
  | .subarrayGate core => Sys2Proof.Machine.execSubarrayGate core s
  | .transferLand x run => Sys2Proof.Machine.execTransferLand x run s
  | .slotWake cell slot => Sys2Proof.Machine.execSlotWake cell slot s
  | .phaseComplete gang => Sys2Proof.Machine.execPhaseComplete gang s
  | .xmxmEntry x => Sys2Proof.Machine.execXmxmEntry x s
  | .xpWaitEnd x => Sys2Proof.Machine.execXpWaitEnd x s
  | .tcopyService core => Sys2Proof.Machine.execTcopyService core s
  | .combineTimeout req => Sys2Proof.Machine.execCombineTimeout req s
  | .atomicPerform req => Sys2Proof.Machine.execAtomicPerform req s
  | .replySplit reply => Sys2Proof.Machine.execReplySplit reply s
  | .monwaitTimeout t => Sys2Proof.Machine.execMonwaitTimeout t s
  | .batchTermArrival term => Sys2Proof.Machine.execBatchTermArrival term s
  | .batchTimeout batch => Sys2Proof.Machine.execBatchTimeout batch s
  | .batchReply reply => Sys2Proof.Machine.execBatchReply reply s
  | .trapDelivery cell squad => Sys2Proof.Machine.execTrapDelivery cell squad s
  | .placement => Sys2Proof.Machine.execPlacement s
  | .reservation kernel => Sys2Proof.Machine.execReservation kernel s
  | .recall cell squad => Sys2Proof.Machine.execRecall cell squad s
  | .cellExit cell => Sys2Proof.Machine.execCellExit cell s
  | .cooperativeSave gang => Sys2Proof.Machine.execCooperativeSave gang s
  | .forcedSave gang => Sys2Proof.Machine.execForcedSave gang s
  | .ctxCreate desc => Sys2Proof.Machine.execCtxCreate desc s
  | .ctxBind ctx pset => Sys2Proof.Machine.execCtxBind ctx pset s
  | .ctxUnbind ctx => Sys2Proof.Machine.execCtxUnbind ctx s
  | .ctxSwap part => Sys2Proof.Machine.execCtxSwap part s
  | .caveExchange part => Sys2Proof.Machine.execCaveExchange part s
  | .ctxPark ctx => Sys2Proof.Machine.execCtxPark ctx s
  | .ctxUnpark ctx => Sys2Proof.Machine.execCtxUnpark ctx s
  | .ctxKill ctx => Sys2Proof.Machine.execCtxKill ctx s
  | .teardownComplete ctx => Sys2Proof.Machine.execTeardownComplete ctx s
  | .ctxFree ctx => Sys2Proof.Machine.execCtxFree ctx s
  | .qCreate shadow => Sys2Proof.Machine.execQCreate shadow s
  | .qReset qid skip => Sys2Proof.Machine.execQReset qid skip s
  | .qDestroy qid => Sys2Proof.Machine.execQDestroy qid s
  | .queueWake qid => Sys2Proof.Machine.execQueueWake qid s
  | .nopEntry qid => Sys2Proof.Machine.execNopEntry qid s
  | .launch qid => Sys2Proof.Machine.execLaunch qid s
  | .launchInd qid => Sys2Proof.Machine.execLaunchInd qid s
  | .prologueBudget lp => Sys2Proof.Machine.execPrologueBudget lp s
  | .xplaunch qid => Sys2Proof.Machine.execXplaunch qid s
  | .copy qid => Sys2Proof.Machine.execCopy qid s
  | .copyComplete copy => Sys2Proof.Machine.execCopyComplete copy s
  | .qfence qid => Sys2Proof.Machine.execQfence qid s
  | .qfenceRelease qid => Sys2Proof.Machine.execQfenceRelease qid s
  | .signal qid => Sys2Proof.Machine.execSignal qid s
  | .wait qid => Sys2Proof.Machine.execWait qid s
  | .waitRelease qid => Sys2Proof.Machine.execWaitRelease qid s
  | .waitTimeout qid => Sys2Proof.Machine.execWaitTimeout qid s
  | .timed qid => Sys2Proof.Machine.execTimed qid s
  | .timedRelease qid => Sys2Proof.Machine.execTimedRelease qid s
  | .collective qid => Sys2Proof.Machine.execCollective qid s
  | .collectiveComplete peers => Sys2Proof.Machine.execCollectiveComplete peers s
  | .heldRelease qid => Sys2Proof.Machine.execHeldRelease qid s
  | .btSet ctx index entry => Sys2Proof.Machine.execBtSet ctx index entry s
  | .pgMap ctx index page frame zero => Sys2Proof.Machine.execPgMap ctx index page frame zero s
  | .pgUnmap ctx index page => Sys2Proof.Machine.execPgUnmap ctx index page s
  | .pgBrine ctx index page => Sys2Proof.Machine.execPgBrine ctx index page s
  | .brineDone root page => Sys2Proof.Machine.execBrineDone root page s
  | .pgMigrate ctx index page frame => Sys2Proof.Machine.execPgMigrate ctx index page frame s
  | .migrateDone root page => Sys2Proof.Machine.execMigrateDone root page s
  | .pgPool pool frames => Sys2Proof.Machine.execPgPool pool frames s
  | .pgScan ctx index first count clear => Sys2Proof.Machine.execPgScan ctx index first count clear s
  | .ckpt ctx buffers target full => Sys2Proof.Machine.execCkpt ctx buffers target full s
  | .expansionDone root page => Sys2Proof.Machine.execExpansionDone root page s
  | .winSet seg entry => Sys2Proof.Machine.execWinSet seg entry s
  | .hostRead off len => Sys2Proof.Machine.execHostRead off len s
  | .hostWrite off data => Sys2Proof.Machine.execHostWrite off data s
  | .hostAtomicop off => Sys2Proof.Machine.execHostAtomicop off s
  | .linkCfg rank => Sys2Proof.Machine.execLinkCfg rank s
  | .linkRoute rank ports => Sys2Proof.Machine.execLinkRoute rank ports s
  | .linkEnable port => Sys2Proof.Machine.execLinkEnable port s
  | .trainingDone port lanes => Sys2Proof.Machine.execTrainingDone port lanes s
  | .trainingTimeout port => Sys2Proof.Machine.execTrainingTimeout port s
  | .linkError port => Sys2Proof.Machine.execLinkError port s
  | .retrainingDone port lanes => Sys2Proof.Machine.execRetrainingDone port lanes s
  | .retrainingTimeout port => Sys2Proof.Machine.execRetrainingTimeout port s
  | .linkFence port => Sys2Proof.Machine.execLinkFence port s
  | .linkUnfence port => Sys2Proof.Machine.execLinkUnfence port s
  | .linkDisable port => Sys2Proof.Machine.execLinkDisable port s
  | .isolate port => Sys2Proof.Machine.execIsolate port s
  | .release port => Sys2Proof.Machine.execRelease port s
  | .linkQry port => Sys2Proof.Machine.execLinkQry port s
  | .remoteRequestArrival r => Sys2Proof.Machine.execRemoteRequestArrival r s
  | .remoteResponse r => Sys2Proof.Machine.execRemoteResponse r s
  | .remoteRetransmit req => Sys2Proof.Machine.execRemoteRetransmit req s
  | .amArrival m => Sys2Proof.Machine.execAmArrival m s
  | .amBatchTimeout cell hidx => Sys2Proof.Machine.execAmBatchTimeout cell hidx s
  | .handlerSquadStart cell hidx => Sys2Proof.Machine.execHandlerSquadStart cell hidx s
  | .creditReturn => Sys2Proof.Machine.execCreditReturn s
  | .powerGood => Sys2Proof.Machine.execPowerGood s
  | .heartbeat block => Sys2Proof.Machine.execHeartbeat block s
  | .heartbeatTimeout block => Sys2Proof.Machine.execHeartbeatTimeout block s
  | .fwReload block => Sys2Proof.Machine.execFwReload block s
  | .sectorReset sector => Sys2Proof.Machine.execSectorReset sector s
  | .attest nonce => Sys2Proof.Machine.execAttest nonce s
  | .csrSet csr value => Sys2Proof.Machine.execCsrSet csr value s
  | .pwrQry => Sys2Proof.Machine.execPwrQry s
  | .droopDetect sector => Sys2Proof.Machine.execDroopDetect sector s
  | .droopRecover sector => Sys2Proof.Machine.execDroopRecover sector s
  | .scrub stack => Sys2Proof.Machine.execScrub stack s
  | .ppsInput sec nsec => Sys2Proof.Machine.execPpsInput sec nsec s
  | .preqClear gang => Sys2Proof.Machine.execPreqClear gang s
  | .replayFilterExpiry entry => Sys2Proof.Machine.execReplayFilterExpiry entry s
  | .ckptPageRead => Sys2Proof.Machine.execCkptPageRead s
  | .ckptComplete => Sys2Proof.Machine.execCkptComplete s
  | .parkCopyDone ctx => Sys2Proof.Machine.execParkCopyDone ctx s
  | .hostConfigRequest => Sys2Proof.Machine.execHostConfigRequest s
  | .errorLogRead => Sys2Proof.Machine.execErrorLogRead s

end Sys2Proof.Machine
end

