-- ==== Sys2Proof/Machine/Schedule.lean ====
section
/-! DEFINITION. What happens next when the state names nothing: which arrived events and commands are held back, and the internal
events that can happen, of which the clock picks one. The choice among them is the model's (the spec leaves it open); an event
listed in the agenda comes first. -/
namespace Sys2Proof.Machine
open Sys2Proof

/-! ## What is held back -/

/-- A driver command (R282, R295, R401, R408, R411, R413, R456–R460): none is answered before boot step 7 (R450). -/
def isCommand : Instr → Bool
  | .ctxCreate _ => true
  | .ctxBind _ _ => true
  | .ctxUnbind _ => true
  | .ctxSwap _ => true
  | .ctxPark _ => true
  | .ctxUnpark _ => true
  | .ctxKill _ => true
  | .ctxFree _ => true
  | .qCreate _ => true
  | .qReset _ _ => true
  | .qDestroy _ => true
  | .btSet _ _ _ => true
  | .pgMap _ _ _ _ _ => true
  | .pgUnmap _ _ _ => true
  | .pgBrine _ _ _ => true
  | .pgMigrate _ _ _ _ => true
  | .pgPool _ _ => true
  | .pgScan _ _ _ _ _ => true
  | .ckpt _ _ _ _ => true
  | .winSet _ _ => true
  | .linkCfg _ => true
  | .linkRoute _ _ => true
  | .linkEnable _ => true
  | .linkFence _ => true
  | .linkUnfence _ => true
  | .linkDisable _ => true
  | .linkQry _ => true
  | .fwReload _ => true
  | .sectorReset _ => true
  | .isolate _ => true
  | .release _ => true
  | .attest _ => true
  | .csrSet _ _ => true
  | .pwrQry => true
  | .errorLogRead => true
  | _ => false

/-- A context that a swap or park moves holds the commands that name it (R282). -/
def ctxHeld (s : State) (ctx : Nat) : Bool := ((s.ctx? ctx).map (·.busy)).getD false

/-- A queue whose prologue runs holds the commands that name it (R295). -/
def queueHeld (s : State) (qid : Nat) : Bool :=
  match (s.queue? qid).bind (fun q => (s.lps[q.lp]?).bind LaunchProc.prologue) with
  | some p => p.qid = qid && p.ended.isNone
  | none => false

/-- A page whose residency a command ends holds it while a run on the page awaits a peer (R400). -/
def pageHeld (s : State) (ctx index page : Nat) : Bool :=
  match (s.ctx? ctx).bind (fun c => btHeld c index) with
  | none => false
  | some e =>
    match s.page? e.ptroot page with
    | none => false
    | some p => p.state ≠ .expanding && p.state ≠ .migrating && runOnPage (settlePage s e.ptroot page) e.ptroot page

/-- How an arriving access begins to wait: for a page in motion, or for a peer whose buffer it names (R292, R398, R406, R408, R414). -/
def arrivalWait (s : State) (i : Instr) : Option (State → State) :=
  match i with
  | .hostRead off len => match hostReady s off len with
    | .ok _ => none
    | .bad _ _ => none
    | w => some (fun s => beginWait s .host w)
  | .hostWrite off data => match hostCheck s needStoreImm WinEntry.wr off data.length with
    | .waits r p => some (fun s => firstTouch s r p)
    | .bad _ _ => none
    | .ok a => match putFor s .host none a data with
      | .waits _ => some (fun s => askPeer s .host a (.write data))
      | _ => none
  | .remoteRequestArrival ⟨via, r⟩ => match peerCheck s r with
    | .waits root p => if accepts s via && r.op ≠ .foreign && !(opOrdered r.op && ((filterHit s r).isSome || flyingTag s r)) then some (fun s => firstTouch s root p) else none
    | _ => none
  | .ctxUnbind c => match unbindAsks s c with
    | [] => none
    | l => some (fun s => l.foldl (fun s x => beginWait s x.1 x.2) s)
  | _ => none

/-- An arriving request that the full replay filter delays (R242). -/
def creditWithheld (s : State) : Instr → Bool
  | .remoteRequestArrival ⟨via, r⟩ => accepts s via && opOrdered r.op && (filterHit s r).isNone && !flyingTag s r && filterFull s
  | _ => false

/-- A command to a firmware block that is in reset (R458): a launch processor's queue, or the link. -/
def blockHeld (s : State) (i : Instr) : Bool :=
  let lpOf (qid : Nat) : Bool := (s.queue? qid).any (fun q => s.blocksDown.contains q.lp)
  let link : Bool := !linkRuns s
  match i with
  | .qCreate b => s.blocksDown.contains (byteField b 7 1)
  | .qReset q _ => lpOf q
  | .qDestroy q => lpOf q
  | .linkCfg _ => link
  | .linkRoute _ _ => link
  | .linkEnable _ => link
  | .linkFence _ => link
  | .linkUnfence _ => link
  | .linkDisable _ => link
  | .linkQry _ => link
  | _ => false

/-- An arrived event or command that waits for a later step (DESIGN CHOICE, log entry 26). -/
def heldBack (s : State) (i : Instr) : Bool :=
  (isCommand i && decide (s.bootStep < 7)) || (arrivalWait s i).isSome || creditWithheld s i || blockHeld s i ||
    (match i with
     | .ctxBind c _ => ctxHeld s c
     | .ctxUnbind c => ctxHeld s c
     | .ctxPark c => ctxHeld s c
     | .ctxUnpark c => ctxHeld s c
     | .ctxKill c => ctxHeld s c
     | .ctxFree c => ctxHeld s c
     | .ctxSwap p => (swapCtxs s p).any (ctxHeld s)
     | .qReset q _ => queueHeld s q
     | .qDestroy q => queueHeld s q
     | .btSet c x _ => ((s.ctx? c).bind (fun y => (y.bt.find? (fun e => e.1 == x)).map (·.2))).any (entryAsked s)
     | .pgUnmap c x p => pageHeld s c x p
     | .pgBrine c x p => pageHeld s c x p
     | .pgMigrate c x p _ => pageHeld s c x p
     | .ckpt _ _ _ _ => s.ckpt.isSome
     | .collectiveComplete p => !s.colls.any (fun (j : CollJob) => j.hears p) || (shardsSay p && !linkOpen s)
     | .creditReturn => !linkOpen s
     | .amArrival p => accepts s p.via && messageWaits s p
     | _ => false)

def isHost : Instr → Bool
  | .hostRead _ _ => true
  | .hostWrite _ _ => true
  | _ => false

/-- The first event or command that is not held back, and those that stay; a host access stays behind an earlier one (R408). -/
def nextFrom (s : State) (host : Bool) : List Instr → Option (Instr × List Instr)
  | [] => none
  | i :: rest =>
    if heldBack s i || (host && isHost i) then (nextFrom s (host || isHost i) rest).map (fun x => (x.1, i :: x.2)) else some (i, rest)

def nextEvent (s : State) (l : List Instr) : Option (Instr × List Instr) := nextFrom s false l

/-! ## What can happen by itself -/

/-- An event that may happen in a state. -/
abbrev Try := State → Host.Outcome State Fault Refusal

/-- Queues and launch processors (R292–R315). -/
def queueTries (s : State) : List Try :=
  (s.queues.filter (fun q => !s.blocksDown.contains q.lp)).flatMap (fun q =>
    (if q.state = .idle then (if q.woken then [execQueueWake q.qid] else []) else [])
      ++ (match q.head with
          | none => []
          | some e => execHeldRelease q.qid :: (match e.kind with
              | .nop => [execNopEntry q.qid]
              | .launch _ => [execLaunch q.qid]
              | .launchInd _ _ _ _ => [execLaunchInd q.qid]
              | .xplaunch _ _ _ _ _ _ _ => [execXplaunch q.qid]
              | .copy _ _ _ => [execCopy q.qid]
              | .qfence _ => [execQfence q.qid, execQfenceRelease q.qid]
              | .signal _ _ => [execSignal q.qid]
              | .wait _ _ _ _ => [execWait q.qid, execWaitRelease q.qid, execWaitTimeout q.qid]
              | .timed _ _ _ => [execTimed q.qid, execTimedRelease q.qid]
              | .collective _ => [execCollective q.qid])))
    ++ (List.range s.lps.length).map execPrologueBudget
    ++ s.copyJobs.map (fun j => execCopyComplete j.id)
    ++ (match s.colls with
        | j :: _ => if linkRuns s && (j.failed || j.allAgree) then [execCollectiveComplete ⟨j.groupId, j.seq, false, [], [], []⟩] else []
        | [] => [])

/-- A context or a prologue whose next instruction can issue (R246, R304). -/
def issueTries (s : State) : List Try :=
  (s.cells.flatMap (fun c => (List.range c.xps.length).filterMap (fun i =>
      let x : Xid := ⟨c.id, i + 1⟩
      if xpCanIssue s x && !s.issue.contains (.xp x) then some (fun s => .next { s with issue := s.issue ++ [.xp x] }) else none)))
    ++ ((List.range s.lps.length).filterMap (fun lp =>
      if proRuns s lp && !prologueHeld s lp && !s.blocksDown.contains lp then some (fun s => .next { s with issue := s.issue ++ [.prologue lp] }) else none))

/-- What the threads of a cell await (R72, R241, R331, R349). -/
def threadTries (c : Cell) : List Try :=
  (cellThreads c).flatMap (fun x =>
      (if x.2.2.walk.isSome || x.2.2.board.any (fun o => o.awaits = .unit) then [execLongLatencyRetire x.1] else [])
        ++ (match x.2.2.wait with
            | some (.monitor _ _) => [execMonwaitTimeout x.1]
            | _ => []))
    ++ ((List.range c.squads.length).zip c.squads).flatMap (fun x =>
      (if x.2.trap ≠ .idle then [execTrapDelivery c.id x.1] else []) ++ (if x.2.recalled then [execRecall c.id x.1] else []))

/-- Slots, runs, contexts and the end of a cell (R258, R346, R374). -/
def cellTries (c : Cell) : List Try :=
  threadTries c
    ++ ((List.range c.slots.length).zip c.slots).filterMap (fun x => if x.2.state = .completing then some (execSlotWake c.id x.1) else none)
    ++ c.runs.map (fun r => execTransferLand ⟨c.id, r.ctx⟩ r.id)
    ++ (List.range c.xps.length).flatMap (fun i => [execXmxmEntry ⟨c.id, i + 1⟩, execXpWaitEnd ⟨c.id, i + 1⟩])
    ++ [execCellExit c.id]

/-- A core's array queue and tensor-copy engine (R192, R273). -/
def coreTries (s : State) (k : Core) : List Try :=
  (match k.array with
        | e :: _ => if ((s.cell? e.cell).map (fun c => ctxLive s c.ctx)).getD true then [execArrayOpPerform k.id] else []
        | [] => [])
    ++ (if k.awake ≠ 0 then [execSubarrayGate k.id] else [])
    ++ (if k.tcopy.isEmpty then [] else [execTcopyService k.id])

/-- Gangs, kernels, contexts and partitions (R283, R285, R288, R324, R325, R340, R387). -/
def gangTries (s : State) : List Try :=
  s.gangs.flatMap (fun g => [execPhaseComplete g.id, execCooperativeSave g.id, execForcedSave g.id])
    ++ [execPlacement] ++ s.kernels.map (fun k => execReservation k.id)
    ++ s.swaps.map execCaveExchange
    ++ (s.contexts.filter (·.parking)).map (fun c => execParkCopyDone c.id)
    ++ (s.contexts.filter (fun c => c.state = .stopping)).map (fun c => execTeardownComplete c.id)

/-- Immediate accesses whose delay is over (R440), and atomics and batches on their way (R224, R230–R235). -/
def atomicTries (s : State) : List Try :=
  (s.late.filter (fun e => e.delay = 0)).map (fun e => execLongLatencyRetire e.t)
    ++ s.reqs.map (fun q => if q.path.isEmpty then execAtomicPerform q.id else execCombineTimeout q.id)
    ++ s.replies.map (fun r => execReplySplit r.id)
    ++ s.terms.map (fun t => if t.path.isEmpty then execBatchTermArrival t.id else execCombineTimeout t.id)
    ++ s.batches.map (fun b => execBatchTimeout b.id)
    ++ s.batchReplies.map (fun b => execBatchReply b.id)

/-- The arrived accesses that may begin to wait: of the host's only the first, so that none goes ahead of an earlier one (R408, R447). -/
def askable (l : List Instr) : List Instr := l.filter (fun i => !isHost i) ++ (l.find? isHost).toList

/-- Pages in motion, a checkpoint, and the device's own writes that wait (R292, R364, R398, R404). -/
def pageTries (s : State) : List Try :=
  s.pages.flatMap (fun p =>
    if p.state = .expanding then [execExpansionDone p.root p.page]
    else if p.state = .migrating then (if p.back = .brined && !p.inImage then [execBrineDone p.root p.page] else [execMigrateDone p.root p.page])
    else [])
    ++ (if s.ckpt.isSome then [execCkptPageRead, execCkptComplete] else [])
    ++ s.devWrites.map (fun w => fun s => .next (retryDev w.id s))
    ++ ((askable s.agenda).filterMap (arrivalWait s)).map (fun f => fun s => .next (f s))

/-- The link, the message window, firmware heartbeats and soft errors (R415, R420, R457, R461). -/
def deviceTries (s : State) : List Try :=
  s.remote.map (fun r => execRemoteRetransmit r.id)
    ++ (List.range s.filter.length).map execReplayFilterExpiry
    ++ s.window.flatMap (fun w => match amDest s w.msg with
      | .to (some c) _ _ => [execAmBatchTimeout c w.msg.phidx, execHandlerSquadStart c w.msg.phidx]
      | .drop => [execAmBatchTimeout 0 w.msg.phidx]
      | .waits => [fun s => .next (beginWait s (.ctx w.msg.pctx) (amReceive s w.msg))]
      | _ => [])
    ++ (s.hearts.filter (fun h => !s.blocksDown.contains h.block && decide (s.clk ≥ h.last + 1000000))).map (fun h => execHeartbeat h.block)
    ++ (match (if s.bootStep < 7 then [] else s.upsets).find? (fun u => match u with
        | .residue _ => false
        | .stackFails _ => false
        | _ => true) with
        | some u => [fun s => .next (applyUpset { s with upsets := s.upsets.erase u } u)]
        | none => [])

/-- Everything that may happen by itself, but for the vats' curdling. -/
def tries (s : State) : List Try :=
  issueTries s ++ s.cores.flatMap (coreTries s) ++ s.cells.flatMap cellTries ++ gangTries s ++ atomicTries s ++ queueTries s ++ pageTries s
    ++ deviceTries s

/-- One event after another. -/
def inTurn (s : State) (l : List Try) : Host.Outcome State Fault Refusal :=
  l.foldl (fun o f => match o with
    | .next s => f s
    | .fault x => .fault x
    | .refused x => .refused x) (.next s)

/-- What the device does by itself, by turns: every core's vat curdles, or each event that may happen does so once. Every READY thread is thus
tried within bounded time, and every wait ends with its condition (R337) (DESIGN CHOICE, log entry 5). -/
def idleStep (s : State) : Host.Outcome State Fault Refusal :=
  let s' := { s with turn := s.turn + 1, late := if s.turn % 2 = 0 then s.late else s.late.map (fun e => { e with delay := e.delay - 1 }) }
  if s.turn % 2 = 0 then .next ((s.cores.map (·.id)).foldl curdleCore s') else inTurn s' (tries s)

end Sys2Proof.Machine
end

