-- ==== Sys2Proof/Machine/Issue.lean ====
section
/-! DEFINITION. Issuing what stands next: fetch, decode and exec of a bundle, a transfer word or a prologue's instruction. -/
namespace Sys2Proof.Machine
open Sys2Proof

/-- What follows the execution of a bundle at its vat (R336). -/
def issued (s : State) (ts : List Tid) (o : Host.Outcome State Fault Refusal) : Host.Outcome State Fault Refusal :=
  match o with
  | .next s' => .next (afterBundle s s' ts)
  | .fault x => .fault x
  | .refused x => .refused x

/-- What follows the execution of a transfer word at its context (R414). -/
def settled (x : Xid) (o : Host.Outcome State Fault Refusal) : Host.Outcome State Fault Refusal :=
  match o with
  | .next s' => .next (xpSettle s' x)
  | .fault x => .fault x
  | .refused x => .refused x

/-- Issues a bundle (R333): fetch, decode and exec, or the cause that fetch or decode raises in each of its threads (R56, R57). -/
def stepBundle (s : State) (ts : List Tid) : Host.Outcome State Fault Refusal :=
  match formBundle s ts with
  | [] => .next s
  | t0 :: rest =>
    match fetchAt s t0.cell (pcOf s t0) with
    | .waits r => .next (fetchWaits s t0.cell (t0 :: rest) r)
    | .bad c sub => .next (afterBundle s (raiseAll (dropAsks s (.cell t0.cell)) (t0 :: rest) c sub) (t0 :: rest))
    | .words ws =>
      match decode ws with
      | .ok (i, _) => issued s (t0 :: rest) (exec i { fetchedBy s t0.cell (pcOf s t0) ws with cur := .bundle (t0 :: rest) })
      | .error _ => .next (afterBundle s (raiseAll (fetchedBy s t0.cell (pcOf s t0) ws) (t0 :: rest) .illegalInstr 0) (t0 :: rest))

/-- Issues the next transfer word of a context (R246, R249). -/
noncomputable def stepXp (s : State) (x : Xid) : Host.Outcome State Fault Refusal :=
  if xpCanIssue s x then
    match fetchXp s x with
    | .waits r => .next (xpFetchWait s x r)
    | .bad c _ => .next (xpFetchStop s x c)
    | .words ws =>
      match decodeXp (xpWord ws) with
      | .ok i => settled x (exec i { fetchedXp s x with cur := .xp x })
      | .error _ => .next (xpStop (fetchedXp s x) x xpIllegal 0)
  else .next s

/-- Issues the next instruction of a launch processor's prologue (R304, R307). -/
def stepPrologue (s : State) (lp : Nat) : Host.Outcome State Fault Refusal :=
  match (s.lps[lp]?).bind LaunchProc.prologue with
  | none => .next s
  | some p =>
    if p.ended.isSome then .next s
    else if overBudget s p then .next (endBudget s lp p)
    else
      let s := s.modPro lp (fun p => { p with startAt := some (p.startAt.getD s.clk) })
      match fetchCode s (.queue p.qid) 0 p.ctx p.code p.pc with
      | .waits r => .next (beginWait s (.queue p.qid) r)
      | .bad c _ => .next (failPrologue s lp c (p.pc.setWidth 64))
      | .words ws =>
        let s := markFetch s p.ctx p.code p.pc.toNat (4 * ws.length)
        match decode ws with
        | .ok (i, _) => exec i { dropAsks s (.queue p.qid) with cur := .prologue lp }
        | .error _ => .next (failPrologue s lp .illegalInstr (p.pc.setWidth 64))

/-- Issues what stands first. -/
noncomputable def stepIssue (s : State) (i : Issuer) : Host.Outcome State Fault Refusal :=
  match i with
  | .bundle ts => stepBundle s ts
  | .xp x => stepXp s x
  | .prologue lp => stepPrologue s lp

/-- A step's next state is at least one clock on (R5, R122). -/
def clocked (s : State) (o : Host.Outcome State Fault Refusal) : Host.Outcome State Fault Refusal :=
  match o with
  | .next t => .next { t with clk := s.clk + stepClocks s }
  | .fault r => .fault r
  | .refused r => .refused r

end Sys2Proof.Machine
end

