-- ==== Sys2Proof/Machine/Stage.lean ====
section
/-! DEFINITION. A program placed from outside: one running cell of one context whose code buffer begins with given bytes, so that the
very next step issues the instruction they hold (notes/assumptions: how a program comes to run). -/
namespace Sys2Proof.Machine
open Sys2Proof

/-- The buffer of the staged program: one page, every right, in stack 0. -/
def stageEntry : BtEntry := ⟨true, true, true, true, true, 3, false, 0, false, 0, 0, 2 ^ 17, 2 ^ 17, false, 0, 0, 0⟩

/-- The context of the staged program, RUNNING, with that buffer at index 1. -/
def stageContext : Context :=
  ⟨0, .running, 0, 2, false, false, false, 8, 0, 1000000, 20000, 0, 0, 16, 0, 0, 0xFFFFFF, 0, [(1, stageEntry)], 1, false, false⟩

/-- A kernel of one cell with one squad of 192 lane registers, tiles, a bank and three transfer contexts. -/
def stageKernel (s : State) (xp : Bool) : Kernel :=
  { id := s.nextKernel, ctx := 0, descRef := 0,
    desc := { codeRef := mkRef 1 0, entry := 0, gx := 1, gy := 1, gz := 1, shape := ⟨1, 192, 64, 65536, 4, true, 3⟩, gcells := 1, scope := 0,
              fused := false, det := false, tmode := 0, steal := false, xpauto := xp, deadline := 0, xpstart := 0, argRef := 0, bmapRef := 0,
              prodDesc := 0, mx := 0, sx := 0, ox0 := 0, ox1 := 0, my := 0, sy := 0, oy0 := 0, oy1 := 0 },
    args := List.replicate 16 0, state := .pending, code := 0, prio := 0, lp := 0, qid := 0, entry := 0, strict := false, deadline := 20000,
    pset := 0xFFFFFF, maxCells := 0, producer := none, unplaced := [0], exited := [], doomed := false, headGang := none, headSince := s.clk,
    reserved := [], xpOnly := false, steal := [], seen := [] }

/-- Puts the program in place: context 0, its page at frame 0 with the bytes, core 0, the kernel's one gang started on it, and the issue
of its first thread, or of XP1. Nothing that has arrived comes before it (DESIGN CHOICE, log entry 3). -/
def stage (s : State) (bytes : List Byte) (xp : Bool) : State :=
  let k := stageKernel s xp
  let cell := s.nextCell
  let core : Core := Core.start 0 s.clk 0
  let s := { s with
    agenda := [], nextKernel := s.nextKernel + 1, kernels := s.kernels ++ [k],
    contexts := stageContext :: s.contexts.filter (fun c => c.id ≠ 0),
    pages := ⟨2 ^ 17, 0, .resident, false, false, 0, 3, 0, none, .resident, false⟩ :: s.pages.filter (fun p => !(p.root == 2 ^ 17 && p.page == 0)),
    mem := memWriteL s.mem 0 bytes,
    cores := if (s.core? 0).isSome then s.cores else core :: s.cores,
    issue := (if xp then Issuer.xp ⟨cell, 1⟩ else Issuer.bundle [⟨cell, 0, 0⟩]) :: s.issue }
  startGang s k 0 0 [0]

/-- The bytes of an instruction whose bits are numbered as the opcode table numbers them, with zeros up to the longest. -/
def tableBytes (nbits w : Nat) : List Byte := if nbits = 64 then leBytes 8 w else leBytes 20 (w % 2 ^ nbits)

end Sys2Proof.Machine
end

