-- ==== Sys2Proof/Machine/Step.lean ====
section
/-! DEFINITION. One step of the package: an event or command that has arrived, else the next issue, else what the device does by
itself. -/
namespace Sys2Proof.Machine
open Sys2Proof

/-- One step (DESIGN CHOICE, log entry 4). -/
noncomputable def step (s : State) : Host.Outcome State Fault Refusal :=
  clocked s (match nextEvent s s.agenda with
    | some (i, rest) => exec i { s with agenda := rest }
    | none =>
      match s.issue with
      | i :: rest => stepIssue { s with issue := rest } i
      | [] => idleStep s)

/-- The state with an instruction stored where the next step fetches: rows of 64 bits are transfer words (R249). -/
def State.withFetchWord (s : State) (nbits w : Nat) : State := stage s (tableBytes nbits w) (nbits = 64)

end Sys2Proof.Machine
end

