-- ==== Sys2Proof/Safety.lean ====
section
/-! DEFINITION. The terms in which claims are made: the canonical form of memory, a thread alone at an instruction, what an instruction
leaves of the package beside what it writes. -/
namespace Sys2Proof.Machine
open Sys2Proof

/-! ## Canonical memories -/

/-- A cell's byte memories are in canonical form: its scratch and the bytes and scale strips of its panels. -/
def Cell.canonical (c : Cell) : Bool := Memory.wf c.scratch && c.bank.all (fun x => Memory.wf x.2.data && Memory.wf x.2.strip)

/-- Every byte memory of the package is in canonical form: device memory, host memory, the brine images, and the scratch and panels of
every cell, saved and parked ones too. -/
def State.canonical (s : State) : Bool :=
  Memory.wf s.mem && Memory.wf s.hostMem && s.brine.all (fun b => Memory.wf b.bytes) && s.cells.all Cell.canonical

/-! ## A thread at an instruction -/

/-- The state after an issue has been numbered (R333): the model's counters alone advance. -/
def issuedOnce (s : State) : State := { s with issued := s.issued + 1, free := s.free + 1 }

/-- The state an instruction's effect sees in thread t: numbered, the offset of the following instruction noted. -/
def atIssue (s : State) (t : Tid) (f : Form) : State :=
  (issuedOnce s).modThread t (Thread.noteNext (pcOf s t + word f.len))

/-- What thread t reads from when it is alone in its bundle. -/
def soloRd (s : State) (t : Tid) (c : Cell) (q : Squad) (th : Thread) (f : Form) : Rd :=
  ⟨issuedOnce s, t, th, q, c, f.lit, [t], [t], []⟩

/-- Thread t stands alone in the bundle in execution at an instruction of form f that it can issue: nothing of its squad is
outstanding, no register of the squad is queue-mapped, no error stands in its register files and no cause of its cell is unsettled, the
form is a legal one and passes its decode checks, the guard holds, and a strict kernel does not group the instruction. -/
structure Solo (s : State) (t : Tid) (c : Cell) (q : Squad) (th : Thread) (f : Form) : Prop where
  cur : s.cur = .bundle [t]
  upsets : s.upsets = []
  cell : s.cell? t.cell = some c
  squad : c.squads[t.squad]? = some q
  thread : q.threads[t.lane]? = some th
  lane : t.lane < 32
  can : canIssue s t = true
  board : ∀ x ∈ q.threads, x.board = []
  bind : ∀ n, q.bound n = 0
  collected : q.collected = []
  nested : ∀ x ∈ c.squads, ∀ r ∈ x.collected, r.cause ≠ .machineCheck
  residues : ∀ x ∈ q.threads, x.vres = [] ∧ x.wres = [] ∧ x.ppar = false
  kres : q.kres = []
  form : formOk f = true
  decode : decodeCause f none c q th = none
  guard : guardHolds f.guard th = true
  free : (c.strict && f.collective c.strict) = false

/-- The registers of a thread after an instruction's writes, each with the residue of what was written (R94). -/
def Thread.written (th : Thread) (w : Writes) : Thread :=
  { th with v := w.v.foldl (fun l x => l.set x.1 x.2) th.v, p := w.p.foldl (fun p x => setPred p x.1 x.2) th.p,
            w := w.w.foldl (fun l x => l.set x.1 x.2) th.w, vres := fixResidues th.vres (w.v.map (·.1)),
            wres := fixResidues th.wres ((w.w.flatMap (fun x => (List.range 8).map (8 * x.1 + ·))).filter (fun i => !w.kept.contains i)) }

/-- Where a thread stands after an instruction by how it goes on: its offset, state and wait. A thread that exits is said apart. -/
def Go.ends (next here : Word) : Go → Word × ThreadState × Option Wait
  | .next => (next, .ready, none)
  | .jump pc => (pc, .ready, none)
  | .wait w => (here, .waiting, some w)
  | .hold w => (here, .stalled, some w)
  | .yielded => (next, .yielded, none)
  | .exit => (here, .exited, none)

/-- From e to s' the package differs in thread t alone: its registers by the writes w, its place in the program and on the scoreboard as
given; and in its squad's csr.fflags by the flags raised, and uniform tags. Every byte of every memory, every other thread, squad, cell,
register and unit is as in e. -/
structure Wrote (e s' : State) (t : Tid) (w : Writes) (pc : Word) (board : List Outstanding) (st : ThreadState := .ready)
    (wt : Option Wait := none) : Prop where
  package : { s' with cells := e.cells } = e
  cells : ∀ id, id ≠ t.cell → s'.cell? id = e.cell? id
  own : ∃ c c' q q' th th', e.cell? t.cell = some c ∧ s'.cell? t.cell = some c' ∧ { c' with squads := c.squads } = c
    ∧ c.squads[t.squad]? = some q ∧ c'.squads[t.squad]? = some q' ∧ (∀ i, i ≠ t.squad → c'.squads[i]? = c.squads[i]?)
    ∧ { q' with threads := q.threads, fflags := q.fflags, tags := q.tags } = q ∧ q'.fflags = q.fflags ||| w.flags
    ∧ q.threads[t.lane]? = some th ∧ q'.threads[t.lane]? = some th' ∧ (∀ l, l ≠ t.lane → q'.threads[l]? = q.threads[l]?)
    ∧ th' = { th.written w with taint := th'.taint, npc := th'.npc, readyAt := th'.readyAt, waitAt := th'.waitAt, waitLanes := th'.waitLanes,
                                wants := th'.wants, pc := pc, state := st, wait := wt, board := board }

/-- Instruction i, of form f and alone in a thread, writes w there, with its other effects e on the package: it completes, and nothing
else changes but that what the thread has asked of peers is dropped. The flags it raises are not enabled to trap (R41). -/
def Does (i : Instr) (s : State) (t : Tid) (q : Squad) (th : Thread) (e : State) (w : Writes) (aw : Awaits) (go : Go := .next) : Prop :=
  w.flags &&& q.fptrap = 0 → ∃ s', exec i s = .next s' ∧
    let p := go.ends (th.pc + word (formOf i).len) th.pc
    Wrote (dropAsks e (.thread t)) s' t w p.1 (boardEntry ((formOf i).extended && longLatency (formOf i).opx) (formOf i).writes (formOf i).la aw) p.2.1 p.2.2

/-- What holds of instruction i alone in thread t of cell c and squad q, from what the thread reads and the state its effect sees, in every
lane form: P is given the claim that it completes with an effect on the package, writes and what it then awaits. -/
def InLane (i : Instr) (P : Tid → Cell → Squad → Thread → Rd → State → (State → Writes → Awaits → Go → Prop) → Prop) : Prop :=
  ∀ s t c q th, (formOf i).uniform = false → Solo s t c q th (formOf i) →
    P t c q th (soloRd s t c q th (formOf i)) (atIssue s t (formOf i)) (fun e w aw go => Does i s t q th e w aw go)

/-- A lane instruction that only computes registers: from what the thread reads to what it writes, in every lane form, on the operands
for which ok holds. -/
def ComputesWhen (i : Instr) (ok : Rd → Prop) (w : Rd → Writes) : Prop :=
  ∀ s t c q th, (formOf i).uniform = false → Solo s t c q th (formOf i) → ok (soloRd s t c q th (formOf i)) →
    Does i s t q th (atIssue s t (formOf i)) (w (soloRd s t c q th (formOf i))) .unit

/-- From e to s' thread t has executed a uniform step alone (R113, R335): the squad's k registers by ks, its count and ring by the step's
entry with the values replaced, csr.fflags by the flags raised, and the thread's place. Everything else is as in e. -/
structure Stepped (e s' : State) (t : Tid) (ks : List (Nat × Dword)) (flags : Flags) (oldCsr : Option (Nat × Dword)) (pc : Word)
    (board : List Outstanding) : Prop where
  package : { s' with cells := e.cells } = e
  cells : ∀ id, id ≠ t.cell → s'.cell? id = e.cell? id
  own : ∃ c c' q q' th th', e.cell? t.cell = some c ∧ s'.cell? t.cell = some c' ∧ { c' with squads := c.squads } = c
    ∧ c.squads[t.squad]? = some q ∧ c'.squads[t.squad]? = some q' ∧ (∀ i, i ≠ t.squad → c'.squads[i]? = c.squads[i]?)
    ∧ { q' with threads := q.threads, fflags := q.fflags, k := q.k, kres := q.kres, ustep := q.ustep, ring := q.ring } = q
    ∧ q'.kres = fixResidues q.kres (ks.flatMap (fun x => [2 * x.1, 2 * x.1 + 1])) ∧ q'.fflags = q.fflags ||| flags ∧ q'.k = ks.foldl (fun l x => l.set x.1 x.2) q.k ∧ q'.ustep = q.ustep + 1
    ∧ q'.ring = (q.ring ++ [UStep.mk (q.ustep + 1) th.pc (ks.map (fun x => (x.1, q.k.getD x.1 0))) oldCsr]).drop (q.ring.length + 1 - 8)
    ∧ q.threads[t.lane]? = some th ∧ q'.threads[t.lane]? = some th' ∧ (∀ l, l ≠ t.lane → q'.threads[l]? = q.threads[l]?)
    ∧ th' = { th with ustep := q.ustep + 1, npc := th'.npc, readyAt := th'.readyAt, wants := th'.wants, pc := pc, state := .ready, wait := none, board := board }

/-- A squad whose thread th may execute the squad's next uniform step (R335): it has passed every earlier one, and no thread is eight
behind. -/
def Leads (q : Squad) (th : Thread) : Prop := th.ustep = q.ustep ∧ q.ustep - uMin q < 8

/-- The same of a uniform step that thread t leads: P is given the claim that it completes with an effect on the package, uniform registers
written, and the register by number that it replaced (R114). -/
def InStep (i : Instr) (P : Tid → Cell → Squad → Thread → Rd → State → (State → List (Nat × Dword) → Option (Nat × Dword) → Prop) → Prop) : Prop :=
  ∀ s t c q th, (formOf i).uniform = true → Solo s t c q th (formOf i) → Leads q th →
    P t c q th (soloRd s t c q th (formOf i)) (atIssue s t (formOf i)) (fun e ks old => ∃ s', exec i s = .next s' ∧
      Stepped (dropAsks e (.thread t)) s' t ks 0 old (th.pc + word (formOf i).len)
        (boardEntry ((formOf i).extended && longLatency (formOf i).opx) (formOf i).writes (formOf i).la .unit))

/-- A uniform step that only computes registers: from what its leader reads to what it writes, in every uniform form, on the operands for
which ok holds. -/
def ComputesUniformWhen (i : Instr) (ok : Rd → Prop) (w : Rd → Writes) : Prop :=
  ∀ s t c q th, (formOf i).uniform = true → Solo s t c q th (formOf i) → Leads q th → ok (soloRd s t c q th (formOf i)) →
    (w (soloRd s t c q th (formOf i))).flags &&& q.fptrap = 0 → ∃ s', exec i s = .next s' ∧
      Stepped (dropAsks (atIssue s t (formOf i)) (.thread t)) s' t (w (soloRd s t c q th (formOf i))).k (w (soloRd s t c q th (formOf i))).flags none
        (th.pc + word (formOf i).len) (boardEntry ((formOf i).extended && longLatency (formOf i).opx) (formOf i).writes (formOf i).la .unit)

/-- Instruction i computes w, per thread or, where its destination is a uniform register, as a uniform step; on operands for which ok holds,
and on all. -/
def GivesWhen (i : Instr) (ok : Rd → Prop) (w : Rd → Writes) : Prop := ComputesWhen i ok w ∧ ComputesUniformWhen i ok w
def Gives (i : Instr) (w : Rd → Writes) : Prop := GivesWhen i (fun _ => True) w

/-- From e to s' thread t has stopped at its instruction on cause k (R349): it has written nothing, and its squad has collected the cause, with
the values of R357, and stops; its return point is its instruction, or `after` bytes on (R350). Everything else is as in e, but that what
the thread has asked of peers may be dropped. -/
structure Stopped (e s' : State) (t : Tid) (k : Cause) (addr : Option Dword) (info : Nat) (after : Nat := 0) : Prop where
  package : { s' with cells := e.cells, asks := e.asks } = e
  asks : s'.asks = e.asks ∨ s'.asks = (dropAsks e (.thread t)).asks
  cells : ∀ id, id ≠ t.cell → s'.cell? id = e.cell? id
  own : ∃ c c' q q' th th', e.cell? t.cell = some c ∧ s'.cell? t.cell = some c' ∧ { c' with squads := c.squads } = c
    ∧ c.squads[t.squad]? = some q ∧ c'.squads[t.squad]? = some q' ∧ (∀ i, i ≠ t.squad → c'.squads[i]? = c.squads[i]?)
    ∧ { q' with threads := q.threads, trap := q.trap, collected := q.collected, tags := q.tags } = q ∧ q'.trap = .stopping
    ∧ (∃ r, q'.collected = [r] ∧ r.cause = k ∧ r.lanes = 1#32 <<< t.lane ∧ r.pc = th.pc ∧ (∀ a, addr = some a → r.addr = a) ∧ r.info = word info)
    ∧ q.threads[t.lane]? = some th ∧ q'.threads[t.lane]? = some th' ∧ (∀ l, l ≠ t.lane → q'.threads[l]? = q.threads[l]?)
    ∧ th' = { th with state := .stopped, wait := none, mark := .cause, ret := th.pc + word after, npc := th'.npc }

/-- Instruction i raises k on the operands for which ok holds, alone in a thread outside a handler. -/
def RaisesWhen (i : Instr) (ok : Rd → Prop) (k : Cause) (addr : Rd → Option Dword) (info : Nat) (after : Nat := 0) : Prop :=
  ∀ s t c q th, Solo s t c q th (formOf i) → ((formOf i).uniform = true → Leads q th) → q.trap = .idle → ok (soloRd s t c q th (formOf i)) →
    ∃ s', exec i s = .next s' ∧ Stopped (issuedOnce s) s' t k (addr (soloRd s t c q th (formOf i))) info after

end Sys2Proof.Machine
end

