-- ==== Sys2Proof/Certificates/Slice0/Obligations.lean ====
section
/-! DEFINITION. The statements for the provers: what the rules of the spec say of encodings, of steps, of every instruction and event. -/
namespace Sys2Proof.Claims
open Sys2Proof Sys2Proof.Machine

/-! ## The vocabulary of results -/

/-- fin(t) of R103 at the width of an instruction, written to its destination: saturated between lo and hi under SAT, else wrapped. -/
def fin (e : Ext) (t : Int) : Writes :=
  let w : Nat := if e.fn.getLsbD 0 then 64 else 32
  let lo : Int := if e.fn.getLsbD 1 then -2 ^ (w - 1) else 0
  let hi : Int := if e.fn.getLsbD 1 then 2 ^ (w - 1) - 1 else 2 ^ w - 1
  let v : Int := if e.fn.getLsbD 2 then min (max t lo) hi else t
  { writeInt e.d (e.fn.getLsbD 0) (e.fn.getLsbD 1) (v % 2 ^ w).toNat with flags := if v = t then 0 else fSAT }

/-- An operand as a number: two's complement of W bits where S is set, else unsigned (R103). -/
def num (e : Ext) (r : Rd) (f : Src) : Int :=
  let w : Nat := if e.fn.getLsbD 0 then 64 else 32
  let x : Nat := if e.fn.getLsbD 0 then (r.x64 f).toNat else (r.x32 f).toNat
  if e.fn.getLsbD 1 ∧ 2 ^ (w - 1) ≤ x then (x : Int) - 2 ^ w else x

/-- An exact operation on two operands (R103). -/
def exact2 (op : Int → Int → Int) (e : Ext) (r : Rd) : Writes := fin e (op (num e r e.a) (num e r e.b))

/-- A result of W bits, from the operands' W bits. -/
def bits2 (op : Nat → Nat → Nat → Nat) (e : Ext) (r : Rd) : Writes :=
  let w : Nat := if e.fn.getLsbD 0 then 64 else 32
  writeInt e.d (e.fn.getLsbD 0) (e.fn.getLsbD 1) (op w (r.x (e.fn.getLsbD 0) e.a) (r.x (e.fn.getLsbD 0) e.b))
def bits1 (op : Nat → Nat → Nat) (e : Ext) (r : Rd) : Writes := bits2 (fun w x _ => op w x) e r

/-- SHR: floor(x / 2^n) of the value by S, n the count's bits 7:0. -/
def shr (e : Ext) (r : Rd) : Writes :=
  bits2 (fun w _ y => ((num e r e.a / 2 ^ (y % 256)) % 2 ^ w).toNat) e r
/-- W bits rotated left by n, n below W. -/
def rotl (w x n : Nat) : Nat := x * 2 ^ n % 2 ^ w + x / 2 ^ (w - n)
/-- Bits 0 to w − 1 of x in that order, and the number of a list of bits. -/
def bitsOf (w x : Nat) : List Bool := (List.range w).map (fun i => x.testBit i)
def natOf (l : List Bool) : Nat := l.foldr (fun b n => 2 * n + b.toNat) 0

end Sys2Proof.Claims

open Sys2Proof Sys2Proof.Machine Sys2Proof.Claims

/-! ## Encodings -/

/-- Decoding the words of any well-formed instruction of the squads gives it back with every operand, and leaves what follows (R55–R67,
R140, R212). -/
def Obligations.RoundTrip : Prop :=
  ∀ (i : Instr) (rest : List Word), i.wellFormed = true → i.fetched = true → (∀ op f, formOf i ≠ .xp op f) →
    decode (encode i ++ rest) = .ok (i, rest)

/-- Decoding the transfer word of any well-formed transfer instruction gives it back (R249). -/
def Obligations.RoundTripTransfer : Prop :=
  ∀ (i : Instr) (op : Nat) (f : Xp), i.wellFormed = true → formOf i = .xp op f → decodeXp (xpWord (encode i)) = .ok i

/-- Words written out from the encoding tables decode to the instructions they stand for: R59, R60, R61, R107, R124. -/
def Obligations.DecodedWords : Prop :=
  decode [0x00000000] = .ok (.nop, [])
  ∧ decode [0x000000FC] = .ok (.exitBase, [])
  ∧ decode [0x03020108] = .ok (.iaddBase ⟨1, 2, 3⟩, [])
  ∧ decode [0x4020006E, 0x00050004, 0x00110000]
      = .ok (.isetp ⟨4, 2, 0, ⟨false, 0⟩, ⟨4, 0, 0⟩, ⟨5, 0, 0⟩, ⟨0, 0, 0⟩, 0x11, none⟩, [])
  ∧ decode [0x00A003B2, 0, 0] = .ok (.clk ⟨0, 10, 0, ⟨false, 0⟩, ⟨0, 0, 0⟩, ⟨0, 0, 0⟩, ⟨0, 0, 0⟩, 0, none⟩, [])
  ∧ decode [0x0DE003B6, 0, 0] = .ok (.ptpnow ⟨0, 0xDE, 0, ⟨false, 0⟩, ⟨0, 0, 0⟩, ⟨0, 0, 0⟩, ⟨0, 0, 0⟩, 0, none⟩, [])
  ∧ decode [0x000003AE, 0x000000C2, 0x00020000]
      = .ok (.csrw ⟨0, 0, 0, ⟨false, 0⟩, ⟨0xC2, 0, 0⟩, ⟨0, 0, 0⟩, ⟨0, 0, 0⟩, 2, none⟩, [])
  ∧ decode [0x000000FE, 0, 0] = .error .illegal
  ∧ decode [0x00000002, 0] = .error .truncated

/-! ## Steps -/

/-- With nothing arrived that can happen now, a step issues what stands first: for a bundle, a context or a prologue that can issue there and whose
words decode to i, it is exec of i in them, and the clock goes on; after a bundle the threads that issued leave the vat, and after a transfer
word its answers from peers are used up (R55, R246, R304, R333). -/
def Obligations.StepRunsDecoded : Prop :=
  (∀ (s : State) (ts : List Tid) (more : List Issuer) (t0 : Tid) (b : List Tid) (ws rest : List Word) (i : Instr),
    nextEvent s s.agenda = none → s.issue = .bundle ts :: more → formBundle { s with issue := more } ts = t0 :: b →
    let s1 : State := { s with issue := more }
    fetchAt s1 t0.cell (pcOf s t0) = .words ws → decode ws = .ok (i, rest) →
    step s = clocked s (issued s1 (t0 :: b) (exec i { fetchedBy s1 t0.cell (pcOf s t0) ws with cur := .bundle (t0 :: b) })))
  ∧ (∀ (s : State) (x : Xid) (more : List Issuer) (ws : List Word) (i : Instr),
    nextEvent s s.agenda = none → s.issue = .xp x :: more → xpCanIssue { s with issue := more } x = true →
    fetchXp { s with issue := more } x = .words ws → decodeXp (xpWord ws) = .ok i →
    step s = clocked s (settled x (exec i { fetchedXp { s with issue := more } x with cur := .xp x })))
  ∧ (∀ (s : State) (lp : Nat) (more : List Issuer) (p : Prologue) (ws rest : List Word) (i : Instr),
    nextEvent s s.agenda = none → s.issue = .prologue lp :: more → (s.lps[lp]?).bind LaunchProc.prologue = some p → p.ended = none →
    overBudget s p = false →
    let s1 : State := ({ s with issue := more } : State).modPro lp (fun p => { p with startAt := some (p.startAt.getD s.clk) })
    fetchCode s1 (.queue p.qid) 0 p.ctx p.code p.pc = .words ws → decode ws = .ok (i, rest) →
    step s = clocked s (exec i { dropAsks (markFetch s1 p.ctx p.code p.pc.toNat (4 * ws.length)) (.queue p.qid) with cur := .prologue lp }))
  ∧ (∀ (s : State) (i : Instr) (later : List Instr), nextEvent s s.agenda = some (i, later) →
    step s = clocked s (exec i { s with agenda := later }))

/-- Words that decode to no instruction raise ILLEGAL_INSTR in every thread of the bundle (R58, R62, R63), and stop a transfer context with
XP_ILLEGAL (R249). -/
def Obligations.IllegalWords : Prop :=
  (∀ (s : State) (ts : List Tid) (more : List Issuer) (t0 : Tid) (b : List Tid) (ws : List Word) (e : DecodeError),
    nextEvent s s.agenda = none → s.issue = .bundle ts :: more → formBundle { s with issue := more } ts = t0 :: b →
    fetchAt { s with issue := more } t0.cell (pcOf s t0) = .words ws → decode ws = .error e →
    let s1 : State := { s with issue := more }
    step s = clocked s (.next (afterBundle s1 (raiseAll (fetchedBy s1 t0.cell (pcOf s t0) ws) (t0 :: b) .illegalInstr 0) (t0 :: b))))
  ∧ (∀ (s : State) (x : Xid) (more : List Issuer) (ws : List Word) (e : DecodeError),
    nextEvent s s.agenda = none → s.issue = .xp x :: more → xpCanIssue { s with issue := more } x = true →
    fetchXp { s with issue := more } x = .words ws → decodeXp (xpWord ws) = .error e →
    step s = clocked s (.next (xpStop (fetchedXp { s with issue := more } x) x xpIllegal 0)))

/-- Nothing stops the package: every step answers a next state, whatever the state. -/
def Sys2Proof.Claims.EveryStepGoesOn : Prop := ∀ s : State, ∃ t, step s = .next t

/-- The clock of R122 rises at every step. -/
def Sys2Proof.Claims.ClockRises : Prop := ∀ s t : State, step s = .next t → s.clk < t.clk

/-- Every byte memory (device and host memory, the brine images, each cell's scratch and panels) stays in its canonical form: addresses
rising, no zero listed (log entries 1 and 2). -/
def Obligations.StepKeepsCanonical : Prop := ∀ s t : State, s.canonical = true → step s = .next t → t.canonical = true

/-- The memories of the package at power-good are in canonical form. -/
def Obligations.ResetCanonical : Prop := State.reset.canonical = true

/-! ## Integer instructions -/

/-- R103: the arithmetic of integers, wrapped or saturated with the SAT flag. -/
def Sys2Proof.Claims.IntegerArithmetic : Prop := ∀ f : Ext,
  Gives (.iadd f) (exact2 (· + ·) f) ∧ Gives (.isub f) (exact2 (· - ·) f)
  ∧ Gives (.imul f) (fun r => bits2 (fun w _ _ => ((num f r f.a * num f r f.b) % 2 ^ w).toNat) f r)
  ∧ Gives (.imulh f) (fun r => bits2 (fun w _ _ => ((num f r f.a * num f r f.b / 2 ^ w) % 2 ^ w).toNat) f r)
  ∧ Gives (.imad f) (fun r => bits2 (fun w _ _ => ((num f r f.a * num f r f.b + num f r f.c) % 2 ^ w).toNat) f r)
  ∧ Gives (.imin f) (fun r => bits2 (fun w _ _ => (min (num f r f.a) (num f r f.b) % 2 ^ w).toNat) f r)
  ∧ Gives (.imax f) (fun r => bits2 (fun w _ _ => (max (num f r f.a) (num f r f.b) % 2 ^ w).toNat) f r)
  ∧ Gives (.iabs f) (fun r => fin f |num f r f.a|) ∧ Gives (.ineg f) (fun r => fin f (-num f r f.a))

/-- R103: logic, shifts, rotations and counts on the W bits of the operands. -/
def Sys2Proof.Claims.IntegerLogic : Prop := ∀ f : Ext,
  Gives (.and f) (bits2 (fun _ x y => x &&& y) f) ∧ Gives (.or f) (bits2 (fun _ x y => x ||| y) f)
  ∧ Gives (.xor f) (bits2 (fun _ x y => x ^^^ y) f) ∧ Gives (.andn f) (bits2 (fun w x y => x &&& (2 ^ w - 1 - y)) f)
  ∧ Gives (.shl f) (bits2 (fun w x y => x * 2 ^ (y % 256) % 2 ^ w) f) ∧ Gives (.shr f) (shr f)
  ∧ Gives (.rol f) (bits2 (fun w x y => rotl w x (y % 256 % w)) f)
  ∧ Gives (.ror f) (bits2 (fun w x y => rotl w x ((w - y % 256 % w) % w)) f)
  ∧ Gives (.clz f) (bits1 (fun w x => if x = 0 then w else w - 1 - Nat.log2 x) f)
  ∧ Gives (.ctz f) (bits1 (fun w x => ((bitsOf w x).takeWhile not).length) f)
  ∧ Gives (.popc f) (bits1 (fun w x => (bitsOf w x).count true) f)
  ∧ Gives (.brev f) (bits1 (fun w x => natOf (bitsOf w x).reverse) f)
  ∧ Gives (.mov f) (bits1 (fun _ x => x) f)

namespace Sys2Proof.Claims

/-- BFX (R104): bits P to Q − 1 of x, P = spec bits 7:0 and Q = min(P + N, W), extended by S; an empty field gives 0. -/
def extracted (signed : Bool) (w x spec : Nat) : Nat :=
  let p := spec % 256
  let q := min (p + spec / 256 % 256) w
  let v := x / 2 ^ p % 2 ^ (q - p)
  if q ≤ p then 0
  else if signed ∧ 2 ^ (q - p - 1) ≤ v then v + 2 ^ w - 2 ^ (q - p) else v

/-- BFI (R104): c with that field replaced by the low bits of a. -/
def inserted (w a spec c : Nat) : Nat :=
  let p := spec % 256
  let q := min (p + spec / 256 % 256) w
  if q ≤ p then c else c % 2 ^ p + a % 2 ^ (q - p) * 2 ^ p + c / 2 ^ q * 2 ^ q

/-- The operands' low bits placed every k-th bit in turn (R105), and the bits of one place gathered. -/
def woven (k n : Nat) (xs : List Nat) : Nat := natOf ((List.range (k * n)).map (fun i => (xs.getD (i % k) 0).testBit (i / k)))
def unwoven (k n x field : Nat) : Nat := natOf ((List.range n).map (fun i => x.testBit (k * i + field)))

/-- The participants of VOTE with their predicates, by lane (R109). -/
def votes (r : Rd) (a : Code) : List (Nat × Bool) := r.act.filterMap (fun t => (r.s.thread? t).map (fun th => (t.lane, th.pred a.toNat)))

end Sys2Proof.Claims

/-- R104, R105: bit fields and Morton codes. -/
def Sys2Proof.Claims.BitFields : Prop := ∀ f : Ext,
  Gives (.bfx f) (bits2 (extracted (f.fn.getLsbD 1)) f)
  ∧ Gives (.bfi f) (fun r => bits2 (fun w x y => inserted w x y (r.x (f.fn.getLsbD 0) f.c)) f r)
  ∧ Gives (.bitil f) (fun r => writeInt f.d false false
      (if f.fn.getLsbD 2 then woven 2 16 [(r.x32 f.a).toNat, (r.x32 f.b).toNat]
       else woven 3 10 [(r.x32 f.a).toNat, (r.x32 f.b).toNat, (r.x32 f.c).toNat]))
  ∧ Gives (.bitdil f) (fun r => writeInt f.d false false
      (if f.fn.getLsbD 2 then unwoven 2 16 (r.x32 f.a).toNat (f.imm.toNat % 4) else unwoven 3 10 (r.x32 f.a).toNat (f.imm.toNat % 4)))

namespace Sys2Proof.Claims

/-- The comparison of ISETP by FN bits 3:1, on W-bit operands (R107). -/
def compared (w c x y : Nat) : Bool :=
  let s (n : Nat) : Int := if 2 ^ (w - 1) ≤ n then (n : Int) - 2 ^ w else n
  match c with
  | 0 => decide (x = y)
  | 1 => decide (x ≠ y)
  | 2 => decide (s x < s y)
  | 3 => decide (s x ≤ s y)
  | 4 => decide (x < y)
  | _ => decide (x ≤ y)

/-- The combine of IMM16 (R107): bits 3:0 name q, bits 5:4 the operation, bit 6 reads not q. -/
def combined (r : Rd) (imm : BitVec 16) (t : Bool) : Bool :=
  let q := xor (r.th.pred (imm.toNat % 16)) (imm.getLsbD 6)
  match imm.toNat / 16 % 4 with
  | 0 => t
  | 1 => t && q
  | 2 => t || q
  | _ => xor t q

end Sys2Proof.Claims

/-- R106–R109: selection, comparison, predicate logic and votes. -/
def Sys2Proof.Claims.SelectCompareVote : Prop := ∀ f : Ext,
  Gives (.sel f) (fun r => writeInt f.d (f.fn.getLsbD 0) false (r.x (f.fn.getLsbD 0) (if r.th.pred f.c.code.toNat then f.a else f.b)))
  ∧ Gives (.isetp f) (fun r => writeP f.d (combined r f.imm
      (compared (if f.fn.getLsbD 0 then 64 else 32) (f.fn.toNat / 2) (r.x (f.fn.getLsbD 0) f.a) (r.x (f.fn.getLsbD 0) f.b))))
  ∧ Gives (.plop f) (fun r => writeP f.d (f.imm.getLsbD
      (4 * (r.th.pred f.a.code.toNat).toNat + 2 * (r.th.pred f.b.code.toNat).toNat + (r.th.pred f.c.code.toNat).toNat)))
  ∧ Gives (.vote f) (fun r =>
      let v := votes r f.a.code
      match f.fn.toNat with
      | 0 => writeP f.d (v.all (·.2))
      | 1 => writeP f.d (v.any (·.2))
      | 2 => writeP f.d (v.all (·.2) || v.all (fun x => !x.2))
      | 3 => writeV f.d (word ((v.filter (·.2)).map (fun x => 2 ^ x.1)).sum)
      | _ => writeP f.d ((v.find? (·.2)).map (·.1) == some r.t.lane))

namespace Sys2Proof.Claims

/-- The formats of R110 by code: integers as (signed, width), floats by format. -/
def format (c : Nat) : NFmt :=
  [NFmt.int true 8, .int false 8, .int true 16, .int false 16, .int true 32, .int false 32, .int true 64, .int false 64,
    .flt fp16, .flt bf16, .flt fp32, .flt e4m3, .flt e5m2].getD c (.flt e2m1)

/-- The two results of PACK's floating forms, side by side. -/
def twoHalves (f : Fmt) (a b : Word) : Nat × Flags :=
  let x := convV f .rne false (f32 a)
  let y := convV f .rne false (f32 b)
  (x.1 + 2 ^ 16 * y.1, x.2 ||| y.2)

/-- A field of a word, extended signed or with zeros to 32 bits. -/
def part (w i : Nat) (signed : Bool) (a : Nat) : Nat :=
  let v := a / 2 ^ (w * i) % 2 ^ w
  if signed ∧ 2 ^ (w - 1) ≤ v then v + 2 ^ 32 - 2 ^ w else v

end Sys2Proof.Claims

/-- R110, R111: conversion, packing and unpacking, with their flags. -/
def Sys2Proof.Claims.ConvertPack : Prop := ∀ f : Ext,
  Gives (.cvt f) (fun r =>
      let src := format (f.imm.toNat % 16)
      let dst := format (f.imm.toNat / 16 % 16)
      let x := cvtBits src dst (RMode.ofCode (f.imm.toNat / 256 % 4)) (f.imm.getLsbD 10) (r.x (decide (src.width = 64)) f.a)
      { writeInt f.d (decide (dst.width = 64)) (match dst with | .int s _ => s | .flt _ => false)
          (match dst with | .int true 8 => part 8 0 true x.1 | .int true 16 => part 16 0 true x.1 | _ => x.1) with flags := x.2 })
  ∧ Gives (.pack f) (fun r =>
      let a := (r.x32 f.a).toNat
      let b := (r.x32 f.b).toNat
      let byte (c : Nat) : Nat := if c < 4 then a / 256 ^ c % 256 else if c < 8 then b / 256 ^ (c - 4) % 256 else 0
      let x : Nat × Flags := match f.fn.toNat with
        | 0 => (((List.range 4).map (fun j => byte (f.imm.toNat / 16 ^ j % 16) * 256 ^ j)).sum, 0)
        | 1 => twoHalves fp16 (r.x32 f.a) (r.x32 f.b)
        | _ => twoHalves bf16 (r.x32 f.a) (r.x32 f.b)
      { writeInt f.d false false x.1 with flags := x.2 })
  ∧ Gives (.unpack f) (fun r =>
      let a := (r.x32 f.a).toNat
      let half := a / 2 ^ (16 * (f.imm.toNat % 2)) % 2 ^ 16
      match f.fn.toNat with
      | 0 => writeInt f.d false (f.imm.getLsbD 1) (part 16 (f.imm.toNat % 2) (f.imm.getLsbD 1) a)
      | 1 => writeInt f.d false (f.imm.getLsbD 2) (part 8 (f.imm.toNat % 4) (f.imm.getLsbD 2) a)
      | 2 => { writeInt f.d false false (convV fp32 .rne false (Machine.unpack fp16 half)).1 with
          flags := (convV fp32 .rne false (Machine.unpack fp16 half)).2 }
      | _ => { writeInt f.d false false (convV fp32 .rne false (Machine.unpack bf16 half)).1 with
          flags := (convV fp32 .rne false (Machine.unpack bf16 half)).2 })

namespace Sys2Proof.Claims
/-- The offset that REFADD moves to (R112): B is 64 bits signed with FN = 1, else 32. -/
def moved (f : Ext) (r : Rd) : Int := ((r.x64 f.a).toNat % 2 ^ 44 : Nat) + (if f.fn = 1 then (r.x64 f.b).toInt else (r.x32 f.b).toInt)
end Sys2Proof.Claims

/-- R112: references made, moved and split; REFMK and REFADD stop with REF_BOUNDS, writing nothing, where the new index or offset leaves its
field. -/
def Obligations.References : Prop := ∀ f : Ext,
  GivesWhen (.refmk f) (fun r => (r.x32 f.a).toNat < 2 ^ 20 ∧ (r.x64 f.b).toNat < 2 ^ 44)
      (fun r => writeInt f.d true false ((r.x32 f.a).toNat * 2 ^ 44 + (r.x64 f.b).toNat))
  ∧ RaisesWhen (.refmk f) (fun r => 2 ^ 20 ≤ (r.x32 f.a).toNat ∨ 2 ^ 44 ≤ (r.x64 f.b).toNat) .refBounds (fun _ => none) 0
  ∧ GivesWhen (.refadd f) (fun r => 0 ≤ moved f r ∧ moved f r < 2 ^ 44)
      (fun r => writeInt f.d true false ((r.x64 f.a).toNat / 2 ^ 44 * 2 ^ 44 + (moved f r).toNat))
  ∧ RaisesWhen (.refadd f) (fun r => moved f r < 0 ∨ 2 ^ 44 ≤ moved f r) .refBounds (fun _ => none) 0
  ∧ Gives (.refget f) (fun r =>
      if f.fn = 1 then writeInt f.d true false ((r.x64 f.a).toNat % 2 ^ 44) else writeInt f.d false false ((r.x64 f.a).toNat / 2 ^ 44))

namespace Sys2Proof.Claims

/-- The lesser and the greater operand, and the low W bits of their product (R103). -/
def lesser (e : Ext) (r : Rd) : Writes := bits2 (fun w _ _ => (min (num e r e.a) (num e r e.b) % 2 ^ w).toNat) e r
def greater (e : Ext) (r : Rd) : Writes := bits2 (fun w _ _ => (max (num e r e.a) (num e r e.b) % 2 ^ w).toNat) e r
def mulLow (e : Ext) (r : Rd) : Writes := bits2 (fun w _ _ => ((num e r e.a * num e r e.b) % 2 ^ w).toNat) e r

/-- An FP32 result clamped to +0 … 1 under FN bit 0 (R128), written with its flags. -/
def single (d : Code) (x : Nat × Flags) : Writes := { writeV d (word x.1) with flags := x.2 }
def clampedTo (e : Ext) (x : Nat × Flags) : Writes := single e.d (if e.fn.getLsbD 0 then clamp01 fp32 x else x)
def float2 (op : FVal → FVal → Nat × Flags) (e : Ext) (r : Rd) : Writes := clampedTo e (op (f32 (r.x32 e.a)) (f32 (r.x32 e.b)))
def float1 (op : Word → Nat × Flags) (e : Ext) (r : Rd) : Writes := single e.d (op (r.x32 e.a))

/-- The comparison of FSETP and WSETP by FN bits 3:1, with the unordered cases of R131. -/
def floatCompared (c : Nat) (a b : FVal) : Bool :=
  match c with
  | 0 => !isNaN a && !isNaN b && feqV a b
  | 1 => isNaN a || isNaN b || !feqV a b
  | 2 => !isNaN a && !isNaN b && fltV a b
  | 3 => !isNaN a && !isNaN b && !fltV b a
  | 4 => isNaN a || isNaN b
  | _ => !isNaN a && !isNaN b

end Sys2Proof.Claims

/-- R59, R100: a base word of two sources computes what the extended instruction of the same name does, at the width of its destination, with
the signedness of its name, wrapped. -/
def Sys2Proof.Claims.BaseTwoSources : Prop := ∀ f : Base2,
  Gives (.iaddBase f) (exact2 (· + ·) (ofBase2 false f))
  ∧ Gives (.isubBase f) (exact2 (· - ·) (ofBase2 false f))
  ∧ Gives (.imulBase f) (mulLow (ofBase2 false f))
  ∧ Gives (.andBase f) (bits2 (fun _ x y => x &&& y) (ofBase2 false f))
  ∧ Gives (.orBase f) (bits2 (fun _ x y => x ||| y) (ofBase2 false f))
  ∧ Gives (.xorBase f) (bits2 (fun _ x y => x ^^^ y) (ofBase2 false f))
  ∧ Gives (.andnBase f) (bits2 (fun w x y => x &&& (2 ^ w - 1 - y)) (ofBase2 false f))
  ∧ Gives (.shlBase f) (bits2 (fun w x y => x * 2 ^ (y % 256) % 2 ^ w) (ofBase2 false f))
  ∧ Gives (.shrNBase f) (shr (ofBase2 false f))
  ∧ Gives (.shrSBase f) (shr (ofBase2 true f))
  ∧ Gives (.iminSBase f) (lesser (ofBase2 true f))
  ∧ Gives (.imaxSBase f) (greater (ofBase2 true f))
  ∧ Gives (.iminNBase f) (lesser (ofBase2 false f))
  ∧ Gives (.imaxNBase f) (greater (ofBase2 false f))
  ∧ Gives (.rolBase f) (bits2 (fun w x y => rotl w x (y % 256 % w)) (ofBase2 false f))
  ∧ Gives (.rorBase f) (bits2 (fun w x y => rotl w x ((w - y % 256 % w) % w)) (ofBase2 false f))

/-- R59: the base words of one source. -/
def Sys2Proof.Claims.BaseOneSource : Prop := ∀ f : Base1,
  Gives (.movBase f) (bits1 (fun _ x => x) (ofBase1 f))
  ∧ Gives (.clzBase f) (bits1 (fun w x => if x = 0 then w else w - 1 - Nat.log2 x) (ofBase1 f))
  ∧ Gives (.ctzBase f) (bits1 (fun w x => ((bitsOf w x).takeWhile not).length) (ofBase1 f))
  ∧ Gives (.popcBase f) (bits1 (fun w x => (bitsOf w x).count true) (ofBase1 f))
  ∧ Gives (.brevBase f) (bits1 (fun w x => natOf (bitsOf w x).reverse) (ofBase1 f))

/-- R62, R67: a base word whose operand B is the 64-bit literal, of which a 32-bit operation takes bits 31:0. -/
def Sys2Proof.Claims.BaseLiterals : Prop := ∀ f : BaseLit,
  Gives (.iaddBaseLit f) (exact2 (· + ·) (ofLit false f))
  ∧ Gives (.isubBaseLit f) (exact2 (· - ·) (ofLit false f))
  ∧ Gives (.imulBaseLit f) (mulLow (ofLit false f))
  ∧ Gives (.andBaseLit f) (bits2 (fun _ x y => x &&& y) (ofLit false f))
  ∧ Gives (.orBaseLit f) (bits2 (fun _ x y => x ||| y) (ofLit false f))
  ∧ Gives (.xorBaseLit f) (bits2 (fun _ x y => x ^^^ y) (ofLit false f))
  ∧ Gives (.andnBaseLit f) (bits2 (fun w x y => x &&& (2 ^ w - 1 - y)) (ofLit false f))
  ∧ Gives (.shlBaseLit f) (bits2 (fun w x y => x * 2 ^ (y % 256) % 2 ^ w) (ofLit false f))
  ∧ Gives (.shrNBaseLit f) (shr (ofLit false f))
  ∧ Gives (.shrSBaseLit f) (shr (ofLit true f))
  ∧ Gives (.iminSBaseLit f) (lesser (ofLit true f))
  ∧ Gives (.imaxSBaseLit f) (greater (ofLit true f))
  ∧ Gives (.iminNBaseLit f) (lesser (ofLit false f))
  ∧ Gives (.imaxNBaseLit f) (greater (ofLit false f))
  ∧ Gives (.rolBaseLit f) (bits2 (fun w x y => rotl w x (y % 256 % w)) (ofLit false f))
  ∧ Gives (.rorBaseLit f) (bits2 (fun w x y => rotl w x ((w - y % 256 % w) % w)) (ofLit false f))

/-- R59, R60: the immediate forms: an 8-bit immediate sign-extended for IADD and with zeros for AND, OR and XOR; a shift count of 6 bits; and the
16 bits of MOVI sign-extended, and of MOVHI into bits 31:16 of its destination, whose other bits stay. -/
def Sys2Proof.Claims.BaseImmediates : Prop :=
  (∀ f : BaseImm8,
    Gives (.iaddBaseImm f) (fun r => fin (ofImm8 f) (num (ofImm8 f) r (src f.a)
      + (if isK f.d then ((f.imm.signExtend 64).toNat : Int) else (f.imm.signExtend 32).toNat)))
    ∧ Gives (.andBaseImm f) (bits1 (fun _ x => x &&& f.imm.toNat) (ofImm8 f))
    ∧ Gives (.orBaseImm f) (bits1 (fun _ x => x ||| f.imm.toNat) (ofImm8 f))
    ∧ Gives (.xorBaseImm f) (bits1 (fun _ x => x ^^^ f.imm.toNat) (ofImm8 f)))
  ∧ (∀ f : BaseShift,
    Gives (.shlBaseImm f) (bits1 (fun w x => x * 2 ^ f.count.toNat % 2 ^ w) (ofShift false f))
    ∧ Gives (.shrNBaseImm f) (bits1 (fun _ x => x / 2 ^ f.count.toNat) (ofShift false f))
    ∧ Gives (.shrSBaseImm f) (fun r =>
        bits1 (fun w _ => (num (ofShift true f) r (src f.a) / 2 ^ f.count.toNat % 2 ^ w).toNat) (ofShift true f) r))
  ∧ (∀ f : BaseImm16,
    Gives (.movi f) (fun _ => if isV f.d then writeV f.d (f.imm.signExtend 32) else writeInt f.d true true (f.imm.signExtend 64).toNat)
    ∧ Gives (.movhi f) (fun r =>
        if isK f.d then
          let old := (readK r.q r.th (f.d.toNat - 0xC0))
          writeInt f.d true false ((old.extractLsb' 32 32 ++ f.imm ++ old.extractLsb' 0 16 : Dword)).toNat
        else writeV f.d (f.imm ++ (r.th.v.getD f.d.toNat 0).extractLsb' 0 16)))

namespace Sys2Proof.Claims

/-- An operation on each half of the operands in its own format, clamped by .sat, side by side, with the flags of both (R138). -/
def halves (fmt : Fmt) (op : FVal → FVal → FVal → Nat × Flags) (e : Ext) (r : Rd) : Writes :=
  let half (x : Word) (j : Nat) : FVal := Machine.unpack fmt (x.extractLsb' (16 * j) 16).toNat
  let one (j : Nat) : Nat × Flags :=
    let y := op (half (r.x32 e.a) j) (half (r.x32 e.b) j) (half (r.x32 e.c) j)
    if e.fn.getLsbD 0 then clamp01 fmt y else y
  single e.d ((one 0).1 + 2 ^ 16 * (one 1).1, (one 0).2 ||| (one 1).2)

/-- Samples 0 to 7 of a packet result, with the flags of all (R149). -/
def packetWith (d : Code) (g : Nat → Nat × Flags) : Writes :=
  { writeW d ((List.range 8).map (fun j => word (g j).1)) with flags := (List.range 8).foldl (fun b j => b ||| (g j).2) 0 }

/-- Sample j of operand A, C, and of B: B's scalar where FN has its bit for it (R152). -/
def sampleA (e : Ext) (r : Rd) (j : Nat) : Word := (r.packet e.a 0).getD j 0
def sampleC (e : Ext) (r : Rd) (j : Nat) : Word := (r.packet e.c 0).getD j 0
def sampleB (e : Ext) (scalar : Bool) (r : Rd) (j : Nat) : Word := if scalar then r.x32 e.b else (r.packet e.b 0).getD j 0

def packet2 (op : FVal → FVal → Nat × Flags) (e : Ext) (r : Rd) : Writes :=
  packetWith e.d (fun j =>
    let y := op (f32 (sampleA e r j)) (f32 (sampleB e (e.fn.getLsbD 1) r j))
    if e.fn.getLsbD 0 then clamp01 fp32 y else y)
def packet1 (op : Word → Nat × Flags) (e : Ext) (r : Rd) : Writes := packetWith e.d (fun j => op (sampleA e r j))

end Sys2Proof.Claims

/-- R126–R135: FP32 arithmetic by round-to-nearest-even, with the flags of R41 and the clamp of .sat. -/
def Sys2Proof.Claims.FloatArithmetic : Prop := ∀ f : Ext,
  Gives (.fadd f) (float2 (faddV fp32) f) ∧ Gives (.fsub f) (float2 (fun a b => faddV fp32 a (fneg b)) f)
  ∧ Gives (.fmul f) (float2 (fmulV fp32) f)
  ∧ Gives (.ffma f) (fun r => clampedTo f (ffmaV fp32
      (if f.fn.getLsbD 1 then fneg (f32 (r.x32 f.a)) else f32 (r.x32 f.a)) (f32 (r.x32 f.b)) (f32 (r.x32 f.c))))
  ∧ Gives (.fmin f) (fun r => single f.d (fminmaxBits fp32 false (r.x32 f.a).toNat (r.x32 f.b).toNat))
  ∧ Gives (.fmax f) (fun r => single f.d (fminmaxBits fp32 true (r.x32 f.a).toNat (r.x32 f.b).toNat))
  ∧ Gives (.fsetp f) (fun r =>
      { writeP f.d (combined r f.imm (floatCompared (f.fn.toNat / 2) (f32 (r.x32 f.a)) (f32 (r.x32 f.b)))) with
        flags := if isSNaN (f32 (r.x32 f.a)) || isSNaN (f32 (r.x32 f.b)) then fNV else 0 })
  ∧ Gives (.frnd f) (fun r => single f.d (frndV fp32 (RMode.ofCode f.fn.toNat) (f32 (r.x32 f.a)) (r.x32 f.a).toNat))
  ∧ Gives (.fclass f) (fun r => writeV f.d
      (word (2 ^ classBit (if f.fn = 0 then fp32 else if f.fn = 1 then fp16 else bf16) (r.x32 f.a).toNat)))
  ∧ Gives (.ftwosum f) (fun r =>
      let x := ftwosum (r.x32 f.a) (r.x32 f.b)
      { writeVs f.d [x.1.1, x.1.2] with flags := x.2 })
  ∧ Gives (.ftwoprod f) (fun r =>
      let x := ftwoprod (r.x32 f.a) (r.x32 f.b)
      { writeVs f.d [x.1.1, x.1.2] with flags := x.2 })
  ∧ Gives (.fdivR f) (float2 (fdivV fp32) f) ∧ Gives (.fsqrtR f) (float1 (fun x => fsqrtV fp32 (f32 x)) f)

namespace Sys2Proof.Claims

/-- The number that a finite value is (R29, R31). -/
def value : FVal → ℚ
  | .fin n m e => (if n then -1 else 1) * m * 2 ^ e
  | _ => 0
/-- An FP32 bit pattern of a finite value, and its number. -/
def finite32 (w : Word) : Prop := ∃ n m e, f32 w = .fin n m e
def value32 (w : Word) : ℚ := value (f32 w)

/-- r is the FP32 bit pattern of v rounded to nearest, ties to even (R39): no finite value is nearer, a tie goes to the even pattern, and
from 2^128 − 2^103 on the result is an infinity (R40). -/
def RoundsTo (r : Nat) (v : ℝ) : Prop :=
  r < 2 ^ 32
  ∧ (|v| < 2 ^ 128 - 2 ^ 103 → finite32 (word r) ∧ ∀ c, finite32 c →
      |v - value32 (word r)| < |v - value32 c| ∨ (|v - value32 (word r)| = |v - value32 c| ∧ (r % 2 = 0 ∨ value32 c = value32 (word r))))
  ∧ (2 ^ 128 - 2 ^ 103 ≤ |v| → word r = if v < 0 then 0xFF800000 else 0x7F800000)

end Sys2Proof.Claims

/-- R39, R129, R135: the results of sums, products, fused sums, quotients and roots of finite operands are the exact ones rounded once, to
nearest even. -/
def Sys2Proof.Claims.FloatNearest : Prop := ∀ x y z : Word, finite32 x → finite32 y → finite32 z →
  RoundsTo (faddV fp32 (f32 x) (f32 y)).1 ((value32 x + value32 y : ℚ) : ℝ)
  ∧ RoundsTo (fmulV fp32 (f32 x) (f32 y)).1 ((value32 x * value32 y : ℚ) : ℝ)
  ∧ RoundsTo (ffmaV fp32 (f32 x) (f32 y) (f32 z)).1 ((value32 x * value32 y + value32 z : ℚ) : ℝ)
  ∧ (value32 y ≠ 0 → RoundsTo (fdivV fp32 (f32 x) (f32 y)).1 ((value32 x / value32 y : ℚ) : ℝ))
  ∧ (0 ≤ value32 x → RoundsTo (fsqrtV fp32 (f32 x)).1 (Real.sqrt (value32 x)))

/-- R59, R62: the floating base words, without saturation. -/
def Sys2Proof.Claims.FloatBase : Prop :=
  (∀ f : Base2, Gives (.faddBase f) (fun r => single f.d (faddV fp32 (f32 (r.x32 (src f.a))) (f32 (r.x32 (src f.b)))))
    ∧ Gives (.fsubBase f) (fun r => single f.d (faddV fp32 (f32 (r.x32 (src f.a))) (fneg (f32 (r.x32 (src f.b))))))
    ∧ Gives (.fmulBase f) (fun r => single f.d (fmulV fp32 (f32 (r.x32 (src f.a))) (f32 (r.x32 (src f.b)))))
    ∧ Gives (.fminBase f) (fun r => single f.d (fminmaxBits fp32 false (r.x32 (src f.a)).toNat (r.x32 (src f.b)).toNat))
    ∧ Gives (.fmaxBase f) (fun r => single f.d (fminmaxBits fp32 true (r.x32 (src f.a)).toNat (r.x32 (src f.b)).toNat)))
  ∧ (∀ f : BaseLit, Gives (.faddBaseLit f) (fun r => single f.d (faddV fp32 (f32 (r.x32 (src f.a))) (f32 (f.lit.extractLsb' 0 32))))
    ∧ Gives (.fsubBaseLit f) (fun r => single f.d (faddV fp32 (f32 (r.x32 (src f.a))) (fneg (f32 (f.lit.extractLsb' 0 32)))))
    ∧ Gives (.fmulBaseLit f) (fun r => single f.d (fmulV fp32 (f32 (r.x32 (src f.a))) (f32 (f.lit.extractLsb' 0 32))))
    ∧ Gives (.fminBaseLit f) (fun r => single f.d (fminmaxBits fp32 false (r.x32 (src f.a)).toNat (f.lit.extractLsb' 0 32).toNat))
    ∧ Gives (.fmaxBaseLit f) (fun r => single f.d (fminmaxBits fp32 true (r.x32 (src f.a)).toNat (f.lit.extractLsb' 0 32).toNat)))

/-- R136: each row of the table of listed inputs, for both forms; w is the operand and y the FP32 value that the row's result names. -/
def Sys2Proof.Claims.ListedInputs : Prop := ∀ w y : Word, finite32 y →
  let both (F : TFun) (x : Nat × Flags) : Prop := transR F w = x ∧ transF F w = x
  let inf : Nat := 0x7F800000
  let nan : Nat := 0x7FC00000
  let one : Nat := 0x3F800000
  let neg (x : Nat) : Nat := 0x80000000 + x
  (∀ F, isNaN (f32 w) = true → both F (nan, if isSNaN (f32 w) then fNV else 0))
  ∧ (w = 0 → both .rcp (inf, fDZ) ∧ both .rsq (inf, fDZ) ∧ both .sinpi (0, 0) ∧ both .tanh (0, 0))
  ∧ (w = 0x80000000 → both .rcp (neg inf, fDZ) ∧ both .rsq (neg inf, fDZ) ∧ both .sinpi (neg 0, 0) ∧ both .tanh (neg 0, 0))
  ∧ (w = 0 ∨ w = 0x80000000 → both .exp2 (one, 0) ∧ both .log2 (neg inf, fDZ) ∧ both .cospi (one, 0))
  ∧ (w = 0x7F800000 → both .rcp (0, 0) ∧ both .rsq (0, 0) ∧ both .exp2 (inf, 0) ∧ both .log2 (inf, 0) ∧ both .tanh (one, 0))
  ∧ (w = 0xFF800000 → both .rcp (neg 0, 0) ∧ both .exp2 (0, 0) ∧ both .tanh (neg one, 0))
  ∧ (w = 0x7F800000 ∨ w = 0xFF800000 → both .sinpi (nan, fNV) ∧ both .cospi (nan, fNV))
  ∧ (w = 0xFF800000 ∨ value32 w < 0 → both .rsq (nan, fNV) ∧ both .log2 (nan, fNV))
  ∧ ∀ n : Int,
    (|value32 w| = 2 ^ n → value32 w * value32 y = 1 → both .rcp (y.toNat, 0))
    ∧ (value32 w = 2 ^ (2 * n) → value32 y = 2 ^ (-n) → both .rsq (y.toNat, 0))
    ∧ (value32 w = n → n ≠ 0 → -149 ≤ n → n ≤ 127 → value32 y = 2 ^ n → both .exp2 (y.toNat, 0))
    ∧ (128 ≤ value32 w → both .exp2 (inf, fOF ||| fNX)) ∧ (value32 w ≤ -150 → both .exp2 (0, fUF ||| fNX))
    ∧ (value32 w = 2 ^ n → value32 y = n → y ≠ 0x80000000 → both .log2 (y.toNat, 0))
    ∧ (value32 w = n → n ≠ 0 → both .sinpi (if 0 < n then 0 else neg 0, 0) ∧ both .cospi (if n % 2 = 0 then one else neg one, 0))
    ∧ (value32 w = n + 1 / 2 → both .sinpi (if n % 2 = 0 then one else neg one, 0) ∧ both .cospi (0, 0))

/-- R51, R52, R137: where an input is not listed, RCP.r and RSQ.r round the exact result to nearest even, and their .f results lie within 2
ulp of it where they are finite; the .f form of every function gives its .r value or a value within 2 ulp, 4 for TANH, of every value of
the enclosure of log entries 21 and 22, with NX, with OF at an infinity and with UF below the normal values. -/
def Sys2Proof.Claims.UnlistedInputs : Prop := ∀ (w : Word) (n : Bool) (m : Nat) (e : Int), f32 w = .fin n m e →
  let ulp (v : ℝ) : ℝ := 2 ^ (max (Int.log 2 |v|) (-126) - 23)
  let near (F : TFun) (v : ℝ) : Prop := RoundsTo (transR F w).1 v
    ∧ (finite32 (word (transF F w).1) → |value32 (word (transF F w).1) - v| ≤ 2 * ulp v)
  (value32 w ≠ 0 → near .rcp (1 / (value32 w : ℝ))) ∧ (0 < value32 w → near .rsq (1 / Real.sqrt (value32 w)))
  ∧ ∀ F, listed F (f32 w) = none →
    (withinUlp (enclose F 96 n m e) (if F = .tanh then 4 else 2) (transF F w).1 = true ∨ (transF F w).1 = (transR F w).1)
    ∧ (transF F w).2 = fNX ||| (if f32 (word (transF F w).1) = .inf false ∨ f32 (word (transF F w).1) = .inf true then fOF else 0)
        ||| (if (word (transF F w).1).extractLsb' 23 8 = 0 then fUF else 0)

/-- R136, R138: the instructions of the transcendental functions, by the model's functions of log entries 21 and 22, and the packed halves. -/
def Sys2Proof.Claims.TranscendentalForms : Prop := ∀ f : Ext,
  Gives (.rcpF f) (float1 (transF .rcp) f) ∧ Gives (.rcpR f) (float1 (transR .rcp) f)
  ∧ Gives (.rsqF f) (float1 (transF .rsq) f) ∧ Gives (.rsqR f) (float1 (transR .rsq) f)
  ∧ Gives (.exp2F f) (float1 (transF .exp2) f) ∧ Gives (.exp2R f) (float1 (transR .exp2) f)
  ∧ Gives (.log2F f) (float1 (transF .log2) f) ∧ Gives (.log2R f) (float1 (transR .log2) f)
  ∧ Gives (.sinpiF f) (float1 (transF .sinpi) f) ∧ Gives (.sinpiR f) (float1 (transR .sinpi) f)
  ∧ Gives (.cospiF f) (float1 (transF .cospi) f) ∧ Gives (.cospiR f) (float1 (transR .cospi) f)
  ∧ Gives (.tanhF f) (float1 (transF .tanh) f) ∧ Gives (.tanhR f) (float1 (transR .tanh) f)
  ∧ Gives (.hfma2 f) (halves fp16 (ffmaV fp16) f)
  ∧ Gives (.hadd2 f) (halves fp16 (fun a b _ => faddV fp16 a b) f)
  ∧ Gives (.hmul2 f) (halves fp16 (fun a b _ => fmulV fp16 a b) f)
  ∧ Gives (.bfma2 f) (halves bf16 (ffmaV bf16) f)

/-- R51, R52, R136–R138: the transcendental functions at their listed inputs and elsewhere, their instructions, and the packed halves. -/
def Obligations.TranscendentalsAndHalves : Prop := Claims.TranscendentalForms ∧ Claims.ListedInputs ∧ Claims.UnlistedInputs

/-- R152, R153: packet arithmetic on each of the eight samples, with a packet or a scalar as operand B. -/
def Sys2Proof.Claims.PacketArithmetic : Prop := ∀ f : Ext,
  Gives (.wadd f) (packet2 (faddV fp32) f) ∧ Gives (.wsub f) (packet2 (fun a b => faddV fp32 a (fneg b)) f)
  ∧ Gives (.wmul f) (packet2 (fmulV fp32) f)
  ∧ Gives (.wfma f) (fun r => packetWith f.d (fun j =>
      let a := f32 (sampleA f r j)
      let y := ffmaV fp32 (if f.fn.getLsbD 2 then fneg a else a) (f32 (sampleB f (f.fn.getLsbD 1) r j)) (f32 (sampleC f r j))
      if f.fn.getLsbD 0 then clamp01 fp32 y else y))
  ∧ Gives (.wmin f) (fun r => packetWith f.d (fun j => fminmaxBits fp32 false (sampleA f r j).toNat (sampleB f (f.fn.getLsbD 1) r j).toNat))
  ∧ Gives (.wmax f) (fun r => packetWith f.d (fun j => fminmaxBits fp32 true (sampleA f r j).toNat (sampleB f (f.fn.getLsbD 1) r j).toNat))
  ∧ Gives (.wrcpF f) (packet1 (transF .rcp) f) ∧ Gives (.wrcpR f) (packet1 (transR .rcp) f)
  ∧ Gives (.wexp2F f) (packet1 (transF .exp2) f) ∧ Gives (.wexp2R f) (packet1 (transR .exp2) f)

/-- R154–R158, R160: packet selection, moves, comparison, conversion, wavelengths, the lattice sum and the Mueller product. -/
def Sys2Proof.Claims.PacketMoves : Prop := ∀ f : Ext,
  Gives (.wsel f) (fun r => writeW f.d ((List.range 8).map (fun j => if (r.x32 f.c).getLsbD j then sampleA f r j else (r.packet f.b 0).getD j 0)))
  ∧ Gives (.wmov f) (fun r => writeW f.d ((List.range 8).map (fun j => if f.fn = 0 then sampleA f r j else r.x32 f.a)))
  ∧ Gives (.wext f) (fun r => writeV f.d (sampleA f r ((if f.fn = 0 then f.imm.toNat else (r.x32 f.b).toNat) % 8)))
  ∧ Gives (.wins f) (fun r => writeW f.d
      ((r.th.w.getD f.d.toNat zeroPacket).set ((if f.fn = 0 then f.imm.toNat else (r.x32 f.b).toNat) % 8) (r.x32 f.a))
      |> fun w => { w with kept := ((List.range 8).filter (· ≠ (if f.fn = 0 then f.imm.toNat else (r.x32 f.b).toNat) % 8)).map (8 * f.d.toNat + ·) })
  ∧ Gives (.wsetp f) (fun r =>
      let hit (j : Nat) : Bool := floatCompared (f.fn.toNat / 2) (f32 (sampleA f r j)) (f32 (sampleB f (f.fn.getLsbD 0) r j))
      let snan (j : Nat) : Bool := isSNaN (f32 (sampleA f r j)) || isSNaN (f32 (sampleB f (f.fn.getLsbD 0) r j))
      let mask := ((List.range 8).map (fun j => if hit j then 2 ^ j else 0)).sum
      let w := if f.imm = 0 then writeV f.d (word mask) else if f.imm = 1 then writeP f.d ((List.range 8).any hit) else writeP f.d ((List.range 8).all hit)
      { w with flags := if (List.range 8).any snan then fNV else 0 })
  ∧ Gives (.wcvt f) (fun r =>
      if f.fn = 0 then { writeVs f.d (wPack f.imm.toNat (r.packet f.a 0)).1 with flags := (wPack f.imm.toNat (r.packet f.a 0)).2 }
      else
        let n := if f.imm.toNat % 16 = 8 ∨ f.imm.toNat % 16 = 9 then 4 else 2
        { writeW f.d (wUnpack f.imm.toNat ((List.range n).map (r.vreg f.a))).1 with flags := (wUnpack f.imm.toNat ((List.range n).map (r.vreg f.a))).2 })
  ∧ ComputesWhen (.wlambda f) (fun r => f.fn = 1 → f.d.toNat + 1 < r.th.w.length) (fun r =>
      let x := wlambda (readOldCsr r.q r.th 0x020 r.q.lrange) (decide (f.fn = 1)) (r.x32 f.a).toNat
      { w := (f.d.toNat, x.1) :: (if f.fn = 1 then [(f.d.toNat + 1, x.2.1)] else []), flags := x.2.2 })
  ∧ Gives (.wsum f) (fun r => single f.d (latticeSum fp32 ((r.packet f.a 0).map (·.toNat))))
  ∧ Gives (.wmueller f) (fun r =>
      let term (i j c : Nat) : Nat × Flags :=
        fmulV fp32 (f32 ((r.packet f.a (4 * i + c)).getD j 0)) (f32 ((r.packet f.b c).getD j 0))
      let row (i j : Nat) : Nat × Flags := latticeSum fp32 ((List.range 4).map (fun c => (term i j c).1))
      { w := (List.range 4).map (fun i => (f.d.toNat + i, (List.range 8).map (fun j => word (row i j).1)))
        flags := (List.range 4).foldl (fun b i => (List.range 8).foldl (fun b j =>
          b ||| ((List.range 4).foldl (fun b c => b ||| (term i j c).2) (row i j).2)) b) 0 })

namespace Sys2Proof.Claims

/-- An instruction that raises a flag enabled in csr.fptrap stops its thread with FP_EXC, nothing written and the flags held in csr.fflags (R41, R42). -/
def FloatTraps (i : Instr) (w : Rd → Writes) : Prop := ∀ s t c q th, (formOf i).uniform = false → Solo s t c q th (formOf i) → q.trap = .idle →
  let fl := (w (soloRd s t c q th (formOf i))).flags
  fl &&& q.fptrap ≠ 0 → ∃ s', exec i s = .next s' ∧ Stopped (orFlags (issuedOnce s) t fl) s' t .fpExc (some (th.pc.setWidth 64)) (fl &&& q.fptrap).toNat

end Sys2Proof.Claims

/-- R41: a floating-point exception that is enabled traps. -/
def Sys2Proof.Claims.FloatExceptions : Prop := ∀ f : Ext,
  FloatTraps (.fadd f) (float2 (faddV fp32) f) ∧ FloatTraps (.fmul f) (float2 (fmulV fp32) f) ∧ FloatTraps (.fdivR f) (float2 (fdivV fp32) f)
  ∧ FloatTraps (.fsqrtR f) (float1 (fun x => fsqrtV fp32 (f32 x)) f) ∧ FloatTraps (.wadd f) (packet2 (faddV fp32) f)

/-! ## Operands -/

/-- R59, R68, R70, R101: what a source field reads: a lane register or an even pair of the lane its pattern names, a uniform register, z, lane,
tix or the literal. -/
def Sys2Proof.Claims.SourceOperands : Prop := ∀ (r : Rd) (f : Src),
  (isV f.code = true → f.pat = 0 → r.x32 f = readVReg r.q r.th f.code.toNat)
  ∧ (∀ (l : Nat) (other : Thread), isV f.code = true → f.pat ≠ 0 → r.q.threads[l]? = some other →
      (f.pat = 1 ∧ l = f.par.toNat ∨ f.pat = 2 ∧ r.t.lane < 32 ∧ l = (r.t.lane + 32 - f.par.toNat) % 32 ∨ f.pat = 3 ∧ l = r.t.lane ^^^ f.par.toNat
        ∨ f.pat = 4 ∧ l = r.t.lane ^^^ (2 ^ (f.par.toNat % 6) - 1) ∨ f.pat = 5 ∧ l = r.t.lane + f.par.toNat ∧ l ≤ 31) →
      r.x32 f = readVReg r.q other f.code.toNat)
  ∧ (isV f.code = true → f.pat = 5 → 31 < r.t.lane + f.par.toNat → r.x32 f = 0)
  ∧ (isK f.code = true → r.x64 f = readK r.q r.th (f.code.toNat - 0xC0) ∧ r.x32 f = (readK r.q r.th (f.code.toNat - 0xC0)).extractLsb' 0 32)
  ∧ (f.code = cZ → r.x64 f = 0 ∧ r.x32 f = 0)
  ∧ (f.code = cLane → r.x64 f = BitVec.ofNat 64 r.t.lane ∧ r.x32 f = BitVec.ofNat 32 r.t.lane)
  ∧ (f.code = cTix → r.x32 f = BitVec.ofNat 32 (32 * r.t.squad + r.t.lane))
  ∧ (∀ l, f.code = cLit → r.lit = some l → r.x64 f = l ∧ r.x32 f = l.extractLsb' 0 32)
  ∧ (isV f.code = true → r.x64 f = r.vreg f 1 ++ r.vreg f 0)
  ∧ (∀ n, r.q.bound n = 0 → readVReg r.q r.th n = r.th.v.getD n 0) ∧ r.th.pred 0 = true

/-- R68, R84, R101: what a result is written to: a lane register or the low and high register of a pair, a k register extended by S at width 32
and whole at 64, nothing for z; and a write to p0 is discarded. -/
def Sys2Proof.Claims.Destinations : Prop := ∀ (d : Code) (signed : Bool) (n : Nat),
  (isV d = true → writeInt d false signed n = { v := [(d.toNat, BitVec.ofNat 32 n)] }
    ∧ writeInt d true signed n = { v := [(d.toNat, BitVec.ofNat 32 n), (d.toNat + 1, BitVec.ofNat 32 (n / 2 ^ 32))] })
  ∧ (isK d = true → writeInt d true signed n = { k := [(d.toNat - 0xC0, BitVec.ofNat 64 n)] }
    ∧ writeInt d false signed n
        = { k := [(d.toNat - 0xC0, if signed then (BitVec.ofNat 32 n).signExtend 64 else (BitVec.ofNat 32 n).setWidth 64)] })
  ∧ (∀ wide, writeInt cZ wide signed n = {})
  ∧ (∀ (th : Thread) (b : Bool), (th.written (writeP 0 b)).p = th.p)
  ∧ (∀ (th : Thread) (k : Nat) (b : Bool), 0 < k → k < 16 → (th.written (writeP (BitVec.ofNat 8 k) b)).p.getLsbD k = b)

/-- R114: a thread that has passed every step of the ring reads a uniform register as it stands, and one that is a step behind reads the value that
step replaced. -/
def Sys2Proof.Claims.UniformViews : Prop := ∀ (q : Squad) (th : Thread) (n : Nat),
  ((∀ e ∈ q.ring, e.num ≤ th.ustep) → readK q th n = q.k.getD n 0)
  ∧ (∀ (before : List UStep) (e : UStep) (x : Dword), q.ring = before ++ [e] → (∀ u ∈ before, u.num ≤ th.ustep) → th.ustep < e.num →
      e.oldK = [(n, x)] → readK q th n = x)

namespace Sys2Proof.Claims

/-- Thread t stands where Solo has it, but the guard is false. -/
structure OffGuard (s : State) (t : Tid) (c : Cell) (q : Squad) (th : Thread) (f : Form) : Prop where
  cur : s.cur = .bundle [t]
  upsets : s.upsets = []
  cell : s.cell? t.cell = some c
  squad : c.squads[t.squad]? = some q
  thread : q.threads[t.lane]? = some th
  lane : t.lane < 32
  can : canIssue s t = true
  board : ∀ x ∈ q.threads, x.board = []
  bind : ∀ n, q.bound n = 0
  collected : q.collected = []
  nested : ∀ x ∈ c.squads, ∀ r ∈ x.collected, r.cause ≠ .machineCheck
  residues : ∀ x ∈ q.threads, x.vres = [] ∧ x.wres = [] ∧ x.ppar = false
  form : formOk f = true
  decode : decodeCause f none c q th = none
  guard : guardHolds f.guard th = false
  free : (c.strict && f.collective c.strict) = false

/-- The decode check that an instruction makes beyond its fields (R160, R202, R339, R362): it is made whatever the guard. -/
def ownCause (i : Instr) (s : State) (t : Tid) : Option Cause :=
  match i with
  | .yield f => yieldCause f s t
  | .tret _ => tretCause s t
  | .wlambda f => wlambdaFits f s t
  | .mxmE4m3 f => scalesFit 0 f s t
  | .mxmE5m2 f => scalesFit 1 f s t
  | .mxmE2m1 f => scalesFit 2 f s t
  | .mxmI8g f => scalesFit 3 f s t
  | .mxmI4g f => scalesFit 4 f s t
  | .mxmBf16 f => scalesFit 5 f s t
  | .mxmF16 f => scalesFit 6 f s t
  | _ => none

/-- A thread whose guard is false goes to the next instruction and writes nothing. -/
def Skips (i : Instr) : Prop := ∀ s t c q th, (formOf i).uniform = false → OffGuard s t c q th (formOf i) → ownCause i (issuedOnce s) t = none →
  ∃ s', exec i s = .next s' ∧ Wrote (issuedOnce s) s' t {} (th.pc + word (formOf i).len) []

/-- A thread that reaches a uniform step already executed skips it: its count alone advances (R113, R335). One that meets another step than the
ring holds raises UNIFORM_DIVERGE. -/
def Follows (i : Instr) : Prop := ∀ s t c q th, (formOf i).uniform = true → Solo s t c q th (formOf i) → th.ustep < q.ustep →
  (∀ e ∈ q.ring, e.num = th.ustep + 1 → e.pc = th.pc →
    ∃ s', exec i s = .next s' ∧ ∃ q' th', s'.squad? t.cell t.squad = some q' ∧ q'.threads[t.lane]? = some th'
      ∧ q'.k = q.k ∧ q'.ustep = q.ustep ∧ q'.ring = q.ring ∧ q'.fflags = q.fflags
      ∧ th' = { th with ustep := th.ustep + 1, pc := th.pc + word (formOf i).len, readyAt := th'.readyAt, wants := th'.wants, state := .ready, wait := none })
  ∧ ((∀ e ∈ q.ring, e.num = th.ustep + 1 → e.pc ≠ th.pc) → q.trap = .idle →
    ∃ s', exec i s = .next s' ∧ Stopped (issuedOnce s) s' t .uniformDiverge (some (th.pc.setWidth 64)) 0)

end Sys2Proof.Claims

/-- R65: every instruction that a squad issues, where its guard is false. -/
def Sys2Proof.Claims.GuardFalse : Prop := ∀ i, Skips i

/-- R113, R335: every uniform instruction, met as a step by a thread that has not led it. -/
def Sys2Proof.Claims.UniformFollowers : Prop := ∀ i, Follows i

namespace Sys2Proof.Claims

/-- The threads of a bundle, in ascending lanes, stand at one instruction of form f (R333), each as it would alone. -/
structure Together (s : State) (b : List Tid) (f : Form) : Prop where
  cur : s.cur = .bundle b
  formed : formBundle s b = b
  any : b ≠ []
  each : ∀ t ∈ b, ∃ c q th, Solo { s with cur := .bundle [t] } t c q th f

/-- What a thread of the bundle reads from: the state before the bundle's writes (R97), all of its threads performing. -/
def rdIn (s : State) (b : List Tid) (f : Form) (t : Tid) : Option Rd :=
  match s.cell? t.cell, s.squad? t.cell t.squad, s.thread? t with
  | some c, some q, some th => some ⟨issuedOnce s, t, th, q, c, f.lit, b, b, []⟩
  | _, _, _ => none

/-- From s to s' a thread has performed instruction i with the writes w and stands after it. -/
def After (i : Instr) (s s' : State) (t : Tid) (w : Writes) : Prop := ∃ th th', s.thread? t = some th ∧ s'.thread? t = some th' ∧
  th' = { th.written w with taint := th'.taint, npc := th'.npc, readyAt := th'.readyAt, waitAt := th'.waitAt, waitLanes := th'.waitLanes,
                            wants := th'.wants, pc := th.pc + word (formOf i).len, state := .ready, wait := none,
                            board := boardEntry ((formOf i).extended && longLatency (formOf i).opx) (formOf i).writes (formOf i).la .unit }

/-- A lane instruction that only computes registers, in a bundle for which ok holds: each thread writes what it computes from the state before
the bundle, csr.fflags of each squad takes the flags of all its threads, and nothing else changes. -/
def TogetherGives (i : Instr) (ok : List Tid → Prop) (w : Rd → Writes) : Prop :=
  ∀ s b, (formOf i).uniform = false → Together s b (formOf i) → ok b →
    (∀ t ∈ b, ∀ r, rdIn s b (formOf i) t = some r → (w r).flags &&& r.q.fptrap = 0) →
    ∃ s', exec i s = .next s' ∧ { s' with cells := s.cells, asks := s.asks } = issuedOnce s
      ∧ (∀ t ∈ b, ∀ r, rdIn s b (formOf i) t = some r → After i s s' t (w r))
      ∧ (∀ t, t ∉ b → s'.thread? t = s.thread? t)
      ∧ (∀ id c, s.cell? id = some c → ∃ c', s'.cell? id = some c' ∧ { c' with squads := c.squads } = c)
      ∧ (∀ cell sq q, s.squad? cell sq = some q → ∃ q', s'.squad? cell sq = some q'
        ∧ { q' with threads := q.threads, fflags := q.fflags, tags := q.tags } = q
        ∧ ∀ x : Nat, q'.fflags.getLsbD x = (q.fflags.getLsbD x || b.any (fun t => decide (t.cell = cell ∧ t.squad = sq)
            && (rdIn s b (formOf i) t).any (fun r => (w r).flags.getLsbD x))))

/-- A bundle of one squad. -/
def oneSquad (b : List Tid) : Prop := ∀ t ∈ b, ∀ u ∈ b, t.cell = u.cell ∧ t.squad = u.squad

end Sys2Proof.Claims

/-- R97, R109, R333: a bundle of several threads computes in each thread what the registers before the bundle give, lane patterns and VOTE
included. -/
def Sys2Proof.Claims.BundlesCompute : Prop := ∀ f : Ext,
  TogetherGives (.iadd f) (fun _ => True) (exact2 (· + ·) f) ∧ TogetherGives (.isub f) (fun _ => True) (exact2 (· - ·) f)
  ∧ TogetherGives (.and f) (fun _ => True) (bits2 (fun _ x y => x &&& y) f)
  ∧ TogetherGives (.sel f) (fun _ => True)
      (fun r => writeInt f.d (f.fn.getLsbD 0) false (r.x (f.fn.getLsbD 0) (if r.th.pred f.c.code.toNat then f.a else f.b)))
  ∧ TogetherGives (.isetp f) (fun _ => True) (fun r => writeP f.d (combined r f.imm
      (compared (if f.fn.getLsbD 0 then 64 else 32) (f.fn.toNat / 2) (r.x (f.fn.getLsbD 0) f.a) (r.x (f.fn.getLsbD 0) f.b))))
  ∧ TogetherGives (.fadd f) (fun _ => True) (float2 (faddV fp32) f) ∧ TogetherGives (.fmul f) (fun _ => True) (float2 (fmulV fp32) f)
  ∧ TogetherGives (.wadd f) (fun _ => True) (packet2 (faddV fp32) f)
  ∧ TogetherGives (.vote f) oneSquad (fun r =>
      let v := votes r f.a.code
      match f.fn.toNat with
      | 0 => writeP f.d (v.all (·.2))
      | 1 => writeP f.d (v.any (·.2))
      | 2 => writeP f.d (v.all (·.2) || v.all (fun x => !x.2))
      | 3 => writeV f.d (word ((v.filter (·.2)).map (fun x => 2 ^ x.1)).sum)
      | _ => writeP f.d ((v.find? (·.2)).map (·.1) == some r.t.lane))

namespace Sys2Proof.Claims

/-- A thread that reads the queue-mapped register n alone, alone in its bundle (R88, R89): as Solo has it but that n is bound. -/
structure QueueAt (s : State) (t : Tid) (c : Cell) (q : Squad) (th : Thread) (f : Form) (n : Nat) : Prop where
  cur : s.cur = .bundle [t]
  upsets : s.upsets = []
  cell : s.cell? t.cell = some c
  squad : c.squads[t.squad]? = some q
  thread : q.threads[t.lane]? = some th
  lane : t.lane < 32
  can : canIssue s t = true
  ready : th.state = .ready
  board : ∀ x ∈ q.threads, x.board = []
  bound : q.bound n ≠ 0
  alone : ∀ m, m ≠ n → q.bound m = 0
  collected : q.collected = []
  nested : ∀ x ∈ c.squads, ∀ r ∈ x.collected, r.cause ≠ .machineCheck
  residues : ∀ x ∈ q.threads, x.vres = [] ∧ x.wres = [] ∧ x.ppar = false
  kres : q.kres = []
  form : formOk f = true
  decode : decodeCause f none c q th = none
  guard : guardHolds f.guard th = true
  free : (c.strict && f.collective c.strict) = false

/-- A thread whose register files may hold errors, alone in its bundle, otherwise as Solo has it (R94). -/
structure Marred (s : State) (t : Tid) (c : Cell) (q : Squad) (th : Thread) (f : Form) : Prop where
  cur : s.cur = .bundle [t]
  upsets : s.upsets = []
  cell : s.cell? t.cell = some c
  squad : c.squads[t.squad]? = some q
  thread : q.threads[t.lane]? = some th
  lane : t.lane < 32
  can : canIssue s t = true
  board : ∀ x ∈ q.threads, x.board = []
  bind : ∀ n, q.bound n = 0
  collected : q.collected = []
  nested : ∀ x ∈ c.squads, ∀ r ∈ x.collected, r.cause ≠ .machineCheck
  form : formOk f = true
  decode : decodeCause f none c q th = none
  free : (c.strict && f.collective c.strict) = false

/-- The error modulo 3 of the residue that a lane register carries (R94; log entry 73). -/
def errorOf (th : Thread) (n : Nat) : Nat := ((th.vres.find? (fun x => x.1 = n)).map (·.2)).getD 0 % 3

/-- A failing check whose replay fails too (R95): the thread writes nothing, and its squad has taken MACHINE_CHECK with subcode 1. -/
def CheckFails (i : Instr) (s : State) (t : Tid) (th : Thread) : Prop := ∃ s', exec i s = .next s'
  ∧ s' = machineCheck (issuedOnce s) t.cell t.squad (1#32 <<< t.lane) th.pc 1 0
  ∧ ∀ th', s'.thread? t = some th' → th'.v = th.v ∧ th'.p = th.p ∧ th'.w = th.w ∧ th'.queues = th.queues

end Sys2Proof.Claims

/-- R89, R358: the read of a queue-mapped register takes the queue's oldest entry; where the queue is empty the thread is STALLED on it, or
stops with QUEUE_ORPHAN where the producer has exited or been killed. -/
def Sys2Proof.Claims.QueueReads : Prop := ∀ (f : Ext) (s : State) (t : Tid) (c : Cell) (q : Squad) (th : Thread) (n : Nat),
  let i : Instr := .iadd f
  (formOf i).uniform = false → QueueAt s t c q th (formOf i) n → f.a = ⟨BitVec.ofNat 8 n, 0, 0⟩ →
  let queue := th.queues.getD (n - 176) []
  let producer := (c.xps[q.bound n - 1]?).map XpCtx.state
  let r : Rd := ⟨issuedOnce s, t, th, q, c, (formOf i).lit, [t], [t], [n]⟩
  let w := exact2 (· + ·) f r
  (∀ x rest, queue = x :: rest → r.x32 f.a = x ∧ (w.flags &&& q.fptrap = 0 → ∃ s' th', exec i s = .next s' ∧ s'.thread? t = some th' ∧
      th' = { th.written w with queues := th.queues.set (n - 176) rest, taint := th'.taint, npc := th'.npc, readyAt := th'.readyAt,
                                waitAt := th'.waitAt, waitLanes := th'.waitLanes, wants := [], pc := th.pc + word (formOf i).len,
                                state := .ready, wait := none, board := [] }))
  ∧ (queue = [] → producer ≠ some .exited → producer ≠ some .killed → ∃ s' th', exec i s = .next s' ∧ s'.thread? t = some th' ∧
      th' = { th with state := .stalled, wait := none, wants := [n], npc := th'.npc })
  ∧ (queue = [] → q.trap = .idle → (producer = some .exited ∨ producer = some .killed) → ∃ s', exec i s = .next s' ∧
      Stopped (issuedOnce s) s' t .queueOrphan (some (th.pc.setWidth 64))
        ((if producer = some .exited then 1 else 2) + 256 * q.bound n + 65536 * (n - 176)))

/-- R94, R95: an error in a register that an instruction reads. A logic operation's unit finds any; a sum's compares the predicted residue,
so that errors which cancel pass; the predicate file's parity is found at the guard; and a replay that passes completes the instruction, with its
count and record. -/
def Sys2Proof.Claims.RegisterErrors : Prop := ∀ (f : Ext) (s : State) (t : Tid) (c : Cell) (q : Squad) (th : Thread),
  let guardSound : Prop := f.g.p = 0 ∨ th.ppar = false
  let w := exact2 (· + ·) f (soloRd s t c q th (formOf (.iadd f)))
  (Marred s t c q th (formOf (.and f)) → (formOf (.and f)).uniform = false →
      (f.g.p ≠ 0 → th.ppar = true → CheckFails (.and f) s t th)
      ∧ (guardHolds f.g th = true → isV f.a.code = true → f.a.pat = 0 → errorOf th f.a.code.toNat ≠ 0 → CheckFails (.and f) s t th))
  ∧ (Marred s t c q th (formOf (.iadd f)) → (formOf (.iadd f)).uniform = false → guardSound → guardHolds f.g th = true →
      f.fn.getLsbD 0 = false → isV f.a.code = true → f.a.pat = 0 → isV f.b.code = true → f.b.pat = 0 →
      let error := (errorOf th f.a.code.toNat + errorOf th f.b.code.toNat) % 3
      (error ≠ 0 → CheckFails (.iadd f) s t th)
      ∧ (error = 0 → Does (.iadd f) s t q th (atIssue s t (formOf (.iadd f))) w .unit))
  ∧ (∀ later, s.upsets = .residue true :: later → Solo { s with upsets := [] } t c q th (formOf (.iadd f)) → (formOf (.iadd f)).uniform = false →
      w.flags &&& q.fptrap = 0 → ∃ s' th', exec (.iadd f) s = .next s' ∧ s'.upsets = later ∧ s'.thread? t = some th' ∧ th'.v = (th.written w).v
        ∧ th'.pc = th.pc + word (formOf (.iadd f)).len ∧ th'.state = .ready
        ∧ ∀ k, c.core < 144 → s.core? c.core = some k → (s'.core? c.core).map Core.rescorr = some ((k.rescorr + 1) % 2 ^ 32))

/-! ## Sweeps -/

namespace Sys2Proof.Claims

/-- Byte offset of operand (code, step, size) in iteration i for the thread (R141): k + i · step + lane · size. -/
def reach (r : Rd) (x : Code × BitVec 16 × Nat) (i : Nat) : Int :=
  ((readK r.q r.th (x.1.toNat - 0xC0)).toNat : Int) + i * x.2.1.toInt + r.t.lane * x.2.2

/-- Every access of the sweep is aligned and within the cell's scratch. -/
def reachable (r : Rd) (n : Nat) (xs : List (Code × BitVec 16 × Nat)) : Prop :=
  ∀ i < n, ∀ x ∈ xs, reach r x i % x.2.2 = 0 ∧ 0 ≤ reach r x i ∧ reach r x i + x.2.2 ≤ r.c.shape.scratch

/-- One iteration of a sweep in one thread: the elements read, the result written, its flags joining csr.fflags (R142, R143). -/
def sweepOnce (r : Rd) (d : Code × BitVec 16 × Nat) (srcs : List (Code × BitVec 16 × Nat)) (op : List Nat → Nat × Flags) (s : State) (i : Nat) :
    State :=
  let y := op (srcs.map (fun x => leNat (scratchRead s r.t.cell (reach r x i).toNat x.2.2)))
  orFlags (scratchWrite s r.t.cell (reach r d i).toNat (leBytes d.2.2 y.1)) r.t y.2

/-- A sweep in one thread: COUNT iterations, each reading what those before it have written. -/
def SweepsAs (i : Instr) (f : Sweep) (d : Code × BitVec 16 × Nat) (srcs : List (Code × BitVec 16 × Nat)) (op : List Nat → Nat × Flags) : Prop :=
  InLane i (fun _ _ _ _ r s does => reachable r f.count.toNat (d :: srcs) →
    does ((List.range f.count.toNat).foldl (sweepOnce r d srcs op) s) {} .unit .next)

/-- The clamp of .sat in a sweep. -/
def swSat (f : Sweep) (y : Nat × Flags) : Nat × Flags := if f.fn.getLsbD 0 then clamp01 fp32 y else y
/-- Element j of the sources as FP32. -/
def swVal (xs : List Nat) (j : Nat) : FVal := Machine.unpack fp32 (xs.getD j 0)
def elemBytes (c : Nat) : Nat := (format c).width / 8

end Sys2Proof.Claims

/-- R140–R146: the sweeps over a cell's scratch. -/
def Obligations.Sweeps : Prop := ∀ f : Sweep,
  SweepsAs (.swFadd f) f (f.d, f.stepD, 4) [(f.a, f.stepA, 4), (f.b, f.stepB, 4)] (fun xs => swSat f (faddV fp32 (swVal xs 0) (swVal xs 1)))
  ∧ SweepsAs (.swFmul f) f (f.d, f.stepD, 4) [(f.a, f.stepA, 4), (f.b, f.stepB, 4)] (fun xs => swSat f (fmulV fp32 (swVal xs 0) (swVal xs 1)))
  ∧ SweepsAs (.swFfma f) f (f.d, f.stepD, 4) [(f.a, f.stepA, 4), (f.b, f.stepB, 4), (f.c, f.stepC, 4)]
      (fun xs => swSat f (ffmaV fp32 (swVal xs 0) (swVal xs 1) (swVal xs 2)))
  ∧ SweepsAs (.swFmax f) f (f.d, f.stepD, 4) [(f.a, f.stepA, 4), (f.b, f.stepB, 4)]
      (fun xs => fminmaxBits fp32 true (xs.getD 0 0) (xs.getD 1 0))
  ∧ SweepsAs (.swCvt f) f (f.d, f.stepD, elemBytes (f.cvtsel.toNat / 16 % 16)) [(f.a, f.stepA, elemBytes (f.cvtsel.toNat % 16))]
      (fun xs => cvtBits (format (f.cvtsel.toNat % 16)) (format (f.cvtsel.toNat / 16 % 16)) (RMode.ofCode (f.cvtsel.toNat / 256 % 4))
        (f.cvtsel.getLsbD 10) (xs.getD 0 0))
  ∧ SweepsAs (.swCopy f) f (f.d, f.stepD, 4) [(f.a, f.stepA, 4)] (fun xs => (xs.getD 0 0, 0))
  ∧ InLane (.swSum f) (fun _ _ _ _ r s does => reachable r f.count.toNat [(f.a, f.stepA, 4)] →
      let y := latticeSum fp32 ((List.range f.count.toNat).map (fun i => leNat (scratchRead s r.t.cell (reach r (f.a, f.stepA, 4) i).toNat 4)))
      does (orFlags s r.t y.2) (writeV f.d (word y.1)) .unit .next)

/-! ## Memory -/

/-- A byte memory after a write: the byte written at its address, every other address as before, in canonical form. -/
def Sys2Proof.Claims.MemoryBytes : Prop :=
  (∀ (m : Memory) (a x : Nat) (b : Byte), Memory.wf m = true →
    memRead (memWrite m a b) x = (if x = a then b else memRead m x) ∧ Memory.wf (memWrite m a b) = true)
  ∧ (∀ (m : Memory) (a x : Nat) (bs : List Byte), Memory.wf m = true →
    memRead (memWriteL m a bs) x = (if a ≤ x ∧ x < a + bs.length then bs.getD (x - a) 0 else memRead m x)
      ∧ Memory.wf (memWriteL m a bs) = true)
  ∧ (∀ m m' : Memory, Memory.wf m = true → Memory.wf m' = true → (∀ a, memRead m a = memRead m' a) → m = m')

namespace Sys2Proof.Claims

/-- What check 7 finds of a page (R215): unmapped, or poisoned, by an uncorrectable error that the access meets as well (R398). -/
def pageFault (s : State) (root page : Nat) : Option Cause :=
  match s.page? root page with
  | none => some .pageUnmapped
  | some g =>
    if g.state = .unmapped then some .pageUnmapped
    else if g.state = .poisoned then some .pagePoisoned
    else if g.state = .resident ∧ g.ilv ≠ 4 ∧ (spoiltFrame s (g.loc / 2 ^ 17 * 2 ^ 17)).isSome then some .pagePoisoned
    else none
/-- A mapped page that an access waits for: BRINED, EXPANDING or MIGRATING, or behind a port that is held (R18). -/
def pageWaits (s : State) (root page : Nat) : Bool := (s.page? root page).any (fun g => g.state ≠ .resident || portDown s g)

end Sys2Proof.Claims

/-- R215, R216, R392, R393: the checks of a global access of size bytes at an exact offset, in their order: the first that fails gives the cause
and its subcode, check 7 made for each storage page touched. -/
def Obligations.AccessChecks : Prop := ∀ (s : State) (ctx : Nat) (n : Need) (idx : Nat) (off : Int) (size align : Nat),
  let o := off.toNat
  ((off < 0 ∨ 2 ^ 44 - size < off) → checkBuffer s ctx n idx off size align = .bad .refBounds 0)
  ∧ (0 ≤ off → off ≤ 2 ^ 44 - size →
    (o % align ≠ 0 → checkBuffer s ctx n idx off size align = .bad .misaligned 0)
    ∧ (o % align = 0 →
      (btEntry? s ctx idx = none → checkBuffer s ctx n idx off size align = .bad .refInvalid 0)
      ∧ (∀ e, btEntry? s ctx idx = some e → (e.rvalid = true → (s.routes.any (fun r => r.1 == e.peer)) = true) →
        (e.length < o + size → checkBuffer s ctx n idx off size align = .bad .refBounds 0)
        ∧ (o + size ≤ e.length →
          (n.right e = false → checkBuffer s ctx n idx off size align = .bad .refRights 0)
          ∧ (n.right e = true →
            let partly : Prop := (e.viewOf = .t16 ∧ (size < 4 ∨ o % 4 ≠ 0)) ∨ (e.viewOf ≠ .raw ∧ size < 2)
            (n.home = true → e.viewOf ≠ .raw → checkBuffer s ctx n idx off size align = .bad .refRights 1)
            ∧ ((n.home = false ∨ e.viewOf = .raw) →
              (n.local' = true → e.rvalid = true → checkBuffer s ctx n idx off size align = .bad .refRights 2)
              ∧ ((n.local' = false ∨ e.rvalid = false) →
                (n.store = true → partly → checkBuffer s ctx n idx off size align = .bad .refRights 3)
                ∧ ((n.store = false ∨ ¬ partly) →
                  (e.owner ≠ ctx → checkBuffer s ctx n idx off size align = .bad .refOwner 0)
                  ∧ (e.owner = ctx → 0 < size →
                    let span := storageSpan e.viewOf o size
                    let within (p : Nat) : Prop := span.1 / 2 ^ 17 ≤ p ∧ p ≤ (span.1 + span.2 - 1) / 2 ^ 17
                    let passes : Prop := ∃ a, checkBuffer s ctx n idx off size align = .ok a ∧ a.view = e.viewOf ∧ a.off = o ∧ a.size = size
                      ∧ a.store = (List.range span.2).map (fun i => (span.1 + i, storageLoc s e (span.1 + i)))
                    (e.rvalid = true → passes)
                    ∧ (e.rvalid = false →
                      (∀ p k, within p → (∀ p', within p' → p' < p → pageFault s e.ptroot p' = none) → pageFault s e.ptroot p = some k →
                        checkBuffer s ctx n idx off size align = .bad k 0)
                      ∧ ((∀ p, within p → pageFault s e.ptroot p = none) →
                        ((∀ p, within p → pageWaits s e.ptroot p = false) → passes)
                        ∧ (∀ p, within p → (∀ p', within p' → p' < p → pageWaits s e.ptroot p' = false) → pageWaits s e.ptroot p = true →
                            checkBuffer s ctx n idx off size align = .waits e.ptroot p))))))))))))

namespace Sys2Proof.Claims

/-- Index times scale plus displacement (R213, R215). -/
def indexed (f : Mem) (r : Rd) : Int := (r.x32 f.b).toInt * 2 ^ f.scale.toNat + f.disp.toInt
/-- The scratch offset of an access (R215). -/
def scratchAt (f : Mem) (r : Rd) : Int := ((r.x32 f.a).toNat : Int) + indexed f r
/-- Bytes of an access: by FN bits 2:0, or the packets of LDW and STW (R214). -/
def accessBytes (f : Mem) : Nat := 2 ^ (f.fn.toNat % 8)
def packetsBytes (f : Mem) : Nat := if f.fn.getLsbD 0 then 128 else 32

/-- The registers of n loaded bytes, low byte in the low register: one extended by S below 4 bytes, else one for every four (R219). -/
def loaded (d : Code) (signed : Bool) (bytes : List Byte) : Writes :=
  if signed ∧ bytes.length = 1 then writeVs d [(bytes.getD 0 0).signExtend 32]
  else if signed ∧ bytes.length = 2 then writeVs d [(bytes.getD 1 0 ++ bytes.getD 0 0).signExtend 32]
  else writeVs d ((List.range ((bytes.length + 3) / 4)).map (fun j => BitVec.ofNat 32 (leNat ((bytes.drop (4 * j)).take 4))))
/-- The packets of loaded bytes: sample j of packet i the word at 32 i + 4 j (R219). -/
def loadedPackets (d : Code) (bytes : List Byte) : Writes :=
  { w := (List.range (bytes.length / 32)).map (fun i =>
      (d.toNat + i, (List.range 8).map (fun j => BitVec.ofNat 32 (leNat ((bytes.drop (32 * i + 4 * j)).take 4))))) }

/-- A scratch access in bounds and aligned. -/
def scratchOk (f : Mem) (r : Rd) (n : Nat) : Prop := 0 ≤ scratchAt f r ∧ scratchAt f r + n ≤ r.c.shape.scratch ∧ scratchAt f r % n = 0
/-- An instruction whose scratch access fails stops, first by its bounds and then by its alignment, with the offset in csr.taddr. -/
def ScratchTraps (i : Instr) (f : Mem) (n : Nat) : Prop :=
  RaisesWhen i (fun r => scratchAt f r < 0 ∨ (r.c.shape.scratch : Int) < scratchAt f r + n) .scratchBounds
    (fun r => some (BitVec.ofInt 64 (scratchAt f r))) 0
  ∧ RaisesWhen i (fun r => 0 ≤ scratchAt f r ∧ scratchAt f r + n ≤ r.c.shape.scratch ∧ scratchAt f r % n ≠ 0) .misaligned
    (fun r => some (BitVec.ofInt 64 (scratchAt f r))) 0

/-- An access waits behind the thread's own: an earlier one to a block of it is still on its way (R218), or its address is tainted and a
LD.consume has still to return (R443). -/
def behindOwn (s : State) (t : Tid) (r : Rd) (f : Mem) (a : Access) : Prop :=
  (∃ b ∈ a.blocks, b ∈ inFlightBlocks s t) ∨ (r.addrTaint f = true ∧ consuming s t = true)
/-- A global access of a thread passes its checks, stays in the package, and waits behind no access of the thread's own (R215, R218, R443). -/
def accessOk (s : State) (t : Tid) (c : Cell) (r : Rd) (f : Mem) (need : Need) (off : Int) (n : Nat) (a : Access) : Prop :=
  checkRef s c.ctx need (r.x64 f.a) off n = .ok a ∧ a.isRemote = false ∧ ¬ behindOwn s t r f a
/-- A thread's immediate access sets out for its home under a fresh number, to be performed after a delay of n turns (R440). -/
def onItsWayHome (s : State) (t : Tid) (n : Nat) (a : Access) (use : LateUse) : State :=
  { s with nextId := s.nextId + 1, late := s.late ++ [⟨s.nextId, t, s.issued, n, a, use⟩] }
/-- The same of an access that goes to a peer's buffer (R406). -/
def accessPeer (s : State) (t : Tid) (c : Cell) (r : Rd) (f : Mem) (need : Need) (off : Int) (n : Nat) (a : Access) : Prop :=
  checkRef s c.ctx need (r.x64 f.a) off n = .ok a ∧ a.isRemote = true ∧ ¬ behindOwn s t r f a
/-- A request of an access to its peer, under the next fresh number (R414). -/
def toPeer (s : State) (a : Access) (op : PeerOp) (use : RemoteUse) : State :=
  sendRemote s a.peer.1 a.peer.2.1 a.peer.2.2.1 a.peer.2.2.2 op use
/-- A phased store to a peer's buffer that the peer has not answered for stalls: it asks once, and waits while the answer is out; where the peer's
check fails, the store stops on the peer's cause (R347, R406; log entry 101). -/
def StoreAsks (i : Instr) (f : Mem) (n : Nat) : Prop :=
  ∀ s t c q th, Solo s t c q th (formOf i) → ((formOf i).uniform = true → Leads q th) → t.cell ≠ 0 →
    let r := soloRd s t c q th (formOf i)
    let s0 := atIssue s t (formOf i)
    ∀ a, accessPeer s0 t c r f needStore (indexed f r) n a → btSetWaits s0 a.peer.1 a.peer.2.1 a.peer.2.2.1 = false →
      (answerOf s0 (.thread t) a (.read a.size) = .unasked → ∃ s', exec i s = .next s' ∧
        Wrote (toPeer { s0 with asks := s0.asks ++ [⟨.thread t, s0.nextId, a.peer.1, a.peer.2.1, a.peer.2.2.1, a.peer.2.2.2, .read a.size, none⟩] } a (.read a.size)
          (.ask (.thread t))) s' t {} th.pc [] .stalled (some .ask))
      ∧ (answerOf s0 (.thread t) a (.read a.size) = .open' → ∃ s', exec i s = .next s' ∧ Wrote s0 s' t {} th.pc [] .stalled (some .ask))
      ∧ (∀ k, answerOf s0 (.thread t) a (.read a.size) = .bad k → q.trap = .idle →
        ∃ s', exec i s = .next s' ∧ Stopped (issuedOnce s) s' t k (some (faultAddr (r.x64 f.a) (indexed f r))) 0)
/-- An instruction whose global access fails stops on the cause of its first failing check, the address in csr.taddr and the subcode in
csr.tinfo. -/
def GlobalTraps (i : Instr) (f : Mem) (need : Need) (off : Mem → Rd → Int) (n : Nat) : Prop :=
  ∀ s t c q th, Solo s t c q th (formOf i) → ((formOf i).uniform = true → Leads q th) → q.trap = .idle → t.cell ≠ 0 →
    let r := soloRd s t c q th (formOf i)
    ∀ k sub, checkRef (atIssue s t (formOf i)) c.ctx need (r.x64 f.a) (off f r) n = .bad k sub →
      ∃ s', exec i s = .next s' ∧ Stopped (issuedOnce s) s' t k (some (faultAddr (r.x64 f.a) (off f r))) sub

end Sys2Proof.Claims

/-- R214, R215, R219: loads and stores of the cell's scratch. -/
def Obligations.ScratchAccess : Prop := ∀ f : Mem,
  InLane (.lds f) (fun t _ _ _ r s does => scratchOk f r (accessBytes f) →
      does s (loaded f.d (f.fn.getLsbD 3) (scratchRead s t.cell (scratchAt f r).toNat (accessBytes f))) .unit .next)
  ∧ InLane (.sts f) (fun t _ _ _ r s does => scratchOk f r (accessBytes f) →
      does (scratchWrite s t.cell (scratchAt f r).toNat (storeBytes r f.c (accessBytes f))) {} .unit .next)
  ∧ InLane (.ldw f) (fun t _ _ _ r s does => f.fn.getLsbD 1 = true → scratchOk f r (packetsBytes f) →
      does s (loadedPackets f.d (scratchRead s t.cell (scratchAt f r).toNat (packetsBytes f))) .unit .next)
  ∧ InLane (.stw f) (fun t _ _ _ r s does => f.fn.getLsbD 1 = true → scratchOk f r (packetsBytes f) →
      does (scratchWrite s t.cell (scratchAt f r).toNat (packetBytes r f.c (packetsBytes f))) {} .unit .next)
  ∧ ScratchTraps (.lds f) f (accessBytes f) ∧ ScratchTraps (.sts f) f (accessBytes f)
  ∧ (f.fn.getLsbD 1 = true → ScratchTraps (.ldw f) f (packetsBytes f) ∧ ScratchTraps (.stw f) f (packetsBytes f))

/-- R215, R219–R221, R440: global loads: the bytes that the access's class reads, in the registers of D; LD.consume and LD.imm set out for the home
under a fresh number, their registers pending. -/
def Sys2Proof.Claims.GlobalLoads : Prop := ∀ f : Mem,
  InLane (.ld f) (fun t c _ _ r s does => ∀ a,
      accessOk s t c r f (if f.opt = 0 then needLoad else needLoadImm) (indexed f r) (accessBytes f) a →
      let x := if r.addrTaint f = true then homeRead s (some t.cell) a else phasedReadBy r.s.free s t.cell a
      (f.opt = 0 → does x.2 (loaded f.d (f.fn.getLsbD 3) x.1) .unit .next)
      ∧ (f.opt ≠ 0 → ∃ n, does (onItsWayHome s t n a (.load f.d (f.fn.getLsbD 3) (decide (f.opt = 2) || r.tainted (formOf (.ld f))) (decide (f.opt = 2)))) {}
          (.late s.nextId) .next))
  ∧ InLane (.ldw f) (fun t c _ _ r s does => f.fn.getLsbD 1 = false → ∀ a, accessOk s t c r f needLoad (indexed f r) (packetsBytes f) a →
      let x := if r.addrTaint f = true then homeRead s (some t.cell) a else phasedReadBy r.s.free s t.cell a
      does x.2 (loadWrites f.d true false x.1) .unit .next)
  ∧ InStep (.uld f) (fun t c _ _ r s does => t.cell ≠ 0 → ∀ a, accessOk s t c r f needLoad (indexed f r) (accessBytes f) a →
      let x := phasedReadBy r.s.free s t.cell a
      does x.2 [(f.d.toNat - 0xC0, if f.fn.getLsbD 3 then BitVec.ofInt 64 ((BitVec.ofNat (8 * x.1.length) (leNat x.1)).toInt)
        else BitVec.ofNat 64 (leNat x.1))] none)
  ∧ GlobalTraps (.ld f) f (if f.opt = 0 then needLoad else needLoadImm) indexed (accessBytes f)
  ∧ (f.fn.getLsbD 1 = false → GlobalTraps (.ldw f) f needLoad indexed (packetsBytes f))
  ∧ GlobalTraps (.uld f) f needLoad indexed (accessBytes f)

/-- R215, R219–R221, R430, R440: global stores: into the cell's view, or on their way to the home for ST.imm. -/
def Sys2Proof.Claims.GlobalStores : Prop := ∀ f : Mem,
  InLane (.st f) (fun t c _ _ r s does => ∀ a,
      accessOk s t c r f (if f.opt = 0 then needStore else needStoreImm) (indexed f r) (accessBytes f) a →
      (f.opt = 0 → does (phasedWrite s t a (storeBytes r f.c (accessBytes f))) {} .unit .next)
      ∧ (f.opt ≠ 0 → ∃ n, does (onItsWayHome s t n a (.store (storeBytes r f.c (accessBytes f)))) {} (.late s.nextId) .next))
  ∧ InLane (.stw f) (fun t c _ _ r s does => f.fn.getLsbD 1 = false → ∀ a, accessOk s t c r f needStore (indexed f r) (packetsBytes f) a →
      does (phasedWrite s t a (packetBytes r f.c (packetsBytes f))) {} .unit .next)
  ∧ InStep (.ust f) (fun t c _ _ r s does => t.cell ≠ 0 → ∀ a, accessOk s t c r f needStore (indexed f r) (accessBytes f) a →
      does (phasedWrite s t a (leBytes (accessBytes f) (r.x64 (src f.c)).toNat)) [] none)
  ∧ GlobalTraps (.st f) f (if f.opt = 0 then needStore else needStoreImm) indexed (accessBytes f)
  ∧ (f.fn.getLsbD 1 = false → GlobalTraps (.stw f) f needStore indexed (packetsBytes f))
  ∧ GlobalTraps (.ust f) f needStore indexed (accessBytes f)

/-- R217, R430, R440: in a bundle of several threads each accesses on its own, in ascending lanes: where several store to a byte, the highest lane's
stands, and the loads are served by one choice of what the bytes may be; immediate accesses set out in that order as those of one issue. -/
def Sys2Proof.Claims.BundleAccesses : Prop := ∀ (f : Mem) (s : State) (b : List Tid),
  let on (i : Instr) (ok : Rd → Prop) (p : State → Prop) : Prop := (formOf i).uniform = false → Together s b (formOf i) →
    (∀ t ∈ b, ∀ r, rdIn s b (formOf i) t = some r → ok r) → ∃ s', exec i s = .next s' ∧ p s'
  let reads (i : Instr) (t : Tid) (g : Rd → Prop) : Prop := ∀ r, rdIn s b (formOf i) t = some r → g r
  on (.lds f) (fun r => scratchOk f r (accessBytes f)) (fun s' => ∀ t ∈ b, reads (.lds f) t (fun r =>
      After (.lds f) s s' t (loaded f.d (f.fn.getLsbD 3) (scratchRead s t.cell (scratchAt f r).toNat (accessBytes f)))))
  ∧ on (.sts f) (fun r => scratchOk f r (accessBytes f)) (fun s' => ∀ id c, s.cell? id = some c → ∃ c', s'.cell? id = some c'
      ∧ c'.scratch = b.foldl (fun m t => match rdIn s b (formOf (.sts f)) t with
        | some r => if t.cell = id then memWriteL m (scratchAt f r).toNat (storeBytes r f.c (accessBytes f)) else m
        | none => m) c.scratch)
  ∧ on (.ld f) (fun r => f.opt = 0 ∧ r.addrTaint f = false ∧ ∃ a, accessOk (issuedOnce s) r.t r.c r f needLoad (indexed f r) (accessBytes f) a)
      (fun s' => ∀ t ∈ b, reads (.ld f) t (fun r => ∀ a, accessOk (issuedOnce s) t r.c r f needLoad (indexed f r) (accessBytes f) a →
        After (.ld f) s s' t (loaded f.d (f.fn.getLsbD 3) (phasedReadBy (issuedOnce s).free (issuedOnce s) t.cell a).1)))
  ∧ on (.st f) (fun r => f.opt = 0 ∧ ∃ a, accessOk (issuedOnce s) r.t r.c r f needStore (indexed f r) (accessBytes f) a)
      (fun s' => ∀ id, (s'.cell? id).map (·.view) = ((b.foldl (fun u t => match rdIn s b (formOf (.st f)) t with
        | some r => match checkRef (issuedOnce s) r.c.ctx needStore (r.x64 f.a) (indexed f r) (accessBytes f) with
          | .ok a => phasedWrite u t a (storeBytes r f.c (accessBytes f))
          | _ => u
        | none => u) (issuedOnce s)).cell? id).map (·.view))
  ∧ on (.ld f) (fun r => f.opt ≠ 0 ∧ ∃ a, accessOk (issuedOnce s) r.t r.c r f needLoadImm (indexed f r) (accessBytes f) a)
      (fun s' => ∃ l, s'.late = s.late ++ l ∧ l.map (·.t) = b ∧ ∀ e ∈ l, e.issue = s.issued + 1 ∧ reads (.ld f) e.t (fun r =>
        checkRef (issuedOnce s) r.c.ctx needLoadImm (r.x64 f.a) (indexed f r) (accessBytes f) = .ok e.access
        ∧ e.use = .load f.d (f.fn.getLsbD 3) (decide (f.opt = 2) || r.tainted (formOf (.ld f))) (decide (f.opt = 2))))
  ∧ on (.st f) (fun r => f.opt ≠ 0 ∧ ∃ a, accessOk (issuedOnce s) r.t r.c r f needStoreImm (indexed f r) (accessBytes f) a)
      (fun s' => s'.mem = s.mem ∧ ∃ l, s'.late = s.late ++ l ∧ l.map (·.t) = b ∧ ∀ e ∈ l, e.issue = s.issued + 1 ∧ reads (.st f) e.t (fun r =>
        checkRef (issuedOnce s) r.c.ctx needStoreImm (r.x64 f.a) (indexed f r) (accessBytes f) = .ok e.access
        ∧ e.use = .store (storeBytes r f.c (accessBytes f))))

/-- R217, R218, R220, R429, R440, R443: an immediate access whose delay is over is performed at its home, whatever accesses of its thread to other
blocks set out before it, and with it those of its bundle that share a block, in the order in which they set out (log entry 143): a load's
registers take the bytes that the home gives, and it retires; a store's bytes are written there. An access to a block of one that is on its way
waits, as does one by a tainted address behind a LD.consume. -/
def Sys2Proof.Claims.ImmediateAccesses : Prop :=
  (∀ (s : State) (e : LateAccess), s.late.find? (LateAccess.dueFor e.t) = some e → ∃ g : List LateAccess,
      exec (.longLatencyRetire e.t) s = .next (g.foldl performOne { s with late := s.late.filter (fun x => !g.contains x) })
      ∧ g.Sublist s.late ∧ e ∈ g ∧ (∀ x ∈ g, x.issue = e.issue)
      ∧ ∀ x ∈ s.late, x.issue = e.issue → (∃ y ∈ g, ∃ b ∈ y.access.blocks, b ∈ x.access.blocks) → x ∈ g)
  ∧ (∀ (s : State) (e : LateAccess) (th : Thread) (d : Code) (signed taint consume : Bool), e.use = .load d signed taint consume →
      s.thread? e.t = some th → th.state ≠ .exited →
      let s' := performOne s e
      let w := loaded d signed (homeRead s (some e.t.cell) e.access).1
      s'.mem = s.mem ∧ s'.hostMem = s.hostMem ∧ (∀ u, u ≠ e.t → s'.thread? u = s.thread? u)
        ∧ ∃ th', s'.thread? e.t = some th' ∧ th' = { th.written w with taint := th'.taint, board := th'.board }
          ∧ th'.taint = w.v.foldl (fun l x => l.set x.1 taint) th.taint
          ∧ (∀ o ∈ th'.board, o.awaits ≠ .late e.id) ∧ ∀ o ∈ th.board, o.awaits ≠ .late e.id → (o.window ≠ 0 ∨ o.awaits ≠ .done) → o ∈ th'.board)
  ∧ (∀ (s : State) (e : LateAccess) (data : List Byte), e.use = .store data → performOne s e = immWrite s e.t e.access data)
  ∧ (∀ (f : Mem) (i : Instr), i = .ld f ∨ i = .st f → ∀ s t c q th, Solo s t c q th (formOf i) → (∀ x ∈ s.asks, x.who ≠ .thread t) →
      let r := soloRd s t c q th (formOf i)
      let s0 := atIssue s t (formOf i)
      let need := if i = .ld f then (if f.opt = 0 then needLoad else needLoadImm) else if f.opt = 0 then needStore else needStoreImm
      ∀ a, checkRef s0 c.ctx need (r.x64 f.a) (indexed f r) (accessBytes f) = .ok a → behindOwn s0 t r f a →
        ∃ s', exec i s = .next s' ∧ Wrote s0 s' t {} th.pc [] .stalled none)

/-- R406, R414: loads and stores of a peer's buffer. A load and an immediate store send their request under a fresh number and hold the thread
for the answer, a load's registers pending; a phased store that the peer has answered for enters the cell's view; it stalls until then, and stops where the peer refuses it. -/
def Sys2Proof.Claims.RemoteAccesses : Prop := ∀ f : Mem,
  InLane (.ld f) (fun t c _ _ r s does => ∀ a,
      accessPeer s t c r f (if f.opt = 0 then needLoad else needLoadImm) (indexed f r) (accessBytes f) a →
      does (toPeer s a (.read a.size) (.load t (faultAddr (r.x64 f.a) (indexed f r)) f.d a.size (f.fn.getLsbD 3) false
        (decide (f.opt = 2) || r.tainted (formOf (.ld f))) [])) {} (.remote s.nextId) (.hold (.remote s.nextId)))
  ∧ InLane (.ldw f) (fun t c _ _ r s does => f.fn.getLsbD 1 = false → ∀ a, accessPeer s t c r f needLoad (indexed f r) (packetsBytes f) a →
      does (toPeer s a (.read a.size) (.load t (faultAddr (r.x64 f.a) (indexed f r)) f.d a.size false true (r.tainted (formOf (.ldw f))) [])) {}
        (.remote s.nextId) (.hold (.remote s.nextId)))
  ∧ (∀ s t c q th, (formOf (.uld f)).uniform = true → Solo s t c q th (formOf (.uld f)) → Leads q th → t.cell ≠ 0 →
      let r := soloRd s t c q th (formOf (.uld f))
      let s0 := atIssue s t (formOf (.uld f))
      ∀ a, accessPeer s0 t c r f needLoad (indexed f r) (accessBytes f) a → ∃ s', exec (.uld f) s = .next s' ∧
        Wrote (dropAsks (toPeer s0 a (.read (accessBytes f)) (.uload t (faultAddr (r.x64 f.a) (indexed f r)) (f.d.toNat - 0xC0) (accessBytes f)
          (f.fn.getLsbD 3))) (.thread t)) s' t {} th.pc (boardEntry true (formOf (.uld f)).writes (formOf (.uld f)).la (.remote s0.nextId)) .stalled
          (some (.remote s0.nextId)))
  ∧ InLane (.st f) (fun t c _ _ r s does => ∀ a,
      accessPeer s t c r f (if f.opt = 0 then needStore else needStoreImm) (indexed f r) (accessBytes f) a →
      let data := storeBytes r f.c (accessBytes f)
      (f.opt ≠ 0 → does (toPeer s a (.write data) (.store (some t) (faultAddr (r.x64 f.a) (indexed f r)) t.cell [])) {} (.remote s.nextId)
        (.hold (.remote s.nextId)))
      ∧ (f.opt = 0 → ∀ b, answerOf s (.thread t) a (.read a.size) = .data b → does (phasedWrite s t a data) {} .unit .next))
  ∧ InLane (.stw f) (fun t c _ _ r s does => f.fn.getLsbD 1 = false → ∀ a, accessPeer s t c r f needStore (indexed f r) (packetsBytes f) a →
      ∀ b, answerOf s (.thread t) a (.read a.size) = .data b → does (phasedWrite s t a (packetBytes r f.c (packetsBytes f))) {} .unit .next)
  ∧ InStep (.ust f) (fun t c _ _ r s does => t.cell ≠ 0 → ∀ a, accessPeer s t c r f needStore (indexed f r) (accessBytes f) a →
      ∀ b, answerOf s (.thread t) a (.read a.size) = .data b →
        does (phasedWrite s t a (leBytes (accessBytes f) (r.x64 (src f.c)).toNat)) [] none)
  ∧ (f.opt = 0 → StoreAsks (.st f) f (accessBytes f)) ∧ (f.fn.getLsbD 1 = false → StoreAsks (.stw f) f (packetsBytes f))
  ∧ StoreAsks (.ust f) f (accessBytes f)

namespace Sys2Proof.Claims

/-- The locations an access touches, one storage byte each, none twice. -/
def spots (a : Access) : List Loc := a.store.map (·.2)

end Sys2Proof.Claims

/-- What the named memory operations do to bytes (R219, R430, R428), through raw views: a phased store fills the cell's view at the bytes stored
and leaves every byte of every memory; a store at the home puts the bytes there, and every other byte of device memory reads as before; an immediate
store takes out of the view the bytes that its own thread had left there (log entry 10). R437, R439: a
phased read gives the cell's unpublished byte, the home's, or one of a value published earlier that neither the core's L1 nor, of a word homed elsewhere,
its sector's replica has dropped; none is left after an acquire of die scope or wider, nor where no word read has been written since; and a write
at the home keeps the value that it replaces. -/
def Sys2Proof.Claims.AccessBytes : Prop :=
  (∀ (s : State) (t : Tid) (c : Cell) (a : Access) (data : List Byte), s.cell? t.cell = some c → a.view = .raw → (spots a).Nodup →
    (∀ l ∈ spots a, l.plain = l) → data.length = a.store.length →
    let s' := phasedWrite s t a data
    s'.mem = s.mem ∧ s'.hostMem = s.hostMem ∧ s'.brine = s.brine ∧ (∀ id, id ≠ t.cell → s'.cell? id = s.cell? id)
      ∧ ∃ c', s'.cell? t.cell = some c' ∧ { c' with view := c.view, marks := c.marks } = c
        ∧ (∀ (i : Nat) (l : Loc) (b : Byte), (spots a)[i]? = some l → data[i]? = some b → viewByte c'.view l = some b)
        ∧ (∀ l, l ∉ spots a → viewByte c'.view l = viewByte c.view l))
  ∧ (∀ (s : State) (cell : Option Nat) (a : Access) (data : List Byte), Memory.wf s.mem = true → a.view = .raw → (spots a).Nodup →
    data.length = a.store.length → (∀ l ∈ spots a, ∃ pa, l = .dev pa) →
    let s' := homeWrite s cell a data
    (∀ (i pa : Nat) (b : Byte), (spots a)[i]? = some (.dev pa) → data[i]? = some b → memRead s'.mem pa = b)
      ∧ (∀ pa : Nat, .dev pa ∉ spots a → memRead s'.mem pa = memRead s.mem pa) ∧ s'.hostMem = s.hostMem ∧ s'.brine = s.brine)
  ∧ (∀ (s : State) (t : Tid) (c : Cell) (a : Access) (data : List Byte), s.cell? t.cell = some c → a.view = .raw →
    ∃ c', (immWrite s t a data).cell? t.cell = some c' ∧ { c' with view := c.view, marks := c.marks } = c
      ∧ ∀ l, viewByte c'.view l = if l ∈ spots a ∧ (∃ m ∈ c.marks, m.loc = l ∧ m.t = t) then none else viewByte c.view l)
  ∧ (∀ (s : State) (cell : Nat) (c : Cell) (a : Access), s.cell? cell = some c → a.view = .raw → a.size = a.store.length →
    let atHome := (spots a).map (fun l => (viewByte c.view l).getD (readLoc s l))
    (homeRead s (some cell) a).1 = atHome ∧ ((∀ l ∈ spots a, ∀ k ∈ s.oldWords, k.word ≠ l.key / 4) → (phasedRead s cell a).1 = atHome)
      ∧ (∀ scope, 4 ≤ scope → (phasedRead (acquireAt s c.core scope) cell a).1 = atHome)
      ∧ (∀ (i : Nat) (l : Loc), (spots a)[i]? = some l → ∃ b, (phasedRead s cell a).1[i]? = some b ∧ (∀ x, viewByte c.view l = some x → b = x)
          ∧ (viewByte c.view l = none → b = readLoc s l ∨ ∃ o ∈ s.oldWords, o.word = l.key / 4 ∧ b = o.value.extractLsb' (8 * (l.key % 4)) 8
              ∧ (l1Of s c.core l ∉ o.gone ∨ (homeSlice l / 8 ≠ c.core / 24 ∧ replicaOf c.core ∉ o.gone))))
      ∧ (phasedRead s cell a).2.mem = s.mem ∧ (phasedRead s cell a).2.cells = s.cells)
  ∧ (∀ (s : State) (pa : Nat) (b : Byte), let t := writeHome s [(.dev pa, b)]
    homeWord t (.dev pa) ≠ homeWord s (.dev pa) → ∃ o ∈ t.oldWords, o.word = pa / 4 ∧ o.value = homeWord s (.dev pa) ∧ o.gone = [])
  ∧ (∀ (s : State) (cell : Nat) (c : Cell) (off x : Nat) (data : List Byte), s.cell? cell = some c → Memory.wf c.scratch = true →
    ∃ c', (scratchWrite s cell off data).cell? cell = some c' ∧ { c' with scratch := c.scratch } = c
      ∧ memRead c'.scratch x = (if off ≤ x ∧ x < off + data.length then data.getD (x - off) 0 else memRead c.scratch x))

/-- R432–R434: publication of one cell: its unpublished bytes of device memory stand at their homes, every other byte of device memory is as it
was, and its view is empty. -/
def Sys2Proof.Claims.Publication : Prop := ∀ (s : State) (cell : Nat) (c : Cell), s.cell? cell = some c → Memory.wf s.mem = true →
  (∀ x ∈ c.view, ∃ pa, x.1 = .dev pa) →
  (∀ pa, memRead (publish s [cell]).mem pa = (viewByte c.view (.dev pa)).getD (memRead s.mem pa))
  ∧ (publish s [cell]).hostMem = s.hostMem
  ∧ ∃ c', (publish s [cell]).cell? cell = some c' ∧ c'.view = [] ∧ c'.marks = [] ∧ c'.scratch = c.scratch

/-- R222, R223, R240, R241: PREF, which never stops and at most marks its page ACCESSED (R395), FENCE, MONARM and MONWAIT. -/
def Sys2Proof.Claims.PrefetchFenceMonitor : Prop := ∀ f : Mem,
  InLane (.pref f) (fun _ c _ _ r s does => match checkRef s c.ctx needLoad (r.x64 f.a) (indexed f r) 1 with
      | .ok a => does (markPages s false a.pages) {} .unit .next
      | _ => does s {} .unit .next)
  ∧ InLane (.fence f) (fun t c _ _ _ s does =>
      let scope := f.opt.toNat / 2 % 8
      let s1 := if f.fn.getLsbD 1 then releaseAt s t.cell scope else s
      accessesOpen s t = false → (f.fn.getLsbD 1 = true → releaseWaits s t.cell scope = none) →
      (f.fn.getLsbD 1 = true → 2 ≤ scope → publishedOpen s1 t.cell = false) →
      does (if f.fn.getLsbD 0 then acquireAt s1 c.core scope else s1) {} .unit .next)
  ∧ InLane (.monarm f) (fun t c _ _ r s does => ∀ a, accessOk s t c r f needMonitor (indexed f r) 1 a →
      let s1 := markPages s false a.pages
      if monitorsUsed s c.core t < 64 then
        does (s1.modThread t (fun th => { th with mon := some ⟨a.blocks.headD 0, a.pages, false, 0, 0, false⟩ })) (writeV f.d 1) .unit .next
      else does s1 (writeV f.d 0) .unit .next)
  ∧ InLane (.monwait f) (fun t _ _ th r s does =>
      (th.mon = none → does s (writeV f.d 2) .unit .next)
      ∧ (∀ m, th.mon = some m → m.fired = true → does (s.modThread t (fun th => { th with mon := none })) (writeV f.d 1) .unit .next)
      ∧ (∀ m, th.mon = some m → m.fired = false → m.ended = true → does (s.modThread t (fun th => { th with mon := none })) (writeV f.d 3) .unit .next)
      ∧ (∀ m, th.mon = some m → m.fired = false → m.ended = false → r.x32 (src f.c) = 0 →
          does (s.modThread t (fun th => { th with mon := none })) (writeV f.d 0) .unit .next)
      ∧ (∀ m, th.mon = some m → m.fired = false → m.ended = false → r.x32 (src f.c) ≠ 0 →
          does (s.modThread t (fun th => { th with mon := some { m with since := s.clk, timeout := (r.x32 (src f.c)).toNat } })) {} .done
            (.wait (.monitor f.d (r.tainted (formOf (.monwait f)))))))
  ∧ GlobalTraps (.monarm f) f needMonitor indexed 1

/-! ## Control -/

namespace Sys2Proof.Claims

/-- A branch goes to its target, with the link written, and raises REF_BOUNDS at itself where the target lies outside the code offsets. -/
def Branches (i : Instr) (target : Rd → Int) (link : Rd → Writes) : Prop :=
  InLane i (fun _ _ _ _ r s does => 0 ≤ target r → target r ≤ 2 ^ 32 - 4 →
    does s (link r) .unit (.jump (BitVec.ofInt 32 (target r))))
  ∧ RaisesWhen i (fun r => target r < 0 ∨ 2 ^ 32 - 4 < target r) .refBounds (fun r => some (r.th.pc.setWidth 64)) 0
def noLink (_ : Rd) : Writes := {}
/-- The offset of the next instruction, written to a lane register unless D is z (R117). -/
def linkTo (d : Code) (n : Nat) (r : Rd) : Writes := if isV d then { v := [(d.toNat, r.th.pc + BitVec.ofNat 32 n)] } else {}

end Sys2Proof.Claims

/-- R61, R66, R116, R117: branches and calls by their target, links and bounds; RET goes to its register. -/
def Sys2Proof.Claims.Branching : Prop :=
  (∀ f : BaseBranch, Branches (.braBase f) (fun r => (r.th.pc.toNat : Int) + 4 * f.off.toInt) noLink
    ∧ Branches (.callBase f) (fun r => (r.th.pc.toNat : Int) + 4 * f.off.toInt) (linkTo 190 4))
  ∧ (∀ f : Branch, Branches (.bra f) (fun r => (r.th.pc.toNat : Int) + f.off.toInt) noLink
    ∧ Branches (.brx f) (fun r => ((r.x32 (src f.a)).toNat : Int) + f.off.toInt) noLink
    ∧ Branches (.call f) (fun r => (r.th.pc.toNat : Int) + f.off.toInt) (linkTo f.d (if f.lit.isSome then 20 else 12))
    ∧ Branches (.callx f) (fun r => ((r.x32 (src f.a)).toNat : Int) + f.off.toInt) (linkTo f.d (if f.lit.isSome then 20 else 12)))
  ∧ (∀ a : Code, InLane (.retBase a) (fun _ _ _ _ r s does => does s {} .unit (.jump (r.x32 (src a)))))
  ∧ (∀ f : Ext, InLane (.ret f) (fun _ _ _ _ r s does => does s {} .unit (.jump (r.x32 f.a))))
  ∧ Gives .nop (fun _ => {})

namespace Sys2Proof.Claims

/-- Thread t ends (R90, R119): its registers stay, its queue entries, wait and monitor go; the squad retires with its last thread; and the
memories of the package stay as they are. -/
def Ends (i : Instr) : Prop := ∀ s t c q th, (formOf i).uniform = false → Solo s t c q th (formOf i) →
  ∃ s', exec i s = .next s' ∧ (q.sync = none → q.hsync = none → q.trap = .idle →
      s'.mem = s.mem ∧ s'.hostMem = s.hostMem ∧ s'.contexts = s.contexts ∧ s'.queues = s.queues
      ∧ ∃ q' th', s'.squad? t.cell t.squad = some q' ∧ q'.threads[t.lane]? = some th' ∧ q'.k = q.k ∧ (∀ l, l ≠ t.lane →
        (q'.threads[l]?).map (fun x => (x.v, x.p, x.w)) = (q.threads[l]?).map (fun x => (x.v, x.p, x.w)))
      ∧ th'.state = .exited ∧ th'.v = th.v ∧ th'.p = th.p ∧ th'.w = th.w ∧ th'.queues = List.replicate 16 [] ∧ th'.mon = none ∧ th'.wait = none
      ∧ q'.state = (if ∀ l, l < q.threads.length → l ≠ t.lane → (q.threads[l]?).map (·.state) = some .exited then .retired else q.state))

end Sys2Proof.Claims

/-- R73, R119: EXIT, in both its forms. -/
def Sys2Proof.Claims.Exit : Prop := Ends .exitBase ∧ ∀ f : Ext, Ends (.exit f)

/-- R339: YIELD zeroes what is dead by its live counts, and yields the thread while a pre-emption is requested; R361: TRAP and BRK stop the thread,
which is to go on after them, with IMM16 in the info's bits 31:16. -/
def Sys2Proof.Claims.YieldTrapBreak : Prop := ∀ f : Ext,
  InLane (.yield f) (fun t c _ th r s does =>
      let nv := f.imm.toNat % 2 ^ 8
      let nw := f.imm.toNat / 2 ^ 8 % 2 ^ 7
      nv ≤ th.v.length → nw ≤ th.w.length →
      does (s.modThread t (fun th => { th with liveV := nv, liveW := nw }))
        { v := (((List.range th.v.length).drop nv).filter (fun n => r.q.bound n = 0)).map (fun n => (n, 0)),
          w := ((List.range th.w.length).drop nw).map (fun n => (n, List.replicate 8 0)), taint := some false }
        .unit (if c.preq then .yielded else .next))
  ∧ RaisesWhen (.trap f) (fun _ => True) .trapSoft (fun r => some (r.th.pc.setWidth 64)) (f.imm.toNat * 2 ^ 16) (formOf (.trap f)).len
  ∧ RaisesWhen (.brk f) (fun _ => True) .breakpoint (fun r => some (r.th.pc.setWidth 64)) (f.imm.toNat * 2 ^ 16) (formOf (.brk f)).len

/-- R362: TRET in the handler waits for the squad's other live threads; with the last of them, all leave the handler, once the instructions at
the return points that they need have been fetched. -/
def Sys2Proof.Claims.TrapReturn : Prop :=
  (∀ f : Ext, InLane (.tret f) (fun t _ q _ r s does => q.trap = .active →
      let w : Wait := .tret f.fn.toNat (if f.fn = 2 then r.x32 f.a else 0)
      (∀ l other, l ≠ t.lane → q.threads[l]? = some other → other.state ≠ .exited → other.atTret = false → does s {} .unit (.wait w))))
  ∧ (∀ (f : Ext) (s : State) (t : Tid) (c : Cell) (q : Squad) (th : Thread), Solo s t c q th (formOf (.tret f)) → q.trap = .active →
      (∀ l other, l ≠ t.lane → q.threads[l]? = some other → other.state = .exited ∨ other.atTret = true) →
      ∃ s1 w q1, Wrote (dropAsks (atIssue s t (formOf (.tret f))) (.thread t)) s1 t {} th.pc [] .waiting (some w) ∧ s1.squad? t.cell t.squad = some q1
        ∧ exec (.tret f) s = .next (match lengthWaits s1 t.cell q1 (q1.threads.filter (fun x => x.state ≠ .exited)) with
          | some x => beginWait s1 (.cell t.cell) x
          | none => leaveHandler (dropAsks s1 (.cell t.cell)) t.cell t.squad (lengthAt s1 t.cell)))
  ∧ (∀ (s : State) (cell sq : Nat) (q : Squad) (len : Word → Nat), s.squad? cell sq = some q → q.tqueue.length ≤ 1 →
      ∃ q', (leaveHandler s cell sq len).squad? cell sq = some q' ∧ q'.tcause = 0 ∧ q'.tmask = 0 ∧ q'.tqueue = []
        ∧ (q.pendXp = 0 → q'.trap = .idle)
        ∧ (∀ (l : Nat) (th : Thread), q.threads[l]? = some th → th.state ≠ .exited → th.heldWait = none →
          ∃ th', q'.threads[l]? = some th' ∧ th'.inHandler = false ∧ th'.state = .ready ∧ th'.wait = none ∧ th'.v = th.v ∧ th'.p = th.p
            ∧ (th.wait = some (.tret 0 0) → th'.pc = th.ret)
            ∧ (∀ a, th.wait = some (.tret 1 a) → th'.pc = if q.tmask.getLsbD th.lane then th.ret + word (len th.ret) else th.ret)
            ∧ (∀ a, th.wait = some (.tret 2 a) → th'.pc = if q.tmask.getLsbD th.lane then a else th.ret)))

/-- R122, R123: CLK gives the clock, and PTPNOW a sample of the 1588 time within 20 ns, in lane registers or, as a uniform step, k registers. -/
def Sys2Proof.Claims.Time : Prop := ∀ f : Ext,
  InLane (.clk f) (fun _ _ _ _ _ s does => does s (writeInt f.d (decide (f.fn = 0)) false s.clk) .unit .next)
  ∧ InStep (.clk f) (fun _ _ _ _ _ s does =>
      does s [(f.d.toNat - 0xC0, if f.fn = 0 then BitVec.ofNat 64 s.clk else (BitVec.ofNat 32 s.clk).setWidth 64)] none)
  ∧ InLane (.ptpnow f) (fun _ _ _ _ _ s does => 0 ≤ (s.clk : Int) + s.ptpOffset → ∃ ns : Nat,
      (s.clk : Int) + s.ptpOffset - 20 ≤ ns ∧ (ns : Int) ≤ s.clk + s.ptpOffset + 20
      ∧ does s { v := [(f.d.toNat, (BitVec.ofNat 48 (ns / 10 ^ 9)).extractLsb' 0 32),
          (f.d.toNat + 1, ((BitVec.ofNat 48 (ns / 10 ^ 9)).extractLsb' 32 16).setWidth 32), (f.d.toNat + 2, BitVec.ofNat 32 (ns % 10 ^ 9))] } .unit .next)
  ∧ InStep (.ptpnow f) (fun _ _ _ _ _ s does => 0 ≤ (s.clk : Int) + s.ptpOffset → ∃ ns : Nat,
      (s.clk : Int) + s.ptpOffset - 20 ≤ ns ∧ (ns : Int) ≤ s.clk + s.ptpOffset + 20
      ∧ does s [(f.d.toNat - 0xC0, (BitVec.ofNat 48 (ns / 10 ^ 9)).setWidth 64), (f.d.toNat - 0xC0 + 1, BitVec.ofNat 64 (ns % 10 ^ 9))] none)

namespace Sys2Proof.Claims

/-- The register that CSRR and CSRW name. -/
def csrOf (f : Ext) : Nat := f.imm.toNat % 4096
/-- The value CSRW leaves: A written, its bits set, or its bits cleared (R121). -/
def csrNew (f : Ext) (old a : Dword) : Dword := if f.fn = 0 then a else if f.fn = 1 then old ||| a else old &&& ~~~a

end Sys2Proof.Claims

/-- R98, R99, R120: CSRR reads the register named, bits 31:0 into a lane register and all 64 into a pair or k register; and where each register's
value stands. -/
def Sys2Proof.Claims.ControlRegisterReads : Prop :=
  (∀ f : Ext, InLane (.csrr f) (fun _ _ _ _ r s does =>
      does s (writeInt f.d (decide (f.fn = 1)) false (csrValue r s (csrOf f)).toNat) .unit .next)
    ∧ InStep (.csrr f) (fun _ _ _ _ r s does => does s [(f.d.toNat - 0xC0, csrValue r s (csrOf f))] none))
  ∧ (∀ (r : Rd) (s : State) (cell : Cell) (x : Context) (k : Core) (q : Squad), r.c.id ≠ 0 → s.cell? r.c.id = some cell → s.ctx? r.c.ctx = some x →
      s.core? r.c.core = some k → s.squad? r.t.cell r.t.squad = some q → r.q.ring = [] →
      csrValue r s 0x001 = q.fflags.setWidth 64 ∧ csrValue r s 0x002 = r.q.fptrap.setWidth 64 ∧ csrValue r s 0x010 = r.q.tcause.setWidth 64
      ∧ csrValue r s 0x011 = r.q.taddr ∧ csrValue r s 0x012 = r.q.tmask.setWidth 64 ∧ csrValue r s 0x013 = r.q.tinfo
      ∧ csrValue r s 0x020 = r.q.lrange ∧ csrValue r s 0x021 = r.q.cietab ∧ csrValue r s 0x030 = BitVec.ofNat 64 cell.phase
      ∧ csrValue r s 0x031 = BitVec.ofNat 64 cell.orphans ∧ csrValue r s 0x032 = BitVec.ofNat 64 cell.deadline
      ∧ csrValue r s 0x033 = (if cell.preq then 1 else 0) ∧ csrValue r s 0x040 = x.tvec.setWidth 64
      ∧ csrValue r s 0x041 = BitVec.ofNat 64 x.combwin ∧ csrValue r s 0x042 = BitVec.ofNat 64 x.batchto
      ∧ csrValue r s 0x043 = BitVec.ofNat 64 x.collisions ∧ csrValue r s 0x050 = BitVec.ofNat 64 k.mxidle
      ∧ csrValue r s 0x051 = BitVec.ofNat 64 k.rescorr ∧ csrValue r s 0x060 = BitVec.ofNat 64 s.reserve
      ∧ csrValue r s 0x061 = BitVec.ofNat 64 s.errdrop
      ∧ (r.c.core < 144 → r.q.partition < 4 → csrValue r s 0x062 = BitVec.ofNat 64 (r.c.core + 2 ^ 8 * r.q.partition))
      ∧ (s.stepping < 256 → csrValue r s 0x800 = BitVec.ofNat 64 (0x0009 + 2 ^ 16 * s.stepping + 2 ^ 24 * 3))
      ∧ csrValue r s 0x801 = BitVec.ofNat 64 (2 + 2 ^ 8 * 3 + 2 ^ 16 * 4 + 2 ^ 24 * 6 + 2 ^ 32 * 4 + 2 ^ 40 * 32)
      ∧ csrValue r s 0x802 = BitVec.ofNat 64 (192 + 2 ^ 8 * 64 + 2 ^ 16 * 60 + 2 ^ 32 * 32768)
      ∧ csrValue r s 0x803 = BitVec.ofNat 64 (768 + 2 ^ 16 * 512 + 2 ^ 32 * 128 + 2 ^ 48 * 8192)
      ∧ csrValue r s 0x804 = BitVec.ofNat 64 (32 + 2 ^ 8 * 64 + 2 ^ 16 * 8 + 2 ^ 24 * 128 + 2 ^ 32 * 384 + 2 ^ 48 * 16)
      ∧ csrValue r s 0x805 = 96 ∧ csrValue r s 0x806 = BitVec.ofNat 64 (64 + 2 ^ 8 * 64 + 2 ^ 16 * 4 + 2 ^ 24 * 256)
      ∧ csrValue r s 0x807 = 1000 ∧ csrValue r s 0x80B = BitVec.ofNat 64 (12 + 2 ^ 8 * 64)
      ∧ (∀ n i, n < 3 → i < 64 → (csrValue r s (0x808 + n)).getLsbD i = (decide (64 * n + i < 144) && s.coremask.getLsbD (64 * n + i))))

/-- R98, R121: CSRW writes, sets or clears the bits of a squad register as one uniform step, whose ring entry keeps the value replaced, except of
csr.fflags. -/
def Sys2Proof.Claims.ControlRegisterWrites : Prop := ∀ f : Ext, InStep (.csrw f) (fun t _ q _ r s does =>
  let new (g : Squad → Squad) : State := s.modSquad t.cell t.squad g
  let a := r.x64 f.a
  (csrOf f = 0x001 → does (new (fun q => { q with fflags := (csrNew f (q.fflags.setWidth 64) a).setWidth 6 })) [] none)
  ∧ (csrOf f = 0x002 → does (new (fun q => { q with fptrap := (csrNew f (q.fptrap.setWidth 64) a).setWidth 6 })) [] (some (0x002, q.fptrap.setWidth 64)))
  ∧ (csrOf f = 0x010 → does (new (fun q => { q with tcause := (csrNew f (q.tcause.setWidth 64) a).setWidth 8 })) [] (some (0x010, q.tcause.setWidth 64)))
  ∧ (csrOf f = 0x011 → does (new (fun q => { q with taddr := csrNew f q.taddr a })) [] (some (0x011, q.taddr)))
  ∧ (csrOf f = 0x012 → does (new (fun q => { q with tmask := (csrNew f (q.tmask.setWidth 64) a).setWidth 32 })) [] (some (0x012, q.tmask.setWidth 64)))
  ∧ (csrOf f = 0x020 → does (new (fun q => { q with lrange := csrNew f q.lrange a })) [] (some (0x020, q.lrange)))
  ∧ (csrOf f = 0x021 → does (new (fun q => { q with cietab := csrNew f q.cietab a })) [] (some (0x021, q.cietab))))

/-! ## The barrier -/

namespace Sys2Proof.Claims

/-- Slot n of the cell is x, and the thread's operand A names it (R372). -/
def names (c : Cell) (r : Rd) (f : Ext) (n : Nat) (x : Slot) : Prop := (r.x32 f.a).toNat = n ∧ n < 64 ∧ c.slots[n]? = some x

end Sys2Proof.Claims

/-- R377, R378, R384: BARINIT arms a slot with a new generation, and BARARV, once the thread's earlier accesses have been performed, arrives with its
bytes, giving the phase's parity, or is held at a COMPLETING slot with its generation; with their traps. -/
def Sys2Proof.Claims.BarrierArrivals : Prop := ∀ f : Ext,
  InLane (.barinit f) (fun t c _ _ r s does => ∀ n x, names c r f n x →
      let b := (r.x32 f.b).toNat
      b ≠ 0 → b < 2 ^ 16 → x.state ≠ .completing → x.waitmap = [] → x.xwait = [] → x.pending = 0 →
      does ((modSlot s t.cell n (fun x => { x with
          expect := b, arrived := 0, pending := 0, gen := x.gen + 1, maxtix := 0x7FF, lasttix := 0x7FF, state := .armed,
          pbit := if x.state = .armed then x.pbit else false })).modCell t.cell (fun c => { c with orphans := c.orphans + x.arrived })) {} .unit .next)
  ∧ InLane (.bararv f) (fun t c _ _ r s does => ∀ n x, names c r f n x → accessesOpen s t = false →
      let bytes : Nat := if f.fn = 0 then 0 else if f.fn = 1 then (if isK f.b.code ∨ f.b.code = cLit then (r.x64 f.b).toNat else (r.x32 f.b).toNat)
        else (r.vreg f.b 1 ++ r.vreg f.b 0).toNat
      (x.state = .armed → x.arrived ≠ x.expect → (-2 ^ 47 : Int) ≤ x.pending + bytes → x.pending + bytes ≤ 2 ^ 47 - 1 →
        does (modSlot s t.cell n (fun x => x.arrive (some (32 * t.squad + t.lane)) bytes)) (writeP f.d x.pbit) .unit .next)
      ∧ (x.state = .completing → does (modSlot s t.cell n (fun x => { x with held := x.held ++ [.arrive (32 * t.squad + t.lane) bytes x.gen] })) {} .unit
          (.wait (.held n f.d.toNat))))
  ∧ RaisesWhen (.barinit f) (fun r => ∀ n x, ¬ names r.c r f n x) .barState (fun r => some (r.th.pc.setWidth 64)) 1
  ∧ RaisesWhen (.bararv f) (fun r => ∃ n x, names r.c r f n x ∧ x.state = .free) .barState (fun r => some (r.th.pc.setWidth 64)) 2

/-- R379–R382: BARWAIT and BARTEST by the token they hold, BARINV, and BARQRY's two words. -/
def Sys2Proof.Claims.BarrierWaits : Prop := ∀ f : Ext,
  InLane (.barwait f) (fun t c _ _ r s does => ∀ n x, names c r f n x → x.state ≠ .free →
      let last : Bool := decide (f.fn = 1) && !c.strict
      let token := r.th.pred f.b.code.toNat
      (x.pbit ≠ token → does (s.modThread t (fun th => { th with release := .slot n x.completed })) { p := [(f.d.toNat, decide (32 * t.squad + t.lane = if last then x.tlast else x.closer)), (f.c.code.toNat, true)] } .unit .next)
      ∧ (x.pbit = token → does (modSlot s t.cell n (fun x => { x with waitmap := x.waitmap.filter (· ≠ 32 * t.squad + t.lane) ++ [32 * t.squad + t.lane] })) {} .unit
          (.wait (.slot n token f.d.toNat f.c.code.toNat false last))))
  ∧ InLane (.bartest f) (fun t c _ _ r s does => ∀ n x, names c r f n x → x.state ≠ .free →
      let token := r.th.pred f.b.code.toNat
      (c.strict = false → does s (writeP f.d (xor x.pbit token)) .unit .next)
      ∧ (x.pbit ≠ token → c.strict = true → does (s.modThread t (fun th => { th with release := .slot n x.completed })) (writeP f.d true) .unit .next)
      ∧ (x.pbit = token → c.strict = true → does (modSlot s t.cell n (fun x => { x with waitmap := x.waitmap.filter (· ≠ 32 * t.squad + t.lane) ++ [32 * t.squad + t.lane] })) {} .unit
          (.wait (.slot n token f.d.toNat f.d.toNat true false))))
  ∧ InLane (.barinv f) (fun t c _ _ r s does => ∀ n x, names c r f n x →
      (x.state = .free → does s {} .unit .next)
      ∧ (x.state = .armed → does (modSlot (wakeWaiters s t.cell n true) t.cell n (fun x =>
          { x with gen := x.gen + 1, arrived := 0, pending := 0, expect := 0, state := .free })) {} .unit .next)
      ∧ (x.state = .completing → does (modSlot s t.cell n (fun x => { x with held := x.held ++ [.inv (32 * t.squad + t.lane)] })) {} .unit
          (.wait (.held n 0))))
  ∧ InLane (.barqry f) (fun _ c _ _ r s does => ∀ n x, names c r f n x →
      does s (writeV f.d (if f.fn = 0 then
          BitVec.ofNat 32 ((match x.state with | .free => 0 | .armed => 1 | .completing => 2) + 4 * x.pbit.toNat + x.gen.toNat * 2 ^ 8
            + x.arrived % 2 ^ 16 * 2 ^ 16)
        else BitVec.ofInt 32 (min (max x.pending (-2 ^ 31)) (2 ^ 31 - 1)))) .unit .next)

/-- R374, R378: a slot's phase completes when all expected arrivals and bytes are in: PBIT toggles, CLOSER and TLAST are captured and ARRIVED and the
thread indices start anew; else the arrival alone is counted. -/
def Sys2Proof.Claims.SlotCompletion : Prop := ∀ (x : Slot) (tix : Nat) (bytes : Int), x.state = .armed → x.arrived < x.expect →
  let y := x.arrive (some tix) bytes
  let top := if x.maxtix = 0x7FF then tix else max x.maxtix tix
  (x.arrived + 1 = x.expect → x.pending + bytes = 0 →
    y = { x with state := .completing, pbit := !x.pbit, closer := top, tlast := tix, arrived := 0, pending := 0, maxtix := 0x7FF, lasttix := 0x7FF,
                 completed := x.completed + 1 })
  ∧ (x.arrived + 1 ≠ x.expect ∨ x.pending + bytes ≠ 0 →
    y = { x with arrived := x.arrived + 1, pending := x.pending + bytes, maxtix := top, lasttix := tix })

/-- R385, R386: SYNC by a thread alone in its mask goes on at once, and one whose mask names live lanes that are still to come opens its record
and waits; a mask without its own lane raises MASK_DISAGREE; PHASE waits for its gang. -/
def Sys2Proof.Claims.SyncAndPhase : Prop := ∀ f : Ext,
  InLane (.sync f) (fun t _ q th r s does => q.sync = none → (q.trap = .active → th.inHandler = false) →
      (r.x32 f.a = 1#32 <<< t.lane → does ((s.modThread t (fun th => { th with release := .sync s.issued })).modSquad t.cell t.squad (fun q => { q with sync := none })) {}
        .unit .next)
      ∧ ((r.x32 f.a).getLsbD t.lane = true → r.x32 f.a ≠ 1#32 <<< t.lane →
          (∀ l, (r.x32 f.a).getLsbD l = true → ∃ o, q.threads[l]? = some o ∧ o.state ≠ .exited) →
          does (s.modSquad t.cell t.squad (fun q => { q with sync := some ⟨r.x32 f.a, 1#32 <<< t.lane⟩ })) {} .unit (.wait (.sync []))))
  ∧ (∀ s t c q th, Solo s t c q th (formOf (.sync f)) → (formOf (.sync f)).uniform = false → q.trap = .idle → q.sync = none →
      let r := soloRd s t c q th (formOf (.sync f))
      (r.x32 f.a).getLsbD t.lane = false →
      ∃ s', exec (.sync f) s = .next s' ∧ Stopped (issuedOnce s) s' t .maskDisagree (some (th.pc.setWidth 64)) 2)
  ∧ InLane (.phase f) (fun _ _ _ _ _ s does => does s {} .unit (.wait (.phase f.d.toNat)))

/-! ## Atomics -/

namespace Sys2Proof.Claims

/-- Bytes of an atomic's location, and its operand registers as one or two words (R224, R225). -/
def atomWide (f : Mem) : Bool := f.opt.getLsbD 0
def atomScope (f : Mem) : Nat := f.opt.toNat / 2 % 8
def atomSize (f : Mem) : Nat := if atomWide f then 8 else 4
def casWord (f : Mem) (r : Rd) (i : Nat) : Dword :=
  if atomWide f then r.vreg (src f.c) (2 * i + 1) ++ r.vreg (src f.c) (2 * i) else (r.vreg (src f.c) i).setWidth 64
def atomOperand (f : Mem) (r : Rd) : Dword := if atomWide f then r.x64 (src f.c) else (r.x32 (src f.c)).setWidth 64

/-- An atomic of a relaxed kernel, or of a scope that strict kernels do not order by turns, sets out for its home under a fresh number (R224–R231):
a CAS and a floating addition go there directly, any other may combine on the way. One for a peer's buffer holds its thread for the answer (R414). -/
def SendsAtomic (i : Instr) (f : Mem) (op : Nat) (cas : Rd → Option (Dword × Dword)) (operand : Rd → Dword) (d : Option Code)
    (legal : Cell → Prop) : Prop :=
  InLane i (fun t c q _ r s does => legal c → ∀ a, (accessOk s t c r f needAtomic (indexed f r) (atomSize f) a ∨ accessPeer s t c r f needAtomic (indexed f r) (atomSize f) a) →
    ∀ l, (a.store.head?).map (·.2) = some l →
    (∀ p ∈ s.replies, p.loc = l → t ∉ p.tree.tids) →
    let direct : Bool := (cas r).isSome || decide (op = 9)
    let req : AtomReq := {
      id := s.nextId, ctx := c.ctx, op := op, wide := atomWide f, loc := l, cas := cas r, operand := operand r, key := orderKey s t c q,
      path := if direct then [] else pathFrom c.core l, since := s.clk, pages := a.pages,
      tree := .leaf s.nextId (.thread t d (faultAddr (r.x64 f.a) (indexed f r)) (r.tainted (formOf i)) []) (operand r) }
    does (arriveReq { s with nextId := s.nextId + 1 } req) {} (if a.isRemote then .remote s.nextId else .atomic s.nextId)
      (if a.isRemote then .hold (.remote s.nextId) else .next))

/-- The address checks of an atomic of a relaxed kernel (R215, R216). -/
def AtomTraps (i : Instr) (f : Mem) : Prop := ∀ s t c q th, Solo s t c q th (formOf i) → (formOf i).uniform = false → q.trap = .idle →
  c.strict = false →
  let r := soloRd s t c q th (formOf i)
  ∀ k sub, checkRef (atIssue s t (formOf i)) c.ctx needAtomic (r.x64 f.a) (indexed f r) (atomSize f) = .bad k sub →
    ∃ s', exec i s = .next s' ∧ Stopped (issuedOnce s) s' t k (some (faultAddr (r.x64 f.a) (indexed f r))) sub

end Sys2Proof.Claims

/-- R224, R225, R229, R230: ATOM, CAS and RED set out for the home of their location; a strict kernel refuses those of class N. -/
def Sys2Proof.Claims.AtomicsSetOut : Prop := ∀ f : Mem,
  SendsAtomic (.atom f) f f.fn.toNat (fun _ => none) (atomOperand f) (some f.d) (fun c => c.strict = false)
  ∧ SendsAtomic (.cas f) f f.fn.toNat (fun r => some (casWord f r 0, casWord f r 1)) (fun _ => 0) (some f.d) (fun c => c.strict = false)
  ∧ SendsAtomic (.red f) f f.fn.toNat (fun _ => none) (atomOperand f) none
      (fun c => c.strict = false ∨ (f.fn ≠ 9 ∧ f.fn ≠ 8))
  ∧ AtomTraps (.atom f) f ∧ AtomTraps (.cas f) f ∧ AtomTraps (.red f) f
  ∧ RaisesWhen (.atom f) (fun r => r.c.strict = true ∧ 1 < atomScope f) .detViolation (fun r => some (r.th.pc.setWidth 64)) 2
  ∧ RaisesWhen (.cas f) (fun r => r.c.strict = true ∧ 1 < atomScope f) .detViolation (fun r => some (r.th.pc.setWidth 64)) 2

/-- R224–R226: the new value of each operation at W bits, and an operation performed at its home: the old value is its reply, the location holds
the new one, and a CAS that compares unequal leaves the location. -/
def Sys2Proof.Claims.AtomicOperations : Prop :=
  (∀ (wide : Bool) (old c : Dword),
    let m : Dword := if wide then 0xFFFFFFFFFFFFFFFF else 0xFFFFFFFF
    let sx (x : Dword) : Int := if wide then x.toInt else (x.extractLsb' 0 32).toInt
    atomNew 0 wide old c = (old + c) &&& m ∧ atomNew 1 wide old c = (old &&& c) &&& m ∧ atomNew 2 wide old c = (old ||| c) &&& m
      ∧ atomNew 3 wide old c = (old ^^^ c) &&& m
      ∧ atomNew 4 wide old c = (if sx old ≤ sx c then old else c) &&& m ∧ atomNew 5 wide old c = (if sx c ≤ sx old then old else c) &&& m
      ∧ atomNew 6 wide old c = (if (old &&& m) ≤ (c &&& m) then old else c) &&& m
      ∧ atomNew 7 wide old c = (if (c &&& m) ≤ (old &&& m) then old else c) &&& m ∧ atomNew 8 wide old c = c &&& m)
  ∧ (∀ (s : State) (op : Nat) (wide : Bool) (pa : Nat) (c : Dword) (cores : List Nat), Memory.wf s.mem = true →
    let n := if wide then 8 else 4
    let old := BitVec.ofNat 64 (leNat (memReadN s.mem pa n))
    let x := performAt s op wide (.dev pa) none c [] cores
    x.1 = old ∧ memReadN x.2.mem pa n = leBytes n (atomNew op wide old c).toNat
      ∧ (∀ y, y < pa ∨ pa + n ≤ y → memRead x.2.mem y = memRead s.mem y))
  ∧ (∀ (s : State) (wide : Bool) (pa : Nat) (cmp new : Dword) (cores : List Nat), Memory.wf s.mem = true →
    let n := if wide then 8 else 4
    let old := BitVec.ofNat 64 (leNat (memReadN s.mem pa n))
    let x := performAt s 0 wide (.dev pa) (some (cmp, new)) 0 [] cores
    x.1 = old ∧ (old ≠ cmp → x.2.mem = s.mem) ∧ (old = cmp → memReadN x.2.mem pa n = leBytes n new.toNat))

/-- R230, R231: a request that has waited out its window at a point goes on to its next point; at its home it is performed and its reply sets out;
a reply is split at each combining point, the higher half receiving the value after the lower's operand, and writes the thread's registers at the
end. -/
def Sys2Proof.Claims.AtomicEvents : Prop :=
  (∀ (s : State) (q : AtomReq), s.reqs.find? (fun x => x.id == q.id) = some q →
    (q.path ≠ [] → windowOfPoint s q.ctx q.path ≤ s.clk - q.since → exec (.combineTimeout q.id) s = .next
      (arriveReq { s with reqs := s.reqs.filter (fun x => x.id ≠ q.id) } { q with path := q.path.drop 1, since := s.clk }))
    ∧ (q.path ≠ [] → s.clk - q.since < windowOfPoint s q.ctx q.path → exec (.combineTimeout q.id) s = .next s)
    ∧ (q.path = [] →
      let x := performAt { s with reqs := s.reqs.filter (fun y => y.id ≠ q.id) } q.op q.wide q.loc q.cas q.operand q.pages (treeCores s q.tree)
      exec (.atomicPerform q.id) s = .next { x.2 with replies := x.2.replies ++ [⟨q.id, q.op, q.wide, q.loc, x.1, q.tree⟩] }))
  ∧ (∀ (s : State) (p : AtomReply), s.replies.find? (fun x => x.id == p.id) = some p →
    (∀ at' a b, p.tree = .node at' a b → exec (.replySplit p.id) s = .next { s with
      nextId := s.nextId + 1,
      replies := s.replies.filter (fun x => x.id ≠ p.id) ++ [⟨p.id, p.op, p.wide, p.loc, p.value, a⟩,
        ⟨s.nextId, p.op, p.wide, p.loc, atomNew p.op p.wide p.value (a.combined p.op p.wide), b⟩] })
    ∧ (∀ id t d ref taint pops x th, p.tree = .leaf id (.thread t (some d) ref taint pops) x → s.thread? t = some th → th.state ≠ .exited →
        th.wait ≠ some (.remote id) → isV d = true →
      ∃ s' th', exec (.replySplit p.id) s = .next s' ∧ s'.thread? t = some th' ∧ s'.mem = s.mem ∧ th'.pc = th.pc ∧ th'.p = th.p
        ∧ th'.v = (if p.wide then (th.v.set d.toNat (lo32 p.value)).set (d.toNat + 1) (hi32 p.value) else th.v.set d.toNat (lo32 p.value))))

/-- R232, R235: ATOMB's term sets out with its key, count and batch towards its location's home, through the combining points on the way, and its destination and guard predicate are pending; R238: FILMADD adds to the
compensated pair at the home. -/
def Sys2Proof.Claims.BatchTermsAndFilm : Prop := ∀ f : Mem,
  (∀ s t c q th, Solo s t c q th (formOf (.atomb f)) → (formOf (.atomb f)).uniform = false →
    let r := soloRd s t c q th (formOf (.atomb f))
    let s0 := atIssue s t (formOf (.atomb f))
    ∀ a l, accessOk s0 t c r f needHomeAtomic f.disp.toInt (atomSize f) a → (a.store.head?).map (·.2) = some l →
    let b := (r.x64 f.b).toNat
    let term : Term := {
      id := s.nextId, t := t, core := c.core, ctx := c.ctx, loc := l, batch := b % 2 ^ 16, key := b / 2 ^ 16 % 2 ^ 24, count := b / 2 ^ 40,
      fadd := decide (f.fn = 1), wide := atomWide f, value := atomOperand f r, d := f.d, p := f.g.p.toNat,
      taint := r.tainted (formOf (.atomb f)), pages := a.pages }
    let node := survivor 24 term.count 0 term.key
    let req : TermReq := {
      id := s.nextId, level := node.1, index := node.2, sum := term.value, terms := [term], path := pathFrom c.core l, since := s.clk, entries := [] }
    ∃ s', exec (.atomb f) s = .next s' ∧ Wrote (dropAsks (arriveTerm { s0 with nextId := s.nextId + 1 } req) (.thread t)) s' t {}
      (th.pc + word (formOf (.atomb f)).len) [⟨(formOf (.atomb f)).writes ++ [.p f.g.p.toNat], f.la.toNat, .batch⟩])
  ∧ InLane (.filmadd f) (fun t c _ _ r s does => ∀ a l, accessOk s t c r f needHomeAtomic (indexed f r) 8 a → (a.store.head?).map (·.2) = some l →
      (c.strict = true → ∀ o ∈ s.owners.find? (fun o => o.loc = l), o.t = t) →
      let v := (homeValue s l 8).toNat
      let y := filmAdd (v % 2 ^ 32) (v / 2 ^ 32) (r.x32 (src f.c)).toNat
      let s1 : State := if (s.owners.find? (fun o => o.loc = l)).isSome then s else { s with owners := s.owners ++ [⟨l, t, c.gang, a.pages⟩] }
      does (homePut s1 l 8 (BitVec.ofNat 64 (y.1 + 2 ^ 32 * y.2)) a.pages [c.core]) {} .unit .next)

/-! ## Textures and tables -/

namespace Sys2Proof.Claims

/-- The coordinates of operand B. -/
def coord (f : Ext) (r : Rd) (i : Nat) : Nat := (r.vreg f.b i).toNat
/-- A table computation of the thread answers x and leaves the package as s'. -/
def Looks {α : Type} (m : TabM α) (s : State) (x : α) (s' : State) : Prop := m s = .ok (x, s')
/-- A descriptor that breaks a rule of R163 raises TEX_DESC with its subcode. -/
def DescTraps (i : Instr) (f : Ext) : Prop := ∀ s t c q th, Solo s t c q th (formOf i) → (formOf i).uniform = false → q.trap = .idle →
  let r := soloRd s t c q th (formOf i)
  ∀ b s1 sub, Looks (tabRead r (r.refTaint f.a) (r.x64 f.a) 0 64 64) (atIssue s t (formOf i)) b s1 → parseTexture b = .error sub →
    ∃ s', exec i s = .next s' ∧ Stopped (issuedOnce s) s' t .texDesc (some (r.x64 f.a)) sub

end Sys2Proof.Claims

/-- R161–R171: the texture unit: eight filtered samples along λ, four filtered channels, four elements unfiltered (zero outside the texture), and
the spectrum of a colour's coefficients; with the trap of a bad descriptor. -/
def Sys2Proof.Claims.Textures : Prop := ∀ f : Ext,
  InLane (.samplew f) (fun _ _ _ _ r s does => ∀ tx s1, Looks (readTexture r (r.refTaint f.a) (r.x64 f.a)) s tx s1 → ∀ xs s2,
      Looks ((List.range 8).mapM (fun j =>
        let sl := rneMul (rneSub ((r.packet f.c 0).getD j 0).toNat tx.lambda0).1 tx.rdlambda
        filterTexture tx (coord f r 0) (coord f r 1) (coord f r 2) (coord f r 3) (fun m x y z =>
          lerpAxis (axisPos (tb tx.filter 3) (clampDy sl.1 (-(2 ^ 24)) (2 ^ 24))) (tx.amode / 64 % 4) tx.nl
            (fun l => readTexel r (r.refTaint f.a) tx m x y z l)))) s1 xs s2 →
      does s2 (writeW f.d (xs.map word)) .unit .next)
  ∧ InLane (.sample f) (fun _ _ _ _ r s does => ∀ tx s1, Looks (readTexture r (r.refTaint f.a) (r.x64 f.a)) s tx s1 → ∀ xs s2,
      Looks ((List.range 4).mapM (fun k => if k ≥ tx.nl then (pure 0 : TabM Nat) else
        filterTexture tx (coord f r 0) (coord f r 1) (coord f r 2) (coord f r 3) (fun m x y z => readTexel r (r.refTaint f.a) tx m x y z k))) s1 xs s2 →
      does s2 (writeVs f.d (xs.map word)) .unit .next)
  ∧ InLane (.texld f) (fun _ _ _ _ r s does => ∀ tx s1, Looks (readTexture r (r.refTaint f.a) (r.x64 f.a)) s tx s1 →
      let inside : Prop := coord f r 3 < tx.mips ∧ coord f r 2 < tx.layers ∧ coord f r 0 < tx.wAt (coord f r 3) ∧ coord f r 1 < tx.hAt (coord f r 3)
      (¬ inside → does s1 (writeVs f.d [0, 0, 0, 0]) .unit .next)
      ∧ (inside → ∀ xs s2, Looks ((List.range 4).mapM (fun k => if f.imm.toNat + k ≥ tx.nl then (pure 0 : TabM Nat)
          else readTexel r (r.refTaint f.a) tx (coord f r 3) (coord f r 0) (coord f r 1) (coord f r 2) (f.imm.toNat + k))) s1 xs s2 →
          does s2 (writeVs f.d (xs.map word)) .unit .next))
  ∧ InLane (.specup f) (fun _ _ _ _ r s does => ∀ hd s1, Looks (tabRead r (r.refTaint f.b) (r.x64 f.b) 0 64 64) s hd s1 →
      positiveF (byteField hd 4 4) = true → byteField hd 8 56 = 0 →
      let pos (i : Nat) : AxisPos := axisPos true (clampDy (rneMul (r.vreg f.a i).toNat 0x427C0000).1 0 63)
      let coef (k : Nat) : TabM Nat := lerpAxis (pos 2) 0 64 (fun ib => lerpAxis (pos 1) 0 64 (fun ig => lerpAxis (pos 0) 0 64 (fun ir => do
        let b ← tabRead r (r.refTaint f.b) (r.x64 f.b) (64 + 16 * ((ib * 64 + ig) * 64 + ir) + 4 * k : Nat) 4 4
        pure (leNat b))))
      ∀ c0 s2 c1 s3 c2 s4, Looks (coef 0) s1 c0 s2 → Looks (coef 1) s2 c1 s3 → Looks (coef 2) s3 c2 s4 →
        does s4 (writeW f.d ((List.range 8).map (fun j =>
          word (specEval c0 c1 c2 ((r.packet f.c 0).getD j 0).toNat (byteField hd 0 4) (byteField hd 4 4))))) .unit .next)
  ∧ DescTraps (.samplew f) f ∧ DescTraps (.sample f) f ∧ DescTraps (.texld f) f

/-- R159: WXYZ: the tristimulus sums of eight samples divided by their densities, against the colour-matching table that csr.cietab names. -/
def Sys2Proof.Claims.Tristimulus : Prop := ∀ f : Ext,
  InLane (.wxyz f) (fun _ _ q th r s does =>
    let ref := readOldCsr q th 0x021 q.cietab
    ∀ hd s1, Looks (tabRead r false ref 0 64 64) s hd s1 →
      let step := byteField hd 4 4
      let count := byteField hd 8 4
      positiveF step = true → 2 ≤ count → count ≤ 4096 → byteField hd 12 52 = 0 → ∀ cmf s2,
      Looks ((List.range 8).mapM (fun j => cmfAt r ref (byteField hd 0 4) step count ((r.packet f.c 0).getD j 0).toNat)) s1 cmf s2 →
      let weight (j : Nat) : Nat × Flags :=
        let b := ((r.packet f.b 0).getD j 0).toNat
        if finitePos b then fdivV fp32 (f32 ((r.packet f.a 0).getD j 0)) (Machine.unpack fp32 b) else (0, 0)
      let prod (k j : Nat) : Nat × Flags := rneMul (weight j).1 ((cmf.getD j ([], 0)).1.getD k 0)
      let sum (k : Nat) : Nat × Flags := latticeSum fp32 ((List.range 8).map (fun j => (prod k j).1))
      let mean (k : Nat) : Nat × Flags := rneMul (sum k).1 0x3E000000
      does s2 { writeVs f.d [word (mean 0).1, word (mean 1).1, word (mean 2).1] with
        flags := (List.range 8).foldl (fun b j => b ||| (cmf.getD j ([], 0)).2 ||| (weight j).2 ||| (prod 0 j).2 ||| (prod 1 j).2 ||| (prod 2 j).2)
          ((sum 0).2 ||| (mean 0).2 ||| (sum 1).2 ||| (mean 1).2 ||| (sum 2).2 ||| (mean 2).2) } .unit .next)

/-! ## Traversal -/

namespace Sys2Proof.Claims

/-- The traversal record at operand A: aligned, in scratch, and its contents (R177, R187). -/
def recordAt (f : Ext) (r : Rd) (s : State) (off : Nat) (x : TraceRec) : Prop :=
  (r.x32 f.a).toNat = off ∧ off % 128 = 0 ∧ off + 128 ≤ r.c.shape.scratch ∧ TraceRec.ofBytes (scratchRead s r.t.cell off 128) = x
/-- Where a record does not lie as R187 asks. -/
def RecordTraps (i : Instr) (f : Ext) : Prop :=
  RaisesWhen i (fun r => (r.x32 f.a).toNat % 128 ≠ 0) .misaligned (fun r => some ((r.x32 f.a).setWidth 64)) 0
  ∧ RaisesWhen i (fun r => (r.x32 f.a).toNat % 128 = 0 ∧ r.c.shape.scratch < (r.x32 f.a).toNat + 128) .scratchBounds
    (fun r => some ((r.x32 f.a).setWidth 64)) 0
/-- The steps that TRACE's limit leaves: IMM16's, or, where a save has stopped it at this instruction, those not yet made (R183, R188). -/
def stepsLeft (f : Ext) (r : Rd) : Nat := match r.th.traced with
  | some (pc, n) => if pc = r.th.pc then n else f.imm.toNat
  | none => f.imm.toNat
/-- A walk sets out from record x, of the thread's record at off: the thread is held at its instruction until the walk retires or stops (R183). -/
def Walks (i : Instr) (f : Ext) (r : Rd) (s : State) (off : Nat) (x : TraceRec) (limit : Nat) (does : State → Writes → Awaits → Go → Prop) : Prop :=
  does (s.modThread r.t (fun th => { th with walk := some ⟨off, x, 0, limit, f.d, r.tainted (formOf i), r.pops⟩, traced := none })) {} .walk (.hold .walk)
/-- Thread t is held by its walk w, and nothing keeps the traversal unit from going on with it. -/
def Walking (s : State) (t : Tid) (c : Cell) (q : Squad) (th : Thread) (w : Walk) : Prop :=
  s.cell? t.cell = some c ∧ c.squads[t.squad]? = some q ∧ q.threads[t.lane]? = some th ∧ t.lane < 32 ∧ th.walk = some w ∧ th.wait = some .walk
    ∧ th.state = .stalled ∧ c.resident = true ∧ ctxLive s c.ctx = true ∧ (∀ o ∈ th.board, o.awaits ≠ .unit) ∧ (∀ e ∈ s.late, LateAccess.dueFor t e = false)
    ∧ ∀ r ∈ q.collected, r.cause ≠ .machineCheck

end Sys2Proof.Claims

/-- R183–R187: TRACE sets out on the walk of a READY or RUNNING record and reports one that rests already; TRCONT answers a pending leaf and walks
on; TRGET reads the hit or the pending leaf; with the traps of the record's place. The unit goes on with a walk step by step; at rest, or at its
limit, the record is written back, D receives the status, and the thread goes on. -/
def Sys2Proof.Claims.TraceInstructions : Prop := (∀ f : Ext,
  InLane (.trace f) (fun _ _ _ _ r s does => ∀ off x, recordAt f r s off x → recCheck x false = none →
      (x.state = 0 → Walks (.trace f) f r s off { x with
        depth := 1, stack := x.stack.set 0 0x40000000, flags := x.flags % 64, hitt := 0x7F800000, hitid := 0, hitu := 0, hitv := 0,
        pendid := 0, state := 1 } (stepsLeft f r) does)
      ∧ (x.state = 1 → Walks (.trace f) f r s off x (stepsLeft f r) does)
      ∧ (2 ≤ x.state → does s (writeV f.d (if x.state = 2 then 2 else if x.flags.testBit 7 then 1 else 0)) .unit .next))
  ∧ InLane (.trcont f) (fun _ _ _ _ r s does => ∀ off x, recordAt f r s off x → recCheck x true = none →
      Walks (.trcont f) f r s off (contRecord x (decide (f.fn = 1)) (r.x32 f.b).toNat (if f.c.code = cZ then 0 else (r.vreg f.c 0).toNat)
        (if f.c.code = cZ then 0 else (r.vreg f.c 1).toNat)) f.imm.toNat does)
  ∧ InLane (.trget f) (fun _ _ _ _ r s does => ∀ off x, recordAt f r s off x →
      does s (writeVs f.d ((if f.fn = 0 then [x.hitt, x.hitid, x.hitu, x.hitv]
        else [x.pendid, if x.depth = 0 ∨ 16 < x.depth then 0 else x.stack.getD (x.depth - 1) 0, x.tmin, x.tmax]).map word)) .unit .next)
  ∧ RecordTraps (.trace f) f ∧ RecordTraps (.trcont f) f ∧ RecordTraps (.trget f) f)
  ∧ (∀ s t c q th w, Walking s t c q th w →
    ((w.record.state ≠ 1 ∨ (w.limit ≠ 0 ∧ w.limit ≤ w.steps)) →
      ∃ s' c' th', exec (.longLatencyRetire t) s = .next s' ∧ s'.cell? t.cell = some c' ∧ s'.thread? t = some th' ∧ s'.mem = s.mem
        ∧ ((scratchWrite s t.cell w.off w.record.toBytes).cell? t.cell).map (·.scratch) = some c'.scratch
        ∧ th'.walk = none ∧ th'.wait = none ∧ th'.state = .ready ∧ th'.pc = th.npc
        ∧ th'.v = (if isV w.dest then th.v.set w.dest.toNat
            (word (if w.record.state = 2 then 2 else if w.record.state = 1 then 3 else if w.record.flags.testBit 7 then 1 else 0)) else th.v))
    ∧ (w.record.state = 1 → (w.limit = 0 ∨ w.steps < w.limit) →
      ∀ x s1, traceStep ⟨s, t, th, q, c, none, [], [], []⟩ w.record s = .ok (.done x, s1) →
      exec (.longLatencyRetire t) s = .next ((dropAsks s1 (.thread t)).modThread t (fun th =>
        { th with walk := some { w with record := x, steps := w.steps + 1 } }))))

namespace Sys2Proof.Claims

/-- The ordered comparison of two FP32 values, false with a NaN (R181). -/
def leq (a b : FVal) : Prop := fltV a b = true ∨ feqV a b = true
/-- t of an axis's side of a box (R179), i = 0 for its minimum and 1 for its maximum; and as a lower and as an upper bound. -/
def boxTime (x : TraceRec) (box : List Nat) (a i : Nat) : FVal :=
  let u := (faddV fp32 (unpack fp32 (box.getD (3 * i + a) 0)) (fneg (unpack fp32 (x.org.getD a 0)))).1
  unpack fp32 (fmulV fp32 (unpack fp32 u) (unpack fp32 (transR .rcp (word (x.dir.getD a 0))).1)).1
def boxLow (x : TraceRec) (box : List Nat) (a i : Nat) : FVal := if isNaN (boxTime x box a i) then .inf true else boxTime x box a i
def boxHigh (x : TraceRec) (box : List Nat) (a i : Nat) : FVal := if isNaN (boxTime x box a i) then .inf false else boxTime x box a i
/-- A box whose minimum exceeds its maximum on an axis on which 1/DIR is finite. -/
def boxInverted (x : TraceRec) (box : List Nat) (a : Nat) : Prop :=
  finite32 (word (transR .rcp (word (x.dir.getD a 0))).1) ∧ fltV (unpack fp32 (box.getD (3 + a) 0)) (unpack fp32 (box.getD a 0)) = true
/-- x names the exact value v rounded once, and is finite (R180). -/
def Names (x : Nat) (v : ℚ) : Prop := finite32 (word x) ∧ RoundsTo x (v : ℝ)

end Sys2Proof.Claims

/-- R179: a box is hit exactly where TMIN and the lesser time of each axis are at most TMAX and the greater time of each axis, and it is inverted
on no axis of a finite 1/DIR (log entry 104); tnear is the greatest of the lower bounds. -/
def Sys2Proof.Claims.BoxTest : Prop := ∀ (x : TraceRec) (box : List Nat),
  let tmin := unpack fp32 x.tmin
  let tmax := unpack fp32 x.tmax
  let low := boxLow x box
  let high := boxHigh x box
  let near := unpack fp32 (boxTest x box).2
  isNaN tmin = false → isNaN tmax = false →
  ((boxTest x box).1 = true ↔ leq tmin tmax ∧ (∀ a < 3, ¬ boxInverted x box a) ∧ (∀ a < 3, ∃ i < 2, leq (low a i) tmax)
    ∧ (∀ b < 3, ∃ j < 2, leq tmin (high b j)) ∧ ∀ a < 3, ∀ b < 3, ∃ i < 2, ∃ j < 2, leq (low a i) (high b j))
  ∧ leq tmin near ∧ (∀ a < 3, ∃ i < 2, leq (low a i) near)
  ∧ (near = tmin ∨ ∃ a < 3, (near = low a 0 ∨ near = low a 1) ∧ leq near (low a 0) ∧ leq near (low a 1))

/-- R180: the triangle test, where every named quantity is finite: each is the exact value of its expression rounded once; a zero det, a culled
back, a sign against det or a t outside TMIN and TMAX misses, else t, u and v are the rounded quotients. A NaN anywhere misses. -/
def Sys2Proof.Claims.TriangleTest : Prop := ∀ (x : TraceRec) (vs : List Nat) (cull : Bool),
  let num (n : Nat) : ℚ := value32 (word n)
  let org (i : Nat) : Nat := x.org.getD (i % 3) 0
  let dir (i : Nat) : Nat := x.dir.getD (i % 3) 0
  let vert (k i : Nat) : Nat := vs.getD (3 * k + i) 0
  ((∃ i < 3, isNaN (unpack fp32 (org i)) = true ∨ isNaN (unpack fp32 (dir i)) = true ∨ ∃ k < 3, isNaN (unpack fp32 (vert k i)) = true) →
    triTest x vs cull = none)
  ∧ ∀ (e1 e2 s p q : Nat → Nat) (det un vn tn : Nat),
    (∀ i < 3, finite32 (word (org i)) ∧ finite32 (word (dir i)) ∧ ∀ k < 3, finite32 (word (vert k i))) →
    (∀ i < 3, Names (e1 i) (num (vert 1 i) - num (vert 0 i)) ∧ Names (e2 i) (num (vert 2 i) - num (vert 0 i))
      ∧ Names (s i) (num (org i) - num (vert 0 i))) →
    let dot (a b : Nat → Nat) : ℚ := num (a 0) * num (b 0) + num (a 1) * num (b 1) + num (a 2) * num (b 2)
    let cross (a b : Nat → Nat) (i : Nat) : ℚ := num (a ((i + 1) % 3)) * num (b ((i + 2) % 3)) - num (a ((i + 2) % 3)) * num (b ((i + 1) % 3))
    (∀ i < 3, Names (p i) (cross dir e2 i) ∧ Names (q i) (cross s e1 i)) →
    Names det (dot e1 p) → Names un (dot s p) → Names vn (dot dir q) → Names tn (dot e2 q) →
    let d := num det
    let sided (y : ℚ) : Prop := y = 0 ∨ (y < 0 ↔ d < 0)
    let inside : Prop := sided (num un) ∧ sided (num vn) ∧ sided (d - num un - num vn)
    (d = 0 → triTest x vs cull = none)
    ∧ (d < 0 → (x.cullBack = true ∨ cull = true) → triTest x vs cull = none)
    ∧ (d ≠ 0 → ¬ inside → triTest x vs cull = none)
    ∧ (d ≠ 0 → (0 < d ∨ (x.cullBack = false ∧ cull = false)) → inside →
      ∃ t u v, RoundsTo t ((num tn / d : ℚ) : ℝ) ∧ RoundsTo u ((num un / d : ℚ) : ℝ) ∧ RoundsTo v ((num vn / d : ℚ) : ℝ)
        ∧ ((leq (unpack fp32 x.tmin) (unpack fp32 t) ∧ fltV (unpack fp32 t) (unpack fp32 x.tmax) = true) → triTest x vs cull = some (t, u, v))
        ∧ (¬ (leq (unpack fp32 x.tmin) (unpack fp32 t) ∧ fltV (unpack fp32 t) (unpack fp32 x.tmax) = true) → triTest x vs cull = none))

/-- R175, R178: the step of a well-formed inner node pops its entry and pushes the children that are there, share a bit with RAYMASK and are hit,
by descending tnear and, at equal distances, descending slot; one that would go beyond 16 entries stops with subcode 6. -/
def Sys2Proof.Claims.NodeSteps : Prop := ∀ (x : TraceRec) (b : List Byte),
  let child (i : Nat) : Nat := byteField b (96 + 4 * i) 4
  let cull (i : Nat) : Nat := byteField b (116 + i) 1
  let test (i : Nat) : Bool × Nat := boxTest x ((List.range 6).map (fun j => byteField b (24 * i + 4 * j) 4))
  let hits := (List.range 4).filter (fun i => decide (child i ≠ 0) && decide (byteField b (112 + i) 1 &&& x.raymask ≠ 0) && (test i).1)
  let entry (i : Nat) : Nat := if wordType (child i) = 2 ∧ cull i = 1 then wordIndex (child i) else child i
  let nearer (i j : Nat) : Prop := fltV (unpack fp32 (test i).2) (unpack fp32 (test j).2) = true
  byteField b 120 8 = 0 → (∀ i < 4, cull i ≤ 1 ∧ childOk (child i) = true) → x.stack.length = 16 → 1 ≤ x.depth → x.depth ≤ 16 → x.state = 1 →
  isNaN (unpack fp32 x.tmin) = false →
  (16 < x.depth - 1 + hits.length → nodeStep x b = .bad 6)
  ∧ (x.depth - 1 + hits.length ≤ 16 → ∃ order : List Nat, order.Perm hits
      ∧ order.Pairwise (fun i j => nearer j i ∨ (¬ nearer i j ∧ j < i))
      ∧ nodeStep x b = .done { x with
          stack := x.stack.take (x.depth - 1) ++ order.map entry ++ x.stack.drop (x.depth - 1 + hits.length), depth := x.depth - 1 + hits.length,
          state := if x.depth - 1 + hits.length = 0 then 3 else 1 })

/-- R178–R187: the traversal instructions and their walk, the box and triangle tests, and the step of an inner node. -/
def Obligations.Traversal : Prop := Claims.TraceInstructions ∧ Claims.BoxTest ∧ Claims.TriangleTest ∧ Claims.NodeSteps

/-! ## The matrix array -/

namespace Sys2Proof.Claims

/-- An operation passes the checks of R208 in its cell and finds the array queue with room (R192). -/
def mxFits (s : State) (t : Tid) (c : Cell) (op : ArrayOp) : Prop :=
  (c.strict = true → mxOwned op % c.shape.squads = t.squad) ∧ mxScratch c op = none ∧ mxIssue c op = none
  ∧ ((s.core? c.core).map (fun k => k.array.length)).getD 0 < 16

/-- The operation enters its core's array queue, and the issue state of tiles and panels follows (R191, R192). -/
def Queues (i : Instr) (op : Tid → Cell → Squad → Rd → ArrayOp) : Prop :=
  InLane i (fun t c q _ r s does => mxFits s t c (op t c q r) → does (mxPush s t.cell (op t c q r)) {} .array .next)

/-- The scale registers of a grouped-integer MXM are lane registers of the budget (R202). -/
def MxmQueues (i : Instr) (f : Ext) (fmt : Nat) : Prop :=
  InLane i (fun t c q th r s does =>
    let regs := scaleRegs c fmt f
    let op : ArrayOp := .mxm fmt f.d.toNat f.b.code.toNat (r.x64 f.a).toNat (r.x64 f.c).toNat (f.imm.toNat % 32) (f.imm.getLsbD 5)
      (if regs = [] then [] else (List.range 32).map (laneScales q regs))
    (∀ n ∈ regs, n < 192 ∧ n < th.v.length) → mxFits s t c op → does (mxPush s t.cell op) {} .array .next)

/-- An operation on tiles or panels in the wrong state raises MATRIX_STATE with the subcode of R208. -/
def MxTraps (i : Instr) (op : Rd → ArrayOp) : Prop := ∀ s t c q th, Solo s t c q th (formOf i) → (formOf i).uniform = false → q.trap = .idle →
  c.strict = false → ∀ sub, mxScratch c (op (soloRd s t c q th (formOf i))) = none → mxIssue c (op (soloRd s t c q th (formOf i))) = some sub →
    ∃ s', exec i s = .next s' ∧ Stopped (issuedOnce s) s' t .matrixState (some (th.pc.setWidth 64)) sub

/-- Lane registers d, d + 1, … of the thread's lane, of a bundle of one. -/
def laneRow (q : Squad) (t : Tid) (a n : Nat) : List Word :=
  (List.range n).map (fun i => ((q.threads[t.lane]?).map (fun th => readVReg q th (a + i))).getD 0)

end Sys2Proof.Claims

/-- R192, R199–R209: the matrix instructions hand their operations to the array queue, with what they read at issue; MXQRY's immediate reads; and
the trap of a wrong state. -/
def Sys2Proof.Claims.MatrixIssue : Prop := ∀ f : Ext,
  Queues (.mxbld f) (fun _ _ _ r => .mxbld f.d.toNat (r.x64 f.a).toNat (r.x64 f.b).toNat (f.imm.toNat % 16) (f.imm.toNat / 16 % 4))
  ∧ MxmQueues (.mxmE4m3 f) f 0 ∧ MxmQueues (.mxmE5m2 f) f 1 ∧ MxmQueues (.mxmE2m1 f) f 2 ∧ MxmQueues (.mxmI8g f) f 3
  ∧ MxmQueues (.mxmI4g f) f 4 ∧ MxmQueues (.mxmBf16 f) f 5 ∧ MxmQueues (.mxmF16 f) f 6
  ∧ Queues (.mxmv f) (fun t _ q _ => .mxmv (if f.fn = 0 then 6 else if f.fn = 1 then 5 else 0) f.d.toNat f.b.code.toNat (f.imm.toNat % 8)
      [(t.lane, laneRow q t f.a.code.toNat (4 * (f.imm.toNat % 8)))])
  ∧ Queues (.mxz f) (fun _ _ _ _ => .mxz f.d.toNat (decide (f.fn = 1)))
  ∧ Queues (.mxrd f) (fun t _ _ _ => .mxrd f.fn.toNat f.a.code.toNat (f.imm.toNat % 64) (f.imm.toNat / 64 % 16) (f.imm.getLsbD 10) f.d.toNat [t])
  ∧ Queues (.mxwr f) (fun t _ q _ => .mxwr f.fn.toNat f.d.toNat (f.imm.toNat % 64) [(t.lane, laneRow q t f.a.code.toNat (f.imm.toNat / 64 % 16 + 1))])
  ∧ Queues (.mxst f) (fun _ _ _ r => .mxst f.fn.toNat f.a.code.toNat (r.x64 f.b).toNat (r.x64 f.c).toNat (f.imm.getLsbD 10))
  ∧ InLane (.mxqry f) (fun t c _ _ _ s does =>
      (f.fn = 0 → does s (writeV f.d (word (((s.core? c.core).map (·.awake.toNat)).getD 0
        + 16 * ((s.core? c.core).map (·.array.length)).getD 0))) .unit .next)
      ∧ (f.fn = 1 → mxFits s t c (.mxqry f.a.code.toNat f.d.toNat [t]) → does (mxPush s t.cell (.mxqry f.a.code.toNat f.d.toNat [t])) {} .array .next)
      ∧ (f.fn ≠ 0 → f.fn ≠ 1 → does s (writeV f.d (word ((if (c.panelAt f.a.code.toNat).loaded then 1 else 0)
          + 16 * (c.panelAt f.a.code.toNat).fmt + 256 * (c.panelAt f.a.code.toNat).gsz))) .unit .next))
  ∧ MxTraps (.mxmBf16 f) (fun r => .mxm 5 f.d.toNat f.b.code.toNat (r.x64 f.a).toNat (r.x64 f.c).toNat (f.imm.toNat % 32) (f.imm.getLsbD 5) [])
  ∧ MxTraps (.mxst f) (fun r => .mxst f.fn.toNat f.a.code.toNat (r.x64 f.b).toNat (r.x64 f.c).toNat (f.imm.getLsbD 10))

/-- R192, R194, R196: the array performs the first operation of its queue, one that uses scratch in two steps (log entry 107), and is gated once the clocks that csr.mxidle
held when its idle count began (R460) have passed without a product. MXZ leaves
its tile of zeros in its mode (R204). -/
def Sys2Proof.Claims.ArrayEvents : Prop :=
  (∀ (s : State) (k : Core) (e : ArrayEntry) (rest : List ArrayEntry), s.core? k.id = some k → k.array = e :: rest →
    let product : Bool := match e.op with
      | .mxm _ _ _ _ _ _ _ _ => true
      | .mxmv _ _ _ _ _ => true
      | _ => false
    ((e.op.scratchy = false ∨ e.begun = true) → exec (.arrayOpPerform k.id) s = .next (performOp (s.modCore k.id (fun k => { k with
      array := rest, awake := if product then 15 else k.awake, usedAt := if product then s.clk else k.usedAt,
      idleLimit := if product then k.mxidle else k.idleLimit })) e.cell e.op e.words))
    ∧ (∀ c, e.op.scratchy = true → e.begun = false → s.cell? e.cell = some c → (∀ x ∈ rest, x.id ≠ e.id) →
      ∃ t k' c' ws, exec (.arrayOpPerform k.id) s = .next t ∧ t.mem = s.mem ∧ t.core? k.id = some k' ∧ k'.array = { e with begun := true, words := ws } :: rest
        ∧ t.cell? e.cell = some c' ∧ c'.tiles = c.tiles ∧ c'.bank = c.bank ∧ ((∀ fn tile base pitch sat, e.op ≠ .mxst fn tile base pitch sat) → c'.scratch = c.scratch)))
  ∧ (∀ (s : State) (cell : Nat) (c : Cell) (tile : Nat) (mode : Bool), s.cell? cell = some c → tile < c.tiles.length →
    ∃ c', (performOp s cell (.mxz tile mode)).cell? cell = some c' ∧ c'.tiles[tile]? = some ⟨[], mode, 0⟩
      ∧ (∀ j, j ≠ tile → c'.tiles[j]? = c.tiles[j]?) ∧ c'.scratch = c.scratch)
  ∧ (∀ (s : State) (k : Core), s.core? k.id = some k → k.idleLimit ≠ 0 → k.idleLimit ≤ s.clk - k.usedAt →
    exec (.subarrayGate k.id) s = .next (s.modCore k.id (fun k => { k with awake := 0 })))

/-! ## The transfer processor -/

namespace Sys2Proof.Claims

/-- What holds of transfer word i in execution in context x of cell c: P is given the claim that it completes, leaving the package so. -/
def OnXp (i : Instr) (P : Xid → Cell → XpCtx → State → (State → Prop) → Prop) : Prop :=
  ∀ s x c p, s.cur = .xp x → s.cell? x.cell = some c → s.xp? x = some p → P x c p s (fun t => exec i s = .next t)
/-- The word sets x(D) to v, and the next word follows; x0 stays 0 (R245, R251). -/
def SetsX (i : Instr) (f : Xp) (v : XpCtx → Dword) : Prop := OnXp i (fun x _ p s goes =>
  goes (s.modXp x (fun q => { q with x := if f.d = 0 then q.x else q.x.set f.d.toNat (v p), xpc := q.xpc + 1 })))
def xa (f : Xp) (p : XpCtx) : Dword := if f.a = 0 then 0 else p.x.getD f.a.toNat 0
def xb (f : Xp) (p : XpCtx) : Dword := if f.b = 0 then 0 else p.x.getD f.b.toNat 0
/-- The following word. -/
def onward (x : Xid) (s : State) : State := s.modXp x (fun q => { q with xpc := q.xpc + 1 })
/-- A branch: taken to a word of the code, not taken to the next, or stopped with XP_PC (R252). -/
def BranchesX (i : Instr) (f : Xp) (cond : XpCtx → Prop) : Prop := OnXp i (fun x c p s goes =>
  let target : Int := p.xpc + f.imm.toInt
  (¬ cond p → goes (onward x s))
  ∧ (cond p → 0 ≤ target → target < codeWords s c → goes (s.modXp x (fun q => { q with xpc := target.toNat })))
  ∧ (cond p → target < 0 ∨ codeWords s c ≤ target → goes (xpStop s x 0x32 (faultAddr (mkRef (refIndex c.code) 0) (8 * target)))))
/-- The bytes at off of a cell's scratch are there and aligned (R215). -/
def inScratch (c : Cell) (off : Int) (n : Nat) : Prop := 0 ≤ off ∧ off + n ≤ c.shape.scratch ∧ off % n = 0
/-- A transfer processor's scratch address: x(A)'s low half and the displacement. -/
def xScratch (f : Xp) (base : Dword) : Int := ((lo32 base).toNat : Int) + f.imm.toInt
/-- A transfer processor's access to a buffer: allowed, mapped and on this package. -/
def xBuffer (s : State) (c : Cell) (need : Need) (f : Xp) (base : Dword) (n : Nat) (a : Access) : Prop :=
  checkBuffer s c.ctx need (refIndex base) ((refOff base : Int) + f.imm.toInt) n n = .ok a ∧ a.isRemote = false
def xBytes (f : Xp) : Nat := if f.fl.toNat % 4 = 2 then 8 else 4
def xInScratch (f : Xp) : Prop := f.fl.getLsbD 2 = true

end Sys2Proof.Claims

/-- R250, R251: the scalar transfer words. -/
def Obligations.TransferScalars : Prop := ∀ f : Xp,
  OnXp (.xnop f) (fun x _ _ s goes => goes (onward x s))
  ∧ SetsX (.xli f) f (fun p => if f.fl = 0 then BitVec.ofInt 64 f.imm.toInt
      else BitVec.ofNat 64 (f.imm.toNat * 2 ^ 32 + (if f.d = 0 then 0 else (p.x.getD f.d.toNat 0).toNat % 2 ^ 32)))
  ∧ SetsX (.xadd f) f (fun p => BitVec.ofNat 64 ((xa f p).toNat + (xb f p).toNat))
  ∧ SetsX (.xaddi f) f (fun p => BitVec.ofInt 64 ((xa f p).toInt + f.imm.toInt))
  ∧ SetsX (.xsub f) f (fun p => BitVec.ofInt 64 ((xa f p).toInt - (xb f p).toInt))
  ∧ SetsX (.xmul f) f (fun p => BitVec.ofNat 64 ((xa f p).toNat * (xb f p).toNat))
  ∧ SetsX (.xand f) f (fun p => xa f p &&& xb f p)
  ∧ SetsX (.xior f) f (fun p => xa f p ||| xb f p)
  ∧ SetsX (.xxor f) f (fun p => xa f p ^^^ xb f p)
  ∧ SetsX (.xshl f) f (fun p => BitVec.ofNat 64 ((xa f p).toNat * 2 ^ ((xb f p).toNat % 64)))
  ∧ SetsX (.xshr f) f (fun p => if f.fl = 0 then BitVec.ofNat 64 ((xa f p).toNat / 2 ^ ((xb f p).toNat % 64))
      else BitVec.ofInt 64 ((xa f p).toInt / 2 ^ ((xb f p).toNat % 64)))

/-- R252, R253, R266, R267: branches, loops, XTRAP and XEXIT of the transfer processor; and a stop leaves the context STOPPED at its word. -/
def Obligations.TransferControl : Prop := (∀ f : Xp,
  BranchesX (.xb f) f (fun _ => True)
  ∧ BranchesX (.xbeq f) f (fun p => xa f p = xb f p)
  ∧ BranchesX (.xbne f) f (fun p => xa f p ≠ xb f p)
  ∧ BranchesX (.xblt f) f (fun p => if f.fl = 0 then (xa f p).toInt < (xb f p).toInt else (xa f p).toNat < (xb f p).toNat)
  ∧ BranchesX (.xbge f) f (fun p => ¬ (if f.fl = 0 then (xa f p).toInt < (xb f p).toInt else (xa f p).toNat < (xb f p).toNat))
  ∧ OnXp (.xloop f) (fun x c p s goes =>
      let target : Int := p.xpc + f.imm.toInt
      (xa f p = 0 → 0 ≤ target → target < 2 ^ 32 → goes (s.modXp x (fun q => { q with xpc := target.toNat + 1 })))
      ∧ (xa f p ≠ 0 → 4 ≤ p.loops.length → goes (xpStop s x 0x31 0))
      ∧ (xa f p ≠ 0 → p.loops.length < 4 → 0 ≤ target → ∀ a b, codeBytes s (.xp x) c.kernel c.ctx c.code (8 * target.toNat) 8 = (.ok a, b) →
          let s1 := markFetch s c.ctx c.code (8 * target.toNat) 8
          (b.getD 0 0 = 0x11 → goes (s1.modXp x (fun q => { q with loops := ⟨xa f p, p.xpc + 1, target.toNat⟩ :: q.loops, xpc := q.xpc + 1 })))
          ∧ (b.getD 0 0 ≠ 0x11 → goes (xpStop s1 x 0x31 (faultAddr (mkRef (refIndex c.code) 0) (8 * target))))))
  ∧ OnXp (.xlend f) (fun x _ p s goes =>
      (p.loops = [] → goes (xpStop s x 0x31 0))
      ∧ (∀ l rest, p.loops = l :: rest →
          (l.count = 1 → goes (s.modXp x (fun q => { q with loops := rest, xpc := q.xpc + 1 })))
          ∧ (l.count ≠ 1 → goes (s.modXp x (fun q => { q with loops := { l with count := l.count - 1 } :: rest, xpc := l.start })))))
  ∧ OnXp (.xtrap f) (fun x _ p s goes => goes (xpStopAt s x 0x20 0 p.xpc f.imm.toNat))
  ∧ OnXp (.xexit f) (fun x c p s goes =>
      (p.pendmx = [] → (∀ q ∈ c.squads, ∀ th ∈ q.threads, th.state ≠ .stalled) →
        goes (s.modXp x (fun q => { q with state := .exited, exiting := false, waitOn := .none })))
      ∧ (p.pendmx = [] → ∃ t, goes t ∧ t.xp? x = some { p with state := .exited, exiting := false, waitOn := .none })
      ∧ (p.pendmx ≠ [] → ∃ t, goes t ∧ t.xp? x = some { p with exiting := true })))
  ∧ (∀ (s : State) (x : Xid) (c : Cell) (p : XpCtx) (code pc low : Nat) (addr : Dword), s.cell? x.cell = some c → s.xp? x = some p →
      (∀ k, s.kernel? c.kernel = some k → k.xpOnly = false) →
      (xpStopAt s x code addr pc low).xp? x = some { p with state := .stopped, code := code, waitOn := .none })

/-- R254: XLD, XST and XSTAMP on scratch and on buffers of this package, of bytes that none of the context's transfers still touches. -/
def Sys2Proof.Claims.TransferMemory : Prop := ∀ f : Xp,
  OnXp (.xld f) (fun x c p s goes =>
    let n := xBytes f
    let value (b : List Byte) : Dword := if f.fl.toNat % 4 = 1 then BitVec.ofInt 64 (BitVec.ofNat 32 (leNat b)).toInt else BitVec.ofNat 64 (leNat b)
    let loads (s1 : State) (b : List Byte) : State :=
      s1.modXp x (fun q => { q with x := if f.d = 0 then q.x else q.x.set f.d.toNat (value b), xpc := q.xpc + 1 })
    (xInScratch f → inScratch c (xScratch f (xa f p)) n →
      xpConflict c x false (placeKeys (.scratch c.id (xScratch f (xa f p)).toNat n)) = false →
      goes (loads s (scratchRead s c.id (xScratch f (xa f p)).toNat n)))
    ∧ (¬ xInScratch f → ∀ a, xBuffer s c needLoad f (xa f p) n a → xpConflict c x false (placeKeys (.glob a)) = false →
      goes (loads (phasedRead s x.cell a).2 (phasedRead s x.cell a).1))
    ∧ (xInScratch f → xScratch f (xa f p) < 0 ∨ (c.shape.scratch : Int) < xScratch f (xa f p) + n →
      goes (xpStop s x 0x0F (BitVec.ofInt 64 (xScratch f (xa f p))))))
  ∧ OnXp (.xst f) (fun x c p s goes =>
    let n := xBytes f
    let data := leBytes n (xb f p).toNat
    (xInScratch f → inScratch c (xScratch f (xa f p)) n →
      xpConflict c x true (placeKeys (.scratch c.id (xScratch f (xa f p)).toNat n)) = false →
      goes (onward x (scratchWrite s c.id (xScratch f (xa f p)).toNat data)))
    ∧ (¬ xInScratch f → ∀ a, xBuffer s c needStore f (xa f p) n a → xpConflict c x true (placeKeys (.glob a)) = false →
      goes (onward x (homeWrite s (some x.cell) a data))))
  ∧ OnXp (.xstamp f) (fun x c p s goes =>
    let data := leBytes 8 (xa f p).toNat
    (∀ r ∈ c.runs, r.ctx ≠ x.ctx) →
    (xInScratch f → inScratch c (xScratch f (xb f p)) 8 → goes (onward x (scratchWrite s c.id (xScratch f (xb f p)).toNat data)))
    ∧ (¬ xInScratch f → ∀ a, xBuffer s c needStoreImm f (xb f p) 8 a → goes (onward x (homeWrite s (some x.cell) a data))))

namespace Sys2Proof.Claims

/-- The generator n elements on. -/
def steps (n : Nat) (g : Gen) : Gen := (fun g => g.advance 1)^[n] g
/-- Data words (R256–R261) where every element's places pass and the engine has room for each: n elements enter runs in order, each run in one
block on each side, the generators go on, and the next word follows, or is awaited while elements are at a peer. For XGATH no element writes an index still to be read. The source generator of XGATH stays, but where it is the destination's as well. -/
def Moves (i : Instr) (f : Xp) (total : XpCtx → Nat) (m : State → XpCtx → Cell → Option Move) (sizes : Gen → Gen → Prop) : Prop :=
  OnXp i (fun x c p s goes =>
    let sg := p.gens.getD f.sg.toNat Gen.empty
    let dg := p.gens.getD f.dg.toNat Gen.empty
    let n := total p
    (n = 0 → goes (onward x s))
    ∧ (n ≠ 0 → (sg.valid = false ∨ dg.valid = false ∨ ¬ sizes sg dg) → goes (xpStop s x 0x33 0))
    ∧ ∀ w els, n ≠ 0 → p.rem = 0 → sg.valid = true → dg.valid = true → sizes sg dg → m s p c = some w → f.d = 0 →
      runsOn s c.core + n ≤ 64 → els.length = n →
      let src (e : Nat) : Gen := match w with
        | .gather _ => if f.sg = f.dg then steps e sg else sg
        | _ => steps e sg
      (∀ (e : Nat) (el : RunElem), els[e]? = some el → moveElem s c x w (src e) (steps e dg) e = .ok el) →
      (∀ list, w = .gather list → ∀ (e : Nat) (ip : Place), e < n → globPlace s c needLoad list ((4 * e : Nat) : Int) 4 4 = .ok ip →
        xpConflict c x false (placeKeys ip) = false ∧ ∀ el ∈ els.take e, ∀ d ∈ el.dst, overlaps (placeKeys d) (placeKeys ip) = false) →
      let s1 := readIndices s c x w (List.range n)
      let far : Bool := els.any RunElem.remote || c.runs.any (fun y => y.ctx = x.ctx && y.at'.any (fun a => a.pc = p.xpc) && y.elems.any RunElem.remote)
      ∃ t runs xps, goes t ∧ { t with cells := s.cells, nextId := s.nextId } = s1 ∧ (∀ id, id ≠ x.cell → t.cell? id = s.cell? id)
        ∧ t.cell? x.cell = some { c with runs := c.runs ++ runs, xps := xps } ∧ runs.flatMap (·.elems) = els ∧ t.nextId = s.nextId + runs.length
        ∧ (∀ r ∈ runs, r.ctx = x.ctx ∧ r.begun = false ∧ r.left = List.range r.elems.length ∧ r.size = 2 ^ dg.esz ∧ r.count = [] ∧ r.phase = c.phase
          ∧ r.elems ≠ [] ∧ r.bytes = 0
          ∧ r.conv = (match w with
            | .conv sel => some sel
            | _ => none)
          ∧ s.nextId ≤ r.id ∧ r.id < t.nextId ∧ ∀ e1 ∈ r.elems, ∀ e2 ∈ r.elems, elemBlocks e1 = elemBlocks e2)
        ∧ t.xp? x = some { p with
          gens := (p.gens.set f.sg.toNat (src n)).set f.dg.toNat (steps n dg), xpc := if far then p.xpc else p.xpc + 1,
          waitOn := if far then .runs else p.waitOn, rem := 0, xcount := [], xphase := c.phase, moved := n, xword := s.nextId, counted := [] })
/-- The count of a data word: x(A), or IMM where A is 0 (R250). -/
def counted (f : Xp) (p : XpCtx) : Nat := if f.a = 0 then (BitVec.ofInt 64 f.imm.toInt).toNat else (xa f p).toNat
/-- The cells that XMCAST's mask names, each in the gang's part of the cluster (R261). -/
def targets (s : State) (c : Cell) (mask : Dword) : List Nat :=
  ((List.range 16).filter (fun i => mask.getLsbD i)).map (fun i => (castCells s c).getD i 0)

end Sys2Proof.Claims

/-- R256, R257, R261: the data words; a generator that is not valid, or sizes that do not agree, stop with XP_GEN. -/
def Sys2Proof.Claims.TransferData : Prop := ∀ f : Xp,
  Moves (.xcopy f) f (counted f) (fun _ _ _ => some .copy) (fun a b => a.esz = b.esz)
  ∧ Moves (.xgath f) f (counted f) (fun _ p _ => some (.gather (xb f p))) (fun a b => a.esz = b.esz)
  ∧ Moves (.xconv f) f (fun p => (xa f p).toNat) (fun _ _ _ => some (.conv (f.imm.extractLsb' 0 12)))
      (fun a b => 8 * 2 ^ a.esz = (format (f.imm.toNat % 16)).width ∧ 8 * 2 ^ b.esz = (format (f.imm.toNat / 16 % 16)).width)
  ∧ Moves (.xmcast f) f (counted f)
      (fun s p c => if (List.range 16).all (fun i => !(xb f p).getLsbD i || decide (i < (castCells s c).length)) && (p.gens.getD f.dg.toNat Gen.empty).scratch
        then some (.cast (targets s c (xb f p))) else none) (fun a b => a.esz = b.esz)

namespace Sys2Proof.Claims

/-- The slot that register A's value names, if it exists: a value above 63 names none (R372). -/
def xSlot (f : Xp) (c : Cell) (p : XpCtx) (y : Slot) : Prop := (xa f p).toNat < 64 ∧ c.slots[(xa f p).toNat]? = some y
/-- The 32 places from generator g, each checked. -/
def segment (s : State) (c : Cell) (g : Gen) (ps : List Place) : Prop :=
  ps.length = 32 ∧ ∀ (i : Nat) (pl : Place), ps[i]? = some pl → genPlace s c (g.advance i) needLoad 0 = .ok pl

end Sys2Proof.Claims

/-- R259, R260, R262, R264: XQPUSH appends one word to the queue of each live lane; XBARV arrives with bytes; XBWAIT waits for the current phase;
XWAIT and XQFENCE hold until what they name is done. -/
def Sys2Proof.Claims.TransferSync : Prop := ∀ f : Xp,
  OnXp (.xqpush f) (fun x c p s goes =>
    let g := p.gens.getD f.sg.toNat Gen.empty
    let sq := (xa f p).toNat % 32
    ((g.valid = false ∨ g.esz ≠ 2) → goes (xpStop s x 0x33 0))
    ∧ ∀ q ps words, g.valid = true → g.esz = 2 → c.squads[sq]? = some q → q.handler = none →
      (q.bind.getD f.d.toNat 0 ≠ x.ctx → goes (xpStop s x 0x34 0))
      ∧ (q.bind.getD f.d.toNat 0 = x.ctx → segment s c g ps → (∀ pl ∈ ps, xpConflict c x false (placeKeys pl) = false) →
        (∀ pl ∈ ps, ∀ a, pl ≠ .glob a) → ps.map (fun pl => leNat (readPlace s x.cell pl).1) = words →
        (∀ th ∈ q.threads, th.state ≠ .exited → (th.queues.getD f.d.toNat []).length < 16) →
        goes (onward x ((s.modSquad x.cell sq (fun q => { q with threads := q.threads.map (fun th =>
            if th.state = .exited then th
            else { th with queues := th.queues.modify f.d.toNat (fun l => l ++ [word (words.getD th.lane 0)]) }) })).modXp x
          (fun y => { y with
            gens := y.gens.set f.sg.toNat (g.advance 32), rem := 0, qdisc := y.qdisc + (q.threads.filter (fun th => th.state = .exited)).length })))))
  ∧ OnXp (.xbarv f) (fun x c p s goes =>
      let n := (xa f p).toNat
      let bytes : Int := (xb f p + BitVec.ofInt 64 f.imm.toInt).toInt
      (64 ≤ n → goes (xpStop s x 0x35 0))
      ∧ ∀ y, xSlot f c p y →
        (y.state = .free → goes (xpStop s x 0x35 0))
        ∧ (y.state = .completing → goes ((modSlot s x.cell n (fun y => { y with held := y.held ++ [.xarrive x.ctx bytes y.gen] })).modXp x
            (fun q => { q with waitOn := .held })))
        ∧ (y.state = .armed → (y.arrived = y.expect ∨ pendingOk (y.pending + bytes) = false) → goes (xpStop s x 0x35 0))
        ∧ (y.state = .armed → y.arrived ≠ y.expect → pendingOk (y.pending + bytes) = true →
            goes (onward x (modSlot s x.cell n (fun y => y.arrive none bytes)))))
  ∧ OnXp (.xbwait f) (fun x c p s goes =>
      let n := (xa f p).toNat
      (64 ≤ n → goes (xpStop s x 0x35 0))
      ∧ ∀ y, xSlot f c p y →
        (y.state = .free → goes (xpStop s x 0x35 0))
        ∧ (y.state ≠ .free → goes ((modSlot s x.cell n (fun y => { y with xwait := y.xwait ++ [x.ctx] })).modXp x
            (fun q => { q with xpc := q.xpc + 1, state := .waiting, waitOn := .slot n y.pbit }))))
  ∧ OnXp (.xqfence f) (fun x _ _ s goes =>
      (drained s x f.imm.toNat s.nextId = true → goes (onward x s))
      ∧ (drained s x f.imm.toNat s.nextId = false →
          goes (s.modXp x (fun q => { q with state := .waiting, waitOn := .drain f.imm.toNat s.nextId }))))
  ∧ OnXp (.xwait f) (fun x _ p s goes =>
      (xpInFlight s x s.nextId = false → p.pendmx = [] → goes (onward x s))
      ∧ ((xpInFlight s x s.nextId = true ∨ p.pendmx ≠ []) →
          goes (s.modXp x (fun q => { q with state := .waiting, waitOn := .drain 0 s.nextId }))))

/-- R193, R263: XMXM reads a 32-byte descriptor of a matrix operation from scratch and hands it over; the first handed operation enters its core's
array queue when its turn has come, and one in the wrong state is dropped with those behind it. -/
def Sys2Proof.Claims.TransferMatrix : Prop :=
  (∀ f : Xp, OnXp (.xmxm f) (fun x c p s goes =>
    let off := (lo32 (xa f p)).toNat
    off + 32 ≤ c.shape.scratch → off % 32 = 0 → xpConflict c x false (placeKeys (.scratch c.id off 32)) = false →
      (∀ code, parseMx c (scratchRead s c.id off 32) = .error code → goes (xpStop s x code 0))
      ∧ (∀ op, parseMx c (scratchRead s c.id off 32) = .ok op → mxScratch c op = none →
          (f.fl = 0 → goes (s.modXp x (fun q => { q with pendmx := q.pendmx ++ [⟨op, p.xpc, none⟩], xpc := q.xpc + 1 })))
          ∧ (f.fl ≠ 0 → 64 ≤ (xb f p).toNat → goes (xpStop s x 0x35 0))
          ∧ (f.fl ≠ 0 → (xb f p).toNat < 64 → ∀ y, c.slots[(xb f p).toNat]? = some y → y.state ≠ .free →
              goes ((modSlot s x.cell (xb f p).toNat (fun y => { y with xwait := y.xwait ++ [x.ctx] })).modXp x
                (fun q => { q with pendmx := q.pendmx ++ [⟨op, p.xpc, some ((xb f p).toNat, y.pbit)⟩], xpc := q.xpc + 1 })))
          ∧ (f.fl ≠ 0 → (xb f p).toNat < 64 → ∀ y, c.slots[(xb f p).toNat]? = some y → y.state = .free → goes (xpStop s x 0x35 0)))))
  ∧ (∀ (s : State) (x : Xid) (c : Cell) (p : XpCtx) (m : PendMx) (rest : List PendMx), s.cell? x.cell = some c → s.xp? x = some p →
      p.pendmx = m :: rest → m.wait = none → c.resident = true → ctxLive s c.ctx = true → queueUsed s c.core < 16 →
      (mxIssue c m.op = none → ∃ t q, exec (.xmxmEntry x) s = .next t ∧ t.xp? x = some q ∧ q.pendmx = rest
          ∧ q.state = (if p.exiting = true ∧ rest = [] then .exited else p.state) ∧ q.x = p.x ∧ q.xpc = p.xpc
          ∧ (t.core? c.core).map (·.array.length) = (s.core? c.core).map (·.array.length + 1))
      ∧ (∀ sub, mxIssue c m.op = some sub → p.rem = 0 → p.waitOn = .none → p.fail = none → (∀ k, s.kernel? c.kernel = some k → k.xpOnly = false) →
          ∃ t q, exec (.xmxmEntry x) s = .next t ∧ t.xp? x = some q ∧ q.pendmx = [] ∧ q.state = .stopped ∧ q.code = 0x15))

/-- R246, R258, R259, R269: a ready run of one element within the cell's scratch moves it; landed bytes count at their slot in its generation, or
as an orphan; and a context's wait on its own transfers, on a page, on a peer or on a full engine ends. -/
def Sys2Proof.Claims.TransferEvents : Prop :=
  (∀ (s : State) (x : Xid) (c : Cell) (r : Run) (a b n : Nat) (from' to' : Dword), s.cell? x.cell = some c → c.state ≠ .exited →
    c.runs.find? (fun y => y.id = r.id) = some r → r.ctx = x.ctx → runReady c r = true → r.count = [] → r.conv = none → r.left = [0] →
    r.elems = [⟨.scratch c.id a n, [.scratch c.id b n], from', to'⟩] → (∀ q ∈ s.asks, q.who ≠ .run x.cell r.id 0) →
    ∃ t d, exec (.transferLand x r.id) s = .next t ∧ t.cell? x.cell = some d ∧ d.scratch = memWriteL c.scratch b (memReadN c.scratch a n)
      ∧ d.runs = c.runs.filter (fun y => y.id ≠ r.id) ∧ d.view = c.view ∧ t.mem = s.mem)
  ∧ (∀ (s : State) (x : Xid) (c : Cell) (r : Run), s.cell? x.cell = some c → c.runs.find? (fun y => y.id = r.id) = some r → r.ctx = x.ctx →
      (runReady c r = false → exec (.transferLand x r.id) s = .next s)
      ∧ (runReady c r = true → ∃ t, exec (.transferLand x r.id) s = .next t
        ∧ (∀ d y, t.cell? x.cell = some d → y ∈ d.runs → y.id = r.id → y.begun = true)))
  ∧ (∀ (s : State) (x : Xid) (run : Nat) (c : Cell), s.cell? x.cell = some c → (∀ r ∈ c.runs, r.id ≠ run) → exec (.transferLand x run) s = .next s)
  ∧ (∀ (s : State) (cell n : Nat) (gen : BitVec 8) (bytes : Nat) (c : Cell) (y : Slot), s.cell? cell = some c → c.slots[n]? = some y →
      (y.gen = gen → y.state ≠ .free → ∃ d, (landCount s (cell, n, gen) bytes).cell? cell = some d
        ∧ d.slots[n]? = some (Slot.settle { y with pending := y.pending - bytes }) ∧ d.orphans = c.orphans)
      ∧ ((y.gen ≠ gen ∨ y.state = .free) → ∃ d, (landCount s (cell, n, gen) bytes).cell? cell = some d
        ∧ d.slots = c.slots ∧ d.orphans = c.orphans + 1))
  ∧ (∀ (s : State) (x : Xid) (p : XpCtx), s.xp? x = some p → (p.state = .waiting ∨ p.state = .running) → p.fail = none →
      let ends (t : State) : Prop := exec (.xpWaitEnd x) s = .next t
      let runs : State := s.modXp x (fun q => { q with state := .running, waitOn := .none })
      ((p.waitOn = .queue ∨ p.waitOn = .order) → ends runs)
      ∧ (p.waitOn = .remote → asking s (.xp x) = false → ends runs)
      ∧ (p.waitOn = .remote → asking s (.xp x) = true → ends s)
      ∧ (p.waitOn = .runs → runsOut s x p.xpc = false → ends (onward x runs))
      ∧ (p.waitOn = .runs → runsOut s x p.xpc = true → ends s)
      ∧ (∀ r g e, p.waitOn = .page r g → s.page? r g = some e → (e.state = .resident ∨ e.state = .unmapped ∨ e.state = .poisoned) → ends runs)
      ∧ (∀ m u, p.waitOn = .drain m u → drained s x m u = true → ends (onward x runs))
      ∧ (∀ m u, p.waitOn = .drain m u → drained s x m u = false → ends s))

/-- R271, R272: XPRUN starts, resumes, queries and kills a context of the cell; a context that the cell does not hold raises OPERAND_NAMESPACE. -/
def Sys2Proof.Claims.ContextRuns : Prop :=
  let lane (f : Ext) (r : Rd) : Nat := if isV f.a.code then (r.vreg f.a 0).toNat else (r.x64 f.a).toNat
  let start (f : Ext) (r : Rd) : Nat := if isV f.b.code then (r.vreg f.b 0).toNat else (r.x64 f.b).toNat
  let live (p : XpCtx) : Prop := p.state = .running ∨ p.state = .waiting ∨ p.state = .stopped
  let shown (p : XpCtx) : Nat := if p.state = .running ∧ p.exiting = true ∧ p.pendmx.any (fun m => m.wait.isSome) = true then 2 else p.state.num
  let named (t : Tid) (c : Cell) (f : Ext) (r : Rd) (s : State) (x : Xid) (p : XpCtx) : Prop :=
    x = ⟨t.cell, lane f r⟩ ∧ 1 ≤ lane f r ∧ lane f r ≤ 3 ∧ lane f r ≤ c.xps.length ∧ s.xp? x = some p
  ∀ f : Ext,
  InLane (.xprunStart f) (fun t c _ _ r s does => ∀ x p, named t c f r s x p →
      (live p → does s {} .unit .next)
      ∧ (¬ live p → does (((dropAsks s (.xp x)).modCell x.cell (fun c => { c with
          runs := c.runs.map (fun y => if y.ctx = x.ctx then { y with at' := none } else y) })).modXp x (fun _ => { XpCtx.start with
          xpc := start f r % 2 ^ 32, state := .running, x := (List.replicate 32 0).set 1 (r.x64 f.c) })) {} .unit .next))
  ∧ InLane (.xprunResume f) (fun t c _ _ r s does => ∀ x p, named t c f r s x p →
      (p.state = .stopped → does (s.modXp x (fun p => { p with state := .running, moved := 0 })) {} .unit .next)
      ∧ (p.state ≠ .stopped → does s {} .unit .next))
  ∧ InLane (.xprunQry f) (fun t c _ _ r s does => ∀ x p, named t c f r s x p →
      does s (writeInt f.d true false (shown p + p.code % 256 * 2 ^ 8 + min p.mcdrop 0xFFFF * 2 ^ 16 + min p.qdisc 0xFFFF * 2 ^ 32)) .unit .next)
  ∧ InStep (.xprunQry f) (fun t c _ _ r s does => ∀ x p, named t c f r s x p →
      does s [(f.d.toNat - 0xC0,
        BitVec.ofNat 64 (shown p + p.code % 256 * 2 ^ 8 + min p.mcdrop 0xFFFF * 2 ^ 16 + min p.qdisc 0xFFFF * 2 ^ 32))] none)
  ∧ InLane (.xprunKill f) (fun t c _ _ r s does => ∀ x p, named t c f r s x p →
      (live p → ∃ e, does e {} .unit .next ∧ (e.xp? x).map (fun q => (q.state, q.pendmx)) = some (.killed, [])
        ∧ (e.xp? x).map (fun q => (q.x, q.xpc, q.gens, q.loops)) = some (p.x, p.xpc, p.gens, p.loops))
      ∧ (¬ live p → does s {} .unit .next))
  ∧ RaisesWhen (.xprunStart f) (fun r => lane f r = 0 ∨ 3 < lane f r ∨ r.c.xps.length < lane f r) .operandNamespace (fun _ => none) 0
  ∧ RaisesWhen (.xprunQry f) (fun r => 3 < lane f r ∨ r.c.xps.length < lane f r) .operandNamespace (fun _ => none) 0

/-- R273–R275: TCOPY queues its request at XP0, with its slot's generation; QMAP binds and unbinds registers v176–v191 of a squad of 192 registers as a
uniform step. -/
def Sys2Proof.Claims.CopyAndMapRequests : Prop := ∀ f : Ext,
  let regs (r : Rd) : List Nat := (List.range 16).filter (fun i => (r.x64 f.a).getLsbD i)
  InLane (.tcopy f) (fun t c _ _ r s does =>
    let n := f.imm.toNat % 64
    let slot : Option (Nat × BitVec 8) := if f.imm.getLsbD 6 then some (n, ((c.slots[n]?).map (·.gen)).getD 0) else none
    let q : TcopyReq := ⟨s.nextId, t.cell, 0, none, decide (f.fn = 0), r.x64 f.a, (List.range 5).map (fun j => (r.vreg f.b j).toInt),
      if isV f.c.code then (r.vreg f.c 0).toNat else (r.x64 f.c).toNat, slot, c.phase⟩
    does (({ s with nextId := s.nextId + 1 }).modCore c.core (fun k => { k with tcopy := k.tcopy ++ [q] })) {} .unit .next)
  ∧ InStep (.qmapBind f) (fun t c _ th r s does =>
      let n := (r.x64 f.b).toNat
      th.v.length = 192 → 1 ≤ n → n ≤ 3 → n ≤ c.xps.length → (∀ i ∈ regs r, r.q.bind.getD i 0 = 0 ∨ r.q.bind.getD i 0 = n) →
      does (s.modSquad t.cell t.squad (fun q => { q with bind := (regs r).foldl (fun b i => b.set i n) q.bind })) [] none)
  ∧ InStep (.qmapUnbind f) (fun t _ q _ r s does => (∀ i ∈ regs r, q.bind.getD i 0 = 0) → ∃ e, does e [] none ∧ e.mem = s.mem
      ∧ ∃ q', e.squad? t.cell t.squad = some q' ∧ (∀ i ∈ regs r, q'.bind.getD i 0 = 0 ∧ ∀ th ∈ q'.threads, th.queues.getD i [] = [])
        ∧ (∀ i, i ∉ regs r → q'.bind[i]? = q.bind[i]?))
  ∧ RaisesWhen (.qmapBind f) (fun r => (r.x64 f.b).toNat = 0 ∨ 3 < (r.x64 f.b).toNat ∨ r.c.xps.length < (r.x64 f.b).toNat) .operandNamespace
    (fun _ => none) 0

namespace Sys2Proof.Claims

/-- Indices by strides (R247, R273). -/
def sumProd' (xs ys : List Int) : Int := ((xs.zip ys).map (fun x => x.1 * x.2)).sum

end Sys2Proof.Claims

/-- R273, R274: XP0 serves its first request: a record of a one-element box within the tensor moves that element, and the request leaves; a bad record, or a slot not held,
ends it with its code at the cell. -/
def Sys2Proof.Claims.CopyService : Prop := ∀ (s : State) (k : Core) (q : TcopyReq) (rest : List TcopyReq) (c : Cell) (a : Access),
  s.core? k.id = some k → k.tcopy = q :: rest → s.cell? q.cell = some c → q.tensor = none → c.resident = true → ctxLive s c.ctx = true →
  (∀ x ∈ rest, x.id ≠ q.id) → globPlace s c needLoad q.record 0 128 128 = .ok (.glob a) → a.isRemote = false →
  let bytes := (phasedRead s c.id a).1
  let s1 := dropAsks (phasedRead s c.id a).2 (.tcopy k.id q.id)
  ((parseGen bytes = none ∨ parseBox bytes = none) → exec (.tcopyService k.id) s = .next (tcopyFail s1 k.id q 0x33 0))
  ∧ (∀ g box, parseGen bytes = some g → parseBox bytes = some box → g.scratch = true → exec (.tcopyService k.id) s = .next (tcopyFail s1 k.id q 0x33 0))
  ∧ (∀ g box n gen y, parseGen bytes = some g → parseBox bytes = some box → g.scratch = false → q.slot = some (n, gen) → c.slots[n]? = some y →
      y.state = .free → exec (.tcopyService k.id) s = .next (tcopyFail s1 k.id q 0x35 0))
  ∧ (∀ g box e, parseGen bytes = some g → parseBox bytes = some box → g.scratch = false → box = List.replicate g.rank 1 → q.landed = 0 →
      q.load = true → q.slot = none → q.scratch % 2 ^ g.esz = 0 → q.scratch + 2 ^ g.esz ≤ c.shape.scratch →
      (∀ j < g.rank, 0 ≤ q.index.getD j 0 ∧ q.index.getD j 0 < g.ext.getD j 0) → g.rank ≤ q.index.length →
      let s2 : State := s1.modCore k.id (fun k => { k with tcopy := k.tcopy.map (fun t => if t.id = q.id then { q with tensor := some (g, box) } else t) })
      globPlace s2 c needLoad g.base (sumProd' (q.index.take g.rank) g.str) (2 ^ g.esz) (2 ^ g.esz) = .ok (.glob e) → e.isRemote = false →
      ∃ t, exec (.tcopyService k.id) s = .next t ∧ (t.core? k.id).map (·.tcopy) = some rest
        ∧ t.mem = s.mem ∧ t.cells = (scratchWrite s c.id q.scratch (phasedRead s2 c.id e).1).cells)

/-- R247, R248, R255: XGSET loads a generator from a layout record, XGPOS places it and XGSTEP moves it on, wrapping in odometer order. -/
def Obligations.Generators : Prop := (∀ f : Xp,
  OnXp (.xgset f) (fun x c p s goes => xInScratch f → inScratch c (xScratch f (xa f p)) 128 →
      xpConflict c x false (placeKeys (.scratch c.id (xScratch f (xa f p)).toNat 128)) = false →
      let b := scratchRead s c.id (xScratch f (xa f p)).toNat 128
      (∀ g, parseGen b = some g → goes (onward x (s.modXp x (fun q => { q with gens := q.gens.set f.dg.toNat g })))
        ∧ g.valid = true ∧ g.base.toNat = byteField b 0 8 ∧ g.rank = byteField b 8 1 ∧ g.esz = byteField b 9 1 ∧ g.scratch = decide (byteField b 10 1 = 1)
        ∧ 1 ≤ g.rank ∧ g.rank ≤ 5 ∧ g.esz ≤ 4 ∧ g.ext.length = g.rank ∧ g.str.length = g.rank ∧ g.idx = List.replicate g.rank 0)
      ∧ (parseGen b = none → goes (xpStop s x 0x33 0)))
  ∧ OnXp (.xgpos f) (fun x _ p s goes =>
      let g := p.gens.getD f.dg.toNat Gen.empty
      let idx := (List.range g.rank).map (fun j => if f.a.toNat + j = 0 then 0 else (p.x.getD (f.a.toNat + j) 0).toNat)
      (g.valid = false → goes (xpStop s x 0x33 0))
      ∧ (g.valid = true → 31 < f.a.toNat + g.rank - 1 → goes (xpStop s x 0x30 0))
      ∧ (g.valid = true → f.a.toNat + g.rank - 1 ≤ 31 → (∀ y ∈ idx.zip g.ext, y.1 < y.2) →
          goes (onward x (s.modXp x (fun q => { q with gens := q.gens.set f.dg.toNat { g with idx := idx, wrap := false } })))))
  ∧ OnXp (.xgstep f) (fun x _ p s goes =>
      let g := p.gens.getD f.dg.toNat Gen.empty
      let g1 := (if f.fl = 0 then g else { g with idx := List.replicate g.rank 0 }).advance (counted f p)
      (g.valid = false → goes (xpStop s x 0x33 0))
      ∧ (g.valid = true → goes (s.modXp x (fun q => { q with
          gens := q.gens.set f.dg.toNat g1, x := if f.d = 0 then q.x else q.x.set f.d.toNat (if g1.wrap then 1 else 0), xpc := q.xpc + 1 })))))
  ∧ (∀ (g : Gen) (e i : Nat), g.ext = [e] → g.idx = [i] → i < e → g.advance 1 = { g with idx := [(i + 1) % e], wrap := decide (i + 1 = e) })
  ∧ (∀ (g : Gen) (e0 e1 i0 i1 : Nat), g.ext = [e0, e1] → g.idx = [i0, i1] → i0 < e0 → i1 < e1 →
      g.advance 1 = if i0 + 1 < e0 then { g with idx := [i0 + 1, i1], wrap := false }
        else if i1 + 1 < e1 then { g with idx := [0, i1 + 1], wrap := false } else { g with idx := [0, 0], wrap := true })

/-! ## The vat, waits that end, traps taken -/

namespace Sys2Proof.Claims

/-- The waiter of slot n with token tok ends its wait with its predicates (R374, R379). -/
def slotWaiter (th : Thread) (n : Nat) (tok : Bool) (closer st : Nat) (test last : Bool) : Prop :=
  th.heldWait = none ∧ th.wait = some (.slot n tok closer st test last) ∧ th.state = .waiting
/-- Everything of a thread but its place and predicates is as it was. -/
def sameRegisters (th th' : Thread) : Prop := th'.v = th.v ∧ th'.w = th.w ∧ th'.queues = th.queues ∧ th'.lane = th.lane

end Sys2Proof.Claims

/-- R72, R338, R333: the oldest result of a thread retires; and curdling puts each thread of the core that can issue into one bundle with others of its
entry, each of another lane; one at a collective instruction of a strict kernel may be held back (R334). -/
def Obligations.VatEvents : Prop :=
  (∀ (s : State) (t : Tid) (th : Thread) (pre post : List Outstanding) (o : Outstanding), s.thread? t = some th → th.board = pre ++ o :: post →
    (∀ x ∈ pre, x.awaits ≠ .unit) → o.awaits = .unit → (∀ e ∈ s.late, LateAccess.dueFor t e = false) → ∃ s', exec (.longLatencyRetire t) s = .next s' ∧
      s'.thread? t = some { th with board := pre ++ (if o.window = 0 then post else { o with awaits := .done } :: post) }
      ∧ { s' with cells := s.cells } = s)
  ∧ (∀ (s : State) (core : Nat) (k : Core), s.core? core = some k → k.snapAt ≤ s.clk → (s.cells.map (·.id)).Nodup →
      ∃ (k' : Core) (bs : List (List Tid)),
      exec (.curdle core) s = .next { s.modCore core (fun _ => k') with issue := s.issue ++ bs.map Issuer.bundle }
      ∧ (∀ b ∈ bs, b ≠ [] ∧ ∀ t ∈ b, canIssue s t = true ∧ coreOf s t.cell = core
          ∧ ∀ u ∈ b, programOf s u = programOf s t ∧ partitionOf s u = partitionOf s t ∧ pcOf s u = pcOf s t ∧ (u.lane ≠ t.lane ∨ u = t))
      ∧ (∀ t, canIssue s t = true → coreOf s t.cell = core → partitionOf s t < 4 → t ∉ issuing s → strictAt s t = false → ∃ b ∈ bs, t ∈ b))

/-- R241, R374, R387: a MONWAIT's time runs out with status 0; a COMPLETING slot is armed again and its waiters of the phase that completed go on, as does a thread whose arrival it has held, counted in the next
phase or, of an old generation, among the orphans; and a PHASE that all of the gang's threads have reached, with nothing in flight, publishes what the cells wrote and lets all of them go on in the next phase. -/
def Sys2Proof.Claims.WaitsEnd : Prop :=
  (∀ (s : State) (t : Tid) (th : Thread) (d : Code) (taint : Bool) (m : Monitor), s.thread? t = some th → th.wait = some (.monitor d taint) → th.mon = some m →
    (m.timeout ≤ s.clk - m.since → ∃ s', exec (.monwaitTimeout t) s = .next s' ∧ { s' with cells := s.cells } = s
      ∧ ∃ th', s'.thread? t = some th' ∧ th'.mon = none ∧ th'.wait = none ∧ th'.state = .ready ∧ th'.pc = th.npc
        ∧ th'.v = (if d.toNat < 192 then th.v.set d.toNat 0 else th.v) ∧ th'.p = th.p ∧ th'.w = th.w)
    ∧ (s.clk - m.since < m.timeout → exec (.monwaitTimeout t) s = .next s))
  ∧ (∀ (s : State) (cell n : Nat) (c : Cell) (x : Slot), s.cell? cell = some c → c.slots[n]? = some x → x.state = .completing → x.held = [] →
      ∃ s' c', exec (.slotWake cell n) s = .next s' ∧ { s' with cells := s.cells } = s ∧ s'.cell? cell = some c' ∧ c'.scratch = c.scratch
        ∧ (∃ y, c'.slots[n]? = some y ∧ y.gen = x.gen ∧ y.expect = x.expect
            ∧ (x.arrived = x.expect ∧ x.pending = 0 → y.state = .completing ∧ y.pbit = !x.pbit)
            ∧ (x.arrived ≠ x.expect ∨ x.pending ≠ 0 → y.state = .armed ∧ y.pbit = x.pbit ∧ y.arrived = x.arrived))
        ∧ (∀ (q l : Nat) th tok closer st test last, 32 * q + l ∈ x.waitmap → x.waitmap.Nodup → l < 32 → s.thread? ⟨cell, q, l⟩ = some th →
            slotWaiter th n tok closer st test last → ∃ th', s'.thread? ⟨cell, q, l⟩ = some th' ∧ sameRegisters th th'
              ∧ (tok = x.pbit → th'.wait = th.wait)
              ∧ (tok ≠ x.pbit → th'.wait = none ∧ th'.state = .ready ∧ th'.pc = th.npc
                ∧ th'.p = (if test then setPred th.p closer true
                  else setPred (setPred th.p closer (decide (32 * q + l = if last && !c.strict then x.tlast else x.closer))) st true))))
  ∧ (∀ (s : State) (t : Tid) (n d : Nat) (b : Int) (gen : BitVec 8) (c : Cell) (x : Slot) (th : Thread), s.cell? t.cell = some c → c.slots[n]? = some x →
      x.state = .completing → x.arrived + 1 < x.expect → x.waitmap = [] → x.xwait = [] → t.lane < 32 → s.thread? t = some th → th.wait = some (.held n d) →
      th.state = .waiting → th.heldWait = none → pendingOk (x.pending + b) = true → x.held = [.arrive (32 * t.squad + t.lane) b gen] →
      ∃ s' c' th', exec (.slotWake t.cell n) s = .next s' ∧ s'.cell? t.cell = some c' ∧ s'.thread? t = some th' ∧ sameRegisters th th'
        ∧ th'.state = .ready ∧ th'.pc = th.npc ∧ th'.p = setPred th.p d x.pbit
        ∧ c'.slots[n]? = some (if gen = x.gen then ({ x with state := .armed, held := [] } : Slot).arrive (some (32 * t.squad + t.lane)) b
            else { x with state := .armed, held := [] })
        ∧ c'.orphans = (if gen = x.gen then c.orphans else c.orphans + 1))
  ∧ (∀ (s : State) (g : Gang), s.gang? g.id = some g → phaseReady s g = true → phaseDrained s g = true → (∀ c ∈ gangCells s g, ctxLive s c.ctx = true) →
      viewHeld s ((gangCells s g).map (·.id)) = none → (∀ c ∈ gangCells s g, ∀ y ∈ c.view, isRemoteLoc y.1 = false) → ∃ s', exec (.phaseComplete g.id) s = .next s'
        ∧ s'.mem = (publish s ((gangCells s g).map (·.id))).mem ∧ s'.hostMem = (publish s ((gangCells s g).map (·.id))).hostMem
        ∧ s'.gang? g.id = some { g with phase := g.phase + 1 } ∧ s'.owners = s.owners.filter (fun o => o.gang ≠ g.id)
        ∧ (∀ c ∈ s.cells, ∃ c' ∈ s'.cells, c'.id = c.id ∧ c'.phase = (if c.gang = g.id then c.phase + 1 else c.phase))
        ∧ ((s.cells.map (·.id)).Nodup → ∀ c ∈ gangCells s g, ∀ (i l : Nat) (q : Squad) (th : Thread) (d : Nat), c.squads[i]? = some q → q.handler = none →
            q.threads[l]? = some th → th.state = .waiting → th.wait = some (.phase d) → th.heldWait = none → ∃ th' b, s'.thread? ⟨c.id, i, l⟩ = some th'
              ∧ sameRegisters th th' ∧ th'.wait = none ∧ th'.state = .ready ∧ th'.pc = th.npc ∧ th'.p = setPred th.p d b))

/-- R349–R352, R357: a stopping squad whose results have retired enters its handler in cause mode: every live thread at csr.tvec with its return point, and the trap
registers set from the cause; its record is written to the fault ring. -/
def Sys2Proof.Claims.TrapEntry : Prop := ∀ (s : State) (cell sq : Nat) (ce : Cell) (q : Squad) (x : Context) (k : CauseRec),
  s.cell? cell = some ce → ce.squads[sq]? = some q → s.ctx? ce.ctx = some x → canDeliver s cell sq = true →
  x.tmode = false → q.collected = [k] → q.pendXp = 0 →
  ∃ s' q', exec (.trapDelivery cell sq) s = .next s' ∧ s'.squad? cell sq = some q'
    ∧ q'.trap = .active ∧ q'.tcause.toNat = k.cause.code ∧ q'.taddr = k.addr ∧ q'.tmask = k.lanes
    ∧ q'.tinfo = (BitVec.ofNat 32 x.fseq) ++ k.info ∧ q'.collected = [] ∧ q'.k = q.k ∧ q'.ustep = q.ustep
    ∧ (s'.ctx? ce.ctx).map (·.fseq) = some (x.fseq + 1)
    ∧ (k.cause ≠ .xpStopped → s'.mem = (writeRecord s ce.ctx ⟨0, k.cause.code, k.info.toNat % 256, 4, ce.core, q.partition, sq, ce.index, k.lanes.toNat,
        k.pc.toNat, 0, k.addr, k.info.toNat, k.progress⟩).mem)
    ∧ ∀ (l : Nat) (th : Thread), q.threads[l]? = some th → ∃ th', q'.threads[l]? = some th' ∧ th'.p = th.p ∧ th'.w = th.w
      ∧ (th.state = .exited → th.mon = none → th'.state = .exited ∧ th'.pc = th.pc)
      ∧ (th.state ≠ .exited → th'.inHandler = true ∧ th'.pc = x.tvec ∧ (th.wait = none → th'.state = .ready ∧ th'.v = th.v ∧
          th'.ret = if th.mark = .cause ∧ k.lanes.getLsbD th.lane = true then th.ret else th.pc))

/-- R232–R235: a term that has come to its home joins its batch or opens one; the batch's last term adds the integer sum at the home and replies to each
contributor what lay there with the keys before its own; a term that does not agree, or csr.batchto clocks without one, aborts the batch; and a reply writes D and
the guard predicate. -/
def Sys2Proof.Claims.BatchEvents : Prop :=
  let here (s : State) (q : TermReq) (x : Term) : Prop := s.terms.find? (fun t => t.id == q.id) = some q ∧ q.path = [] ∧ q.terms = [x]
  let mine (s : State) (q : TermReq) (x : Term) (b : Batch) : Prop := here s q x ∧ s.batches.find? (fun b => b.of x) = some b
  let agrees (x : Term) (b : Batch) : Prop :=
    b.count = x.count ∧ b.fadd = x.fadd ∧ b.wide = x.wide ∧ (∀ y ∈ b.terms, y.key ≠ x.key) ∧ x.key < x.count
  let size (b : Batch) : Nat := if b.wide then 8 else 4
  let below (ts : List Term) (k : Nat) : Nat := ((ts.filter (fun x => x.key < k)).map (fun x => x.value.toNat)).sum
  let told (ts : List Term) (v : Term → Option Dword) (old new : List BatchReply) : Prop :=
    ∃ rs, new = old ++ rs ∧ rs.map (fun r => (r.t, r.value, r.wide, r.d, r.p)) = ts.map (fun x => (x.t, v x, x.wide, x.d, x.p))
  (∀ s q x b, mine s q x b → agrees x b → b.terms.length + 1 ≠ b.count →
    exec (.batchTermArrival q.id) s = .next { s with
      terms := s.terms.filter (fun t => t.id ≠ q.id)
      batches := s.batches.map (fun y => if y.id = b.id then
        { b with terms := b.terms ++ [x], lastAt := s.clk, entries := b.entries ++ q.entries, pages := b.pages ++ x.pages.filter (fun p => !b.pages.contains p) } else y) })
  ∧ (∀ s q x b, mine s q x b → agrees x b → b.terms.length + 1 = b.count → b.fadd = false → (∀ y ∈ b.terms, y.key < b.count) →
      ((b.terms.map (·.key)).Nodup) → badFrame s b.loc = none →
      ∃ s', exec (.batchTermArrival q.id) s = .next s' ∧ s'.batches = s.batches.filter (fun y => y.id ≠ b.id)
        ∧ s'.terms = s.terms.filter (fun t => t.id ≠ q.id)
        ∧ told (b.terms ++ [x]) (fun y => some (BitVec.ofNat 64 (((homeValue s b.loc (size b)).toNat + below (b.terms ++ [x]) y.key) % 2 ^ (8 * size b))))
          s.batchReplies s'.batchReplies
        ∧ s'.mem = (homePut s b.loc (size b)
          (BitVec.ofNat 64 (((homeValue s b.loc (size b)).toNat + below (b.terms ++ [x]) b.count) % 2 ^ (8 * size b))) [] []).mem)
  ∧ (∀ s q x b, mine s q x b → ¬ agrees x b → ∃ s', exec (.batchTermArrival q.id) s = .next s'
        ∧ s'.batches = s.batches.filter (fun y => y.id ≠ b.id) ∧ told (b.terms ++ [x]) (fun _ => none) s.batchReplies s'.batchReplies)
  ∧ (∀ (s : State) (q : TermReq) (x : Term), here s q x →
      (∀ b ∈ s.batches, ¬ (b.ctx = x.ctx ∧ b.loc = x.loc ∧ b.batch = x.batch)) → x.key < x.count → x.count ≠ 1 →
      ((s.batches.filter (fun b => homeSlice b.loc = homeSlice x.loc)).length < 32 → (∀ b ∈ s.batches, b.id ≠ s.nextId) →
        exec (.batchTermArrival q.id) s = .next { s with
          terms := s.terms.filter (fun t => t.id ≠ q.id), nextId := s.nextId + 1
          batches := s.batches ++ [⟨s.nextId, x.ctx, x.loc, x.batch, x.count, x.fadd, x.wide, [x], s.clk, x.pages, q.entries⟩] })
      ∧ (32 ≤ (s.batches.filter (fun b => homeSlice b.loc = homeSlice x.loc)).length → exec (.batchTermArrival q.id) s = .next s))
  ∧ (∀ (s : State) (q : TermReq), s.terms.find? (fun t => t.id == q.id) = some q → q.path ≠ [] → exec (.batchTermArrival q.id) s = .next s)
  ∧ (∀ (s : State) (b : Batch) (c : Context), s.batches.find? (fun y => y.id == b.id) = some b → s.ctx? b.ctx = some c →
      (c.batchto ≤ s.clk - b.lastAt → ∃ s', exec (.batchTimeout b.id) s = .next s' ∧ s'.batches = s.batches.filter (fun y => y.id ≠ b.id)
        ∧ told b.terms (fun _ => none) s.batchReplies s'.batchReplies)
      ∧ (s.clk - b.lastAt < c.batchto → exec (.batchTimeout b.id) s = .next s))
  ∧ (∀ (s : State) (r : BatchReply) (th : Thread), s.batchReplies.find? (fun y => y.id == r.id) = some r → s.thread? r.t = some th → th.state ≠ .exited →
      ∃ s' th', exec (.batchReply r.id) s = .next s' ∧ s'.mem = s.mem ∧ s'.batchReplies = s.batchReplies.filter (fun y => y.id ≠ r.id)
        ∧ s'.thread? r.t = some th' ∧ th'.w = th.w
        ∧ (th.wait = none → th'.p = setPred th.p r.p r.value.isSome ∧ th'.pc = th.pc)
        ∧ (r.value = none → th'.v = th.v)
        ∧ (∀ x, r.value = some x → isV r.d = true → r.wide = false → th'.v = th.v.set r.d.toNat (x.setWidth 32)))

/-! ## Kernels and cells -/

/-- R87, R98, R318, R324, R329: a gang starts whole: each cell with every thread at ENTRY in its own lane, registers 0 but k0–k15 from the launch and k16–k24 by the
cell's place in the grid, control registers at their start values and barrier slots FREE; its squads on successive partitions. -/
def Sys2Proof.Claims.CellStart : Prop := ∀ (s : State) (k : Kernel) (g u : Nat) (cores : List Nat) (j : Nat),
  (∀ c ∈ s.cells, c.id < s.nextCell) → j < k.desc.gcells →
  let i := g * k.desc.gcells + j
  ∃ c, (startGang s k g u cores).cell? (s.nextCell + j) = some c
    ∧ c.core = cores.getD j 0 ∧ c.index = i ∧ c.gindex = j ∧ c.kernel = k.id ∧ c.ctx = k.ctx ∧ c.gang = s.nextGang ∧ c.shape = k.desc.shape ∧ c.strict = k.strict
    ∧ c.x + k.desc.gx * (c.y + k.desc.gy * (i / (k.desc.gx * k.desc.gy))) = i ∧ c.z = i / (k.desc.gx * k.desc.gy)
    ∧ c.state = .running ∧ c.place = .core ∧ c.phase = 0 ∧ c.orphans = 0 ∧ c.preq = false ∧ c.view = []
    ∧ c.slots.length = 2 * k.desc.shape.squads ∧ (∀ x ∈ c.slots, x.state = .free ∧ x.gen = 0 ∧ x.pbit = false)
    ∧ c.xps.length = k.desc.shape.xp ∧ c.squads.length = k.desc.shape.squads
    ∧ ∀ (n : Nat) (q q0 : Squad), c.squads[0]? = some q0 → c.squads[n]? = some q → q.state = .active ∧ q.partition = (q0.partition + n) % 4
      ∧ q.k.length = 60 ∧ (∀ m < 16, q.k.getD m 0 = k.args.getD m 0) ∧ q.k.drop 25 = List.replicate 35 0
      ∧ (q.k.drop 16).take 9 = [i, c.x, c.y, c.z, n, i / k.desc.gcells, j, cores.getD j 0, k.ctx].map (BitVec.ofNat 64)
      ∧ q.ustep = 0 ∧ q.fflags = 0 ∧ q.fptrap = 0 ∧ q.tcause = 0 ∧ q.taddr = 0 ∧ q.tmask = 0 ∧ q.tinfo = 0 ∧ q.lrange = 0x444F800043B40000 ∧ q.cietab = 0
      ∧ q.trap = .idle ∧ q.threads.length = 32
      ∧ ∀ (l : Nat) (th : Thread), q.threads[l]? = some th → th.lane = l ∧ th.state = .ready ∧ th.pc = BitVec.ofNat 32 k.desc.entry ∧ th.p = 0
        ∧ th.v = List.replicate k.desc.shape.vregs 0 ∧ th.w = List.replicate k.desc.shape.wregs (List.replicate 8 0) ∧ th.taint = List.replicate k.desc.shape.vregs false

/-- R322–R325: the one kernel of the package, its bits tested, places its lowest ready gang in the lowest unit with room; a kernel that has headed its level
with the same gang longer than csr.reserve holds the unit with most free cores, of those that can hold the gang. -/
def Sys2Proof.Claims.Placing : Prop :=
  (∀ (s : State) (k k1 : Kernel) (g u : Nat) (cores : List Nat), s.kernels = [k] → k.places s = true → underMax s k = true → k.desc.steal = false →
    (∀ h ∈ s.gangs, h.gaveRoom = false) →
    let s1 := noteHeads (testBits s k)
    s1.kernels = [k1] → g ∈ k1.unplaced → k1.gangReady s1 g = true → (∀ h ∈ k1.unplaced, k1.gangReady s1 h = true → g ≤ h) → k1.unplaced.Pairwise (· < ·) →
    u < unitCount k1.desc.unitScope → gangCores s1 k1 g (fun _ => false) u = some cores → (∀ v < u, gangCores s1 k1 g (fun _ => false) v = none) →
    exec .placement s = .next (startGang s1 k1 g u cores) ∧ cores.length = k.desc.gcells
      ∧ (∀ c ∈ cores, s.coremask.getLsbD c = true ∧ (k1.clusters s1).getLsbD (c / 6) = true ∧ c / scopeSize k.desc.unitScope = u))
  ∧ (∀ s : State, (∀ k ∈ s.kernels, k.places s = false ∧ k.headGang = none) → (∀ h ∈ s.gangs, h.gaveRoom = false) → exec .placement s = .next s)
  ∧ (∀ (s : State) (k : Kernel), s.kernel? k.id = some k → k.reserved = [] →
      (s.clk - k.headSince ≤ s.reserve → exec (.reservation k.id) s = .next s)
      ∧ (s.reserve < s.clk - k.headSince → headsLevel s k = true → ∀ g, k.headGang = some g → nextGang s k = k.headGang → ∀ u, u < unitCount k.desc.unitScope →
          let can (v : Nat) : Prop := unitHolds s k v = true ∧ ∀ c ∈ unitCores k.desc.unitScope v, heldForOther s k.id k.headGang c = false
          can u → (∀ v < unitCount k.desc.unitScope, can v → freeCores s k v < freeCores s k u ∨ (freeCores s k v = freeCores s k u ∧ u ≤ v)) →
          exec (.reservation k.id) s = .next (s.modKernel k.id (fun k => { k with reserved := [(g, u)] }))))

namespace Sys2Proof.Claims

/-- The gang's pre-emption is under way and its live cells are cs; none of their walks has come to rest (R188). -/
def saves (s : State) (gang : Nat) (cs : List Cell) : Prop :=
  savingCells s gang = some cs ∧ (s.cells.map (·.id)).Nodup
    ∧ ∀ c ∈ cs, ∀ q ∈ c.squads, q.trap ≠ .stopping ∧ ∀ th ∈ q.threads, ∀ w, th.walk = some w → w.atRest = false
/-- Cell c has been saved as c': what the save keeps of each thread is said by keeps (R341, R342). -/
def savedAs (c c' : Cell) (keeps : Thread → Thread → Prop) : Prop :=
  c'.state = .saved ∧ c'.preq = false ∧ ((∀ q ∈ c.squads, ∀ th ∈ q.threads, th.walk = none) → c'.scratch = c.scratch) ∧ c'.tiles = c.tiles ∧ c'.slots = c.slots ∧ c'.bank = c.bank ∧ c'.xps = c.xps ∧ c'.view = c.view
    ∧ ∀ (i : Nat) (q : Squad), c.squads[i]? = some q → q.state = .active → ∃ q', c'.squads[i]? = some q' ∧ q'.state = .saved ∧ q'.k = q.k ∧ q'.fflags = q.fflags
      ∧ ∀ (l : Nat) (th : Thread), q.threads[l]? = some th → ∃ th', q'.threads[l]? = some th' ∧ th'.pc = th.pc ∧ th'.p = th.p
        ∧ (th.state ≠ .exited → th.state ≠ .saved → th'.state = .saved ∧ th'.walk = none ∧ keeps th th')

end Sys2Proof.Claims

/-- R340–R342, R345: a gang that is asked to yield is saved once every thread is safe and its requests are over, keeping what its YIELD declared live; with
the deadline past, every register is kept, a walk stops where it stands and a MONWAIT ends with status 3 (R241); the request may be cleared before the save begins; and an evicted squad whose wait is over comes back. -/
def Obligations.Saves : Prop :=
  (∀ s gang cs, saves s gang cs →
    ((∃ c ∈ cs, cellSafe c = false) → exec (.cooperativeSave gang) s = .next (beginSave s gang false))
    ∧ ((∀ c ∈ cs, cellSafe c = true) → saveDrained (beginSave s gang false) (cs.map (·.id)) = true →
        ∃ s', exec (.cooperativeSave gang) s = .next s' ∧ s'.mem = s.mem ∧ ∀ c ∈ cs, ∃ c', s'.cell? c.id = some c' ∧ savedAs c c' (fun th th' =>
          (th.state ≠ .yielded → th'.v = th.v ∧ th'.w = th.w ∧ th'.savedState = th.state)
          ∧ (th.state = .yielded → th'.savedState = .ready
            ∧ (∀ n < th.v.length, th'.v[n]? = some (if n < th.liveV then th.v.getD n 0 else 0))
            ∧ (∀ n < th.w.length, th'.w[n]? = some (if n < th.liveW then th.w.getD n [] else List.replicate 8 0))))))
  ∧ (∀ s gang cs, saves s gang cs → (∃ c ∈ cs, cellSafe c = false) →
      ((∀ c ∈ cs, cellSafe c = false → s.clk - c.preqAt < c.deadline) → exec (.forcedSave gang) s = .next s)
      ∧ ((∃ c ∈ cs, cellSafe c = false ∧ c.deadline ≤ s.clk - c.preqAt) → saveDrained (stopWalks (beginSave s gang true) (cs.map (·.id))) (cs.map (·.id)) = true →
          (∀ c ∈ cs, ∀ q ∈ c.squads, ∀ th ∈ q.threads, ∀ d taint, th.wait ≠ some (.monitor d taint)) →
          ∃ s', exec (.forcedSave gang) s = .next s' ∧ s'.mem = s.mem ∧ ∀ c ∈ cs, ∃ c', s'.cell? c.id = some c' ∧ savedAs c c' (fun th th' =>
            th'.v = th.v ∧ th'.w = th.w ∧ th'.savedState = (if th.state = .yielded ∨ (th.state = .stalled ∧ th.walk.isSome = true ∧ th.wait = some .walk) then .ready else th.state))))
  ∧ (∀ s gang cs, saves s gang cs → (∃ c ∈ cs, cellSafe c = false ∧ c.deadline ≤ s.clk - c.preqAt) →
      saveDrained (stopWalks (beginSave s gang true) (cs.map (·.id))) (cs.map (·.id)) = true → ∃ s', exec (.forcedSave gang) s = .next s' ∧ ∀ c ∈ cs, ∃ c', s'.cell? c.id = some c'
        ∧ ∀ (i : Nat) (q : Squad) (l : Nat) (th : Thread) (d : Code) (taint : Bool), c.squads[i]? = some q → q.state = .active → q.threads[l]? = some th →
          th.wait = some (.monitor d taint) → th.walk = none → ∃ q' th', c'.squads[i]? = some q' ∧ q'.threads[l]? = some th' ∧ th'.state = .saved ∧ th'.savedState = .ready
            ∧ th'.pc = th.npc ∧ th'.wait = none ∧ th'.mon = none ∧ th'.v = (if d.toNat < 192 then th.v.set d.toNat 3 else th.v))
  ∧ (∀ s gang cs, savingCells s gang = some cs → (∀ c ∈ cs, c.state = .saving) → exec (.preqClear gang) s = .next s)
  ∧ (∀ s gang cs, savingCells s gang = some cs → (∃ c ∈ cs, c.state = .draining) → (s.cells.map (·.id)).Nodup →
      ∃ s', exec (.preqClear gang) s = .next s' ∧ { s' with cells := s.cells } = s ∧ ∀ c ∈ cs, ∃ c', s'.cell? c.id = some c' ∧ c'.preq = false ∧ c'.state = .running
        ∧ ∀ (i : Nat) (q : Squad) (l : Nat) (th : Thread), c.squads[i]? = some q → q.threads[l]? = some th → ∃ q' th', c'.squads[i]? = some q' ∧ q'.threads[l]? = some th'
          ∧ th'.v = th.v ∧ th'.w = th.w ∧ th'.pc = th.pc ∧ th'.state = (if th.state = .yielded then .ready else th.state))
  ∧ (∀ (s : State) (c : Cell) (sq : Nat) (q : Squad), s.cell? c.id = some c → c.squads[sq]? = some q → q.recalled = true → c.resident = true →
      ctxLive s c.ctx = true → squadRoom s c = true → ∃ s' q', exec (.recall c.id sq) s = .next s' ∧ { s' with cells := s.cells } = s ∧ s'.squad? c.id sq = some q' ∧ q'.state = .active ∧ q'.partition < 4 ∧ q'.k = q.k
        ∧ ∀ (l : Nat) (th : Thread), q.threads[l]? = some th → ∃ th', q'.threads[l]? = some th' ∧ th'.v = th.v ∧ th'.p = th.p ∧ th'.w = th.w ∧ th'.pc = th.pc
          ∧ th'.state = (if th.state = .saved then th.savedState else th.state))

/-- R320, R346: a cell whose last squad has retired, with nothing of it in flight and its writes published, leaves; its kernel counts it and is COMPLETE with the last. -/
def Sys2Proof.Claims.CellExits : Prop := ∀ (s : State) (c : Cell) (k : Kernel), s.cell? c.id = some c → cellDone s c = true → s.kernel? c.kernel = some k →
  (∀ x ∈ c.xps, x.state = .idle ∨ x.state = .exited ∨ x.state = .killed) → saveDrained s [c.id] = true →
  (∀ d ∈ s.cores, ∀ q ∈ d.tcopy, q.cell ≠ c.id) → c.view = [] → viewHeld s [c.id] = none → publishedOpen s c.id = false → k.desc.bmapRef = 0 →
  k.state = .running → k.doomed = false →
  ∃ s', exec (.cellExit c.id) s = .next s' ∧ (k.code = 0 → s'.mem = s.mem) ∧ (∀ d, s'.cell? c.id = some d → d.state = .exited ∧ d.squads = [] ∧ d.slots = [] ∧ d.xps = [])
    ∧ ∃ k', s'.kernel? k.id = some k' ∧ k'.exited = k.exited ++ [(c.index, c.core)]
      ∧ (k.exited.length + 1 < k.count → k'.state = .running)
      ∧ (k.exited.length + 1 = k.count → k.code = 0 → k'.state = .complete)

/-! ## Contexts -/

namespace Sys2Proof.Claims

/-- A command answers a status and does nothing else. -/
def Answers (i : Instr) (s : State) (c : Cmd) (code : Nat) : Prop := exec i s = .next { s with out := s.out ++ [.status c code, .irqCommand] }
/-- A command on context x, which is not being moved: in the states given P holds, and in every other, or without the context, it answers 1 (R282). -/
def OnContext (i : Nat → Instr) (c : Cmd) (states : List CtxState) (P : State → Context → Prop) : Prop :=
  ∀ (s : State) (id : Nat),
    (s.ctx? id = none → Answers (i id) s c 1)
    ∧ ∀ x, s.ctx? id = some x → x.busy = false → (x.state ∉ states → Answers (i id) s c 1) ∧ (x.state ∈ states → P s x)
/-- The command leaves t, with its status. -/
def Leaves (i : Instr) (s : State) (c : Cmd) (code : Nat) (t : State) : Prop := exec i s = .next { t with out := t.out ++ [.status c code, .irqCommand] }

end Sys2Proof.Claims

/-- R277, R279, R282: CTX_CREATE from a descriptor that keeps its rules, CTX_BIND to a union of device partitions, CTX_UNBIND once every user half
can be read, and CTX_FREE, each with its statuses. -/
def Sys2Proof.Claims.ContextCommands : Prop :=
  (∀ (s : State) (b : List Byte), let id := byteField b 12 2
    (∀ x, s.ctx? id = some x → Answers (.ctxCreate b) s .ctxCreate 1)
    ∧ (s.ctx? id = none → parseContext b = none → Answers (.ctxCreate b) s .ctxCreate 2)
    ∧ (∀ c, s.ctx? id = none → parseContext b = some c →
        (c.light = true → 64 < c.btcount → Answers (.ctxCreate b) s .ctxCreate 2)
        ∧ ((c.light = true → c.btcount ≤ 64) → Leaves (.ctxCreate b) s .ctxCreate 0 { s with contexts := s.contexts ++ [c] })
        ∧ c.id = id ∧ c.state = .built ∧ c.btref.toNat = byteField b 0 8 ∧ c.btcount = byteField b 8 4 ∧ c.tvec.toNat = byteField b 16 4 ∧ c.fring.toNat = byteField b 40 8
        ∧ c.frsize = byteField b 48 4 ∧ c.fseq = 1 ∧ c.collisions = 0 ∧ 1 ≤ c.btcount ∧ c.btcount ≤ 2 ^ 20 ∧ c.tvec.toNat % 4 = 0))
  ∧ (∀ pset : BitVec 24, OnContext (fun id => .ctxBind id pset) .ctxBind [.built] (fun s x =>
      (isUnion s pset = true → Leaves (.ctxBind x.id pset) s .ctxBind 0 (s.modCtx x.id (fun c => { c with state := .bound, pset := pset })))
      ∧ (isUnion s pset = false → Answers (.ctxBind x.id pset) s .ctxBind 3)))
  ∧ OnContext .ctxUnbind .ctxUnbind [.bound] (fun s x => (∀ a ∈ s.asks, ∀ q ∈ s.queues, q.ctx = x.id → a.who ≠ .queue q.qid) → unbindAsks s x.id = [] →
      ((∃ q ∈ s.queues, q.ctx = x.id ∧ userWidx s q ≠ q.ridx) → Answers (.ctxUnbind x.id) s .ctxUnbind 1)
      ∧ ((∀ q ∈ s.queues, q.ctx = x.id → userWidx s q = q.ridx) →
          Leaves (.ctxUnbind x.id) s .ctxUnbind 0 (s.modCtx x.id (fun c => { c with state := .built, pset := 0 }))))
  ∧ OnContext .ctxFree .ctxFree [.dead] (fun s x =>
      Leaves (.ctxFree x.id) s .ctxFree 0 { s with contexts := s.contexts.filter (fun c => c.id ≠ x.id), kernels := s.kernels.filter (fun k => k.ctx ≠ x.id) })

/-- R283, R479: CTX_SWAP asks every running gang of its partition to yield; with all of them saved, the resident cells and those in the caves change places. -/
def Sys2Proof.Claims.Swap : Prop :=
  (∀ (s : State) (p : Nat), s.partitions.length ≤ p → Answers (.ctxSwap p) s .ctxSwap 2)
  ∧ (∀ (s : State) (p : Nat), p < s.partitions.length → (∀ i ∈ swapCtxs s p, ∃ x, s.ctx? i = some x ∧ x.busy = false) → (s.cells.map (·.id)).Nodup →
      let moves (i : Nat) : Prop := ∃ x, s.ctx? i = some x ∧ (x.state = .running ∨ x.state = .caved)
      ((∃ i ∈ swapCtxs s p, ¬ moves i) → Answers (.ctxSwap p) s .ctxSwap 1)
      ∧ ((∀ i ∈ swapCtxs s p, moves i) → ∃ s', exec (.ctxSwap p) s = .next s' ∧ s'.swaps = s.swaps ++ [p] ∧ s'.out = s.out
        ∧ (∀ i ∈ swapCtxs s p, (s'.ctx? i).map (·.busy) = some true)
        ∧ (∀ c ∈ partCells s p, c.place = .core → c.state = .running → ∃ c', s'.cell? c.id = some c' ∧ c'.preq = true ∧ c'.preqAt = s.clk ∧ c'.state = .draining)))
  ∧ (∀ (s : State) (p : Nat), p ∈ s.swaps → (∀ c ∈ partCells s p, ctxLive s c.ctx = true) → (s.cells.map (·.id)).Nodup →
      let res (c : Cell) : Prop := c.place = .core ∨ c.place = .inPlace
      ((∃ c ∈ partCells s p, res c ∧ c.state ≠ .saved) → exec (.caveExchange p) s = .next s)
      ∧ ((∀ c ∈ partCells s p, res c → c.state = .saved) → ∃ s', exec (.caveExchange p) s = .next s' ∧ s'.swaps = s.swaps.erase p
        ∧ s'.out = s.out ++ [.status .ctxSwap 0, .irqCommand]
        ∧ ∀ c ∈ partCells s p, ∃ c', s'.cell? c.id = some c' ∧ c'.core = c.core ∧ c'.scratch = c.scratch ∧ (res c → c'.place = .caved) ∧ (c.place = .caved → c'.place = .core)))

/-- R285: CTX_PARK asks the context's gangs to yield; once all are saved they are parked where the area holds their images; CTX_UNPARK places every parked gang or none. -/
def Sys2Proof.Claims.Parking : Prop :=
  OnContext .ctxPark .ctxPark [.running, .caved] (fun s x =>
      (x.park = 0 → Answers (.ctxPark x.id) s .ctxPark 3)
      ∧ (x.park ≠ 0 → (s.cells.map (·.id)).Nodup → ∃ s', exec (.ctxPark x.id) s = .next s' ∧ s'.out = s.out
        ∧ s'.ctx? x.id = some { x with busy := true, parking := true }
        ∧ ∀ c ∈ ctxCells s x.id, c.place = .core → c.state = .running → ∃ c', s'.cell? c.id = some c' ∧ c'.preq = true ∧ c'.state = .draining))
  ∧ (∀ (s : State) (x : Context), s.ctx? x.id = some x → x.parking = true → (s.cells.map (·.id)).Nodup →
      ((∃ c ∈ ctxCells s x.id, c.state ≠ .saved) → exec (.parkCopyDone x.id) s = .next s)
      ∧ ((∀ c ∈ ctxCells s x.id, c.state = .saved) → ctxLive s x.id = true → ctxCells s x.id ≠ [] →
          parkUsed s x.id + (((ctxCells s x.id).filter (fun c => c.place ≠ .parked)).map imageBytes).sum ≤ 4096 * x.parksize →
          ∃ s' x', exec (.parkCopyDone x.id) s = .next s' ∧ s'.out = s.out ++ [.status .ctxPark 0, .irqCommand] ∧ s'.ctx? x.id = some x' ∧ x'.state = .parked ∧ x'.busy = false
            ∧ x'.parking = false ∧ ∀ c ∈ ctxCells s x.id, s'.cell? c.id = some { c with place := .parked }))
  ∧ OnContext .ctxUnpark .ctxUnpark [.parked] (fun s x =>
      let gangs := dedup (((ctxCells s x.id).filter (fun c => c.place = .parked)).map (·.gang))
      (∀ t, gangs.foldl (fun (o : Option State) g => o.bind (fun s => restoreGang s g)) (some s) = some t →
        Leaves (.ctxUnpark x.id) s .ctxUnpark 0 (settleCtx t x.id))
      ∧ (gangs.foldl (fun (o : Option State) g => o.bind (fun s => restoreGang s g)) (some s) = none → Answers (.ctxUnpark x.id) s .ctxUnpark 3))

/-- R288: CTX_KILL stops every thread, queue, kernel and transfer context of a context; with its transfers landed, but for
those that an unreachable peer holds (R416), it is DEAD and nothing of it is left. -/
def Sys2Proof.Claims.Teardown : Prop :=
  OnContext .ctxKill .ctxKill [.built, .bound, .running, .caved, .parked, .faulted] (fun s x =>
      (s.queues.map (·.qid)).Nodup → (s.kernels.map (·.id)).Nodup →
      ∃ s', exec (.ctxKill x.id) s = .next s' ∧ (∃ o, s'.out = s.out ++ o ++ [.status .ctxKill 0, .irqCommand]) ∧ (s'.ctx? x.id).map (·.state) = some .stopping
        ∧ (∀ q ∈ s'.queues, q.ctx = x.id → q.state = .stopped) ∧ (∀ k ∈ s'.kernels, k.ctx = x.id → k.ended = true)
        ∧ (∀ c ∈ s'.cells, c.ctx = x.id → c.state ≠ .exited → c.view = [] ∧ (∀ q ∈ c.squads, ∀ th ∈ q.threads, th.state = .stopped ∨ th.state = .exited)
            ∧ ∀ p ∈ c.xps, p.state = .idle ∨ p.state = .exited ∨ p.state = .killed)
        ∧ (∀ b ∈ s'.batches, b.ctx ≠ x.id) ∧ (∀ t ∈ s'.terms, ∀ y ∈ t.terms, y.ctx ≠ x.id) ∧ ∀ w ∈ s'.window, w.msg.pctx ≠ x.id)
  ∧ (∀ (s : State) (x : Context), s.ctx? x.id = some x → x.state = .stopping →
      let landing : Prop := (∃ c ∈ ctxCells s x.id, c.runs.length ≠ (cutRuns s c).length)
        ∨ ∃ k ∈ s.cores, ∃ q ∈ k.tcopy, q.cell ∈ (ctxCells s x.id).map (·.id) ∧ cutCopy s q = false
      (landing → exec (.teardownComplete x.id) s = .next s)
      ∧ (¬ landing → ∃ s', exec (.teardownComplete x.id) s = .next s' ∧ s'.mem = s.mem ∧ (s'.ctx? x.id).map (·.state) = some .dead ∧ (∀ c ∈ s'.cells, c.ctx ≠ x.id)
        ∧ (∀ c ∈ s.cells, c.ctx ≠ x.id → c ∈ s'.cells) ∧ (∀ q ∈ s'.reqs, q.ctx ≠ x.id)
        ∧ (∀ e ∈ s'.late, ∀ c ∈ s.cells, c.id = e.t.cell → c.ctx ≠ x.id) ∧ (∀ j ∈ s'.copyJobs, j.ctx ≠ x.id) ∧ ∀ j ∈ s'.colls, j.ctx ≠ x.id))

/-! ## Queues and launches -/

namespace Sys2Proof.Claims

/-- Queue q, of a context that is served, stands with e at its head, READY, nothing holding it, and it is its turn (R281, R302, R315). -/
def Turn (s : State) (q : Queue) (e : Entry) : Prop :=
  s.queue? q.qid = some q ∧ q.head = some e ∧ q.state = .ready ∧ ctxServes s q = true ∧ heldBy s q e = false ∧ turnOf s q = true
/-- The entry has been issued (R299): RIDX has advanced, the head is empty and the queue looks for the next; its launch processor has issued now (R315). -/
def Issued (s t : State) (q : Queue) : Prop :=
  ∃ q', t.queue? q.qid = some q' ∧ q'.ridx = q.ridx + 1 ∧ q'.head = none ∧ q'.armed = false ∧ q'.rqcount = 0 ∧ q'.state = .idle ∧ q'.code = q.code
    ∧ (t.lps[q.lp]?).map (·.lastIssue) = (s.lps[q.lp]?).map (fun _ => some s.clk)
/-- An entry of queue q is open in t, or closed. -/
def openIn (t : State) (q : Queue) (entry : Nat) : Prop := ∃ q', t.queue? q.qid = some q' ∧ entry ∈ q'.open'
/-- The queue stops with a code and its head unconsumed (R293, R294). -/
def Errs (i : Instr) (s : State) (q : Queue) (code : Nat) : Prop :=
  ∃ t q', exec i s = .next t ∧ t.queue? q.qid = some q' ∧ q'.state = .error ∧ q'.code = code ∧ q'.ridx = q.ridx ∧ q'.head = none
/-- The queue holds its head (R302). -/
def Holds (i : Instr) (s : State) (q : Queue) (e : Entry) : Prop :=
  ∃ t q', exec i s = .next t ∧ t.queue? q.qid = some q' ∧ q'.state = .held ∧ q'.ridx = q.ridx ∧ q'.head = some e

end Sys2Proof.Claims

/-- R292, R296–R301: an IDLE queue is loaded: its user half is checked in order, and the entry whose SEQ is RIDX + 1 becomes its head. -/
def Sys2Proof.Claims.QueueLoads : Prop := ∀ (s : State) (q : Queue), s.queue? q.qid = some q →
  (q.state ≠ .idle ∨ ctxServes s q = false → exec (.queueWake q.qid) s = .next s)
  ∧ (q.state = .idle → ctxServes s q = true → lpRead s q q.uref 64 64 = .bad → Errs (.queueWake q.qid) s q 3)
  ∧ ∀ b, q.state = .idle → ctxServes s q = true → lpRead s q q.uref 64 64 = .bytes b s →
    (∀ c, userCode s q b = some c → Errs (.queueWake q.qid) s q c)
    ∧ (userCode s q b = none →
        let ring := BitVec.ofNat 64 (byteField b 8 8)
        let s1 := s.modQueue q.qid (fun q => { q with prio := min (byteField b 28 1 % 8) q.maxPrio, ringRef := ring })
        (byteField b 29 1 % 2 = 1 ∨ byteField b 0 8 = q.ridx → ∃ t q', exec (.queueWake q.qid) s = .next t ∧ t.queue? q.qid = some q' ∧ q'.state = .idle ∧ q'.woken = false ∧ q'.ridx = q.ridx)
        ∧ (∀ h b2 k, byteField b 29 1 % 2 = 0 → byteField b 0 8 ≠ q.ridx →
            lpRead s1 q (mkRef (refIndex ring) (refOff ring + 64 * (q.ridx % 2 ^ q.rsizeLog2))) 8 8 = .bytes h s1 →
            lpRead s1 q (mkRef (refIndex ring) (refOff ring + 64 * (q.ridx % 2 ^ q.rsizeLog2) + 8)) 56 8 = .bytes b2 s1 →
            byteField h 0 4 = (q.ridx + 1) % 2 ^ 32 → parseKind (h ++ b2) = some k →
            ∃ t q', exec (.queueWake q.qid) s = .next t ∧ t.queue? q.qid = some q' ∧ q'.state = .ready ∧ q'.ridx = q.ridx
              ∧ q'.head = some ⟨q.ridx, (byteField h 5 1).testBit 0, k⟩ ∧ q'.prio = min (byteField b 28 1 % 8) q.maxPrio))

/-- R302, R303, R308, R309: NOP, LAUNCH, XPLAUNCH and COPY at the head of a queue whose turn it is: held while what they wait for stands in the way, issued, or ended as a
refused launch with code 8. -/
def Sys2Proof.Claims.EntryIssue : Prop := ∀ (s : State) (q : Queue) (e : Entry),
  (s.queue? q.qid = some q → q.head = some e → q.state = .ready → ctxServes s q = true → heldBy s q e = true →
    Holds (.nopEntry q.qid) s q e ∧ Holds (.launch q.qid) s q e ∧ Holds (.xplaunch q.qid) s q e ∧ Holds (.copy q.qid) s q e ∧ Holds (.signal q.qid) s q e
      ∧ Holds (.collective q.qid) s q e)
  ∧ (s.queue? q.qid = some q → q.head = some e → q.state = .held → ctxServes s q = true → e.kind.holds = false →
      (heldBy s q e = false → ∃ t q', exec (.heldRelease q.qid) s = .next t ∧ t.queue? q.qid = some q' ∧ q'.state = .ready ∧ q'.head = some e)
      ∧ (heldBy s q e = true → exec (.heldRelease q.qid) s = .next s))
  ∧ (Turn s q e →
      (e.kind = .nop → ∃ t, exec (.nopEntry q.qid) s = .next t ∧ Issued s t q ∧ ∃ q', t.queue? q.qid = some q' ∧ q'.open' = q.open')
      ∧ (∀ d, e.kind = .launch d →
          (∀ t k, checkKernel (opened s q e) q e.index d none = .passed t k → ∃ u, exec (.launch q.qid) s = .next u ∧ u.kernels = t.kernels
            ∧ (∃ q', u.queue? q.qid = some q' ∧ q'.ridx = q.ridx + 1 ∧ q'.state = .idle ∧ q'.head = none))
          ∧ (∀ t, checkKernel (opened s q e) q e.index d none = .refused t → ∃ u q', exec (.launch q.qid) s = .next u ∧ u.kernels = t.kernels
            ∧ u.queue? q.qid = some q' ∧ q'.ridx = q.ridx + 1 ∧ q'.code = 8 ∧ e.index ∉ q'.open'))
      ∧ (∀ code st gx gy gz scr arg, e.kind = .xplaunch code st gx gy gz scr arg →
          ∀ t k, checkXpKernel (opened s q e) q e.index (xpDesc code st gx gy gz scr arg) = .passed t k → ∃ u, exec (.xplaunch q.qid) s = .next u ∧ u.kernels = t.kernels
            ∧ (∃ q', u.queue? q.qid = some q' ∧ q'.ridx = q.ridx + 1 ∧ q'.state = .idle ∧ q'.head = none))
      ∧ (∀ src dst n, e.kind = .copy src dst n → ∃ t, exec (.copy q.qid) s = .next t ∧ Issued s t q ∧ openIn t q e.index
          ∧ t.copyJobs = s.copyJobs ++ [⟨s.nextId, q.qid, q.lp, e.index, q.ctx, src, dst, n, 0, []⟩]))

/-- R317–R319, R321: the check of a launch: a descriptor of legal fields that no refusal of R319 meets makes a PENDING kernel of its grid; any other a CANCELLED one with
CODE 1. -/
def Sys2Proof.Claims.KernelCheck : Prop := ∀ (s : State) (q : Queue) (c : Context) (entry : Nat) (r : Dword) (b : List Byte),
  s.ctx? q.ctx = some c → relaunchHeld s q.ctx r = false →
  (lpRead s q r 128 64 = .bad → ∃ t k, checkKernel s q entry r none = .refused t ∧ t.kernels = s.kernels ++ [k] ∧ k.id = s.nextKernel ∧ k.state = .cancelled ∧ k.code = 1)
  ∧ (lpRead s q r 128 64 = .bytes b s →
      let d := descFields b (byteField b 12 2) (byteField b 14 2) (byteField b 16 2)
      let legal : Prop := descLegal b (byteField b 12 2) (byteField b 14 2) (byteField b 16 2) = true ∧ descRefused s q c d (d.shape.xp ≠ 0) = false
      (¬ legal → ∃ t k, checkKernel s q entry r none = .refused t ∧ t.kernels = s.kernels ++ [k] ∧ k.id = s.nextKernel ∧ k.state = .cancelled ∧ k.code = 1)
      ∧ (∀ a ab, legal → d.argRef = 0 → d.bmapRef = 0 → d.prodDesc = 0 → checkBuffer s q.ctx needExec (refIndex d.codeRef) d.entry 4 4 = .ok a → a.isRemote = false → ab = List.replicate 16 0 →
          ∃ t k, checkKernel s q entry r none = .passed t k.id ∧ t = tellKernel { s with kernels := s.kernels ++ [k], nextKernel := s.nextKernel + 1 } k.id
            ∧ k.id = s.nextKernel ∧ k.state = .pending ∧ k.desc = d ∧ k.ctx = q.ctx ∧ k.qid = q.qid ∧ k.entry = entry ∧ k.args = ab ∧ k.prio = q.prio
            ∧ k.exited = [] ∧ k.strict = (d.det || c.strict) ∧ k.unplaced = List.range (d.gx * d.gy * d.gz / d.gcells)
            ∧ k.pset = (if q.ppart = 0 then BitVec.allOnes 24 else q.ppart) ∧ k.clusters s = k.pset &&& c.pset ∧ k.deadline = min (if d.deadline = 0 then 20000 else d.deadline) c.dlmax))

/-- R304–R307: LAUNCH_IND starts its prologue with the registers of R305, and once it has ended goes by the disposition in k0; a prologue that runs on past 4,096 clocks
from its first fetch ends its entry with code 0Ah. -/
def Sys2Proof.Claims.Prologues : Prop := ∀ (s : State) (q : Queue) (e : Entry) (d pr : Dword) (pe : Word) (pm : Dword) (l : LaunchProc),
  e.kind = .launchInd d pr pe pm → s.lps[q.lp]? = some l →
  (Turn s q e → l.prologue = none → q.pending = none → ∀ b, lpRead s q d 128 64 = .bytes b s → byteField b 40 8 = 0 →
      ∃ t p, exec (.launchInd q.qid) s = .next t ∧ (t.lps[q.lp]?).map (·.prologue) = some (some p) ∧ p.qid = q.qid ∧ p.ctx = q.ctx ∧ p.ended = none ∧ p.startAt = none
        ∧ p.pc = BitVec.ofNat 32 (refOff pr) + pe ∧ p.p = 0 ∧ p.descRef = d ∧ t.queues = s.queues
        ∧ p.k = [0, BitVec.ofNat 64 e.index, BitVec.ofNat 64 q.rqcount, mkRef (refIndex q.ringRef) (refOff q.ringRef + 64 * (e.index % 2 ^ q.rsizeLog2)), pm] ++ List.replicate 19 0
          ++ [BitVec.ofNat 64 q.ctx] ++ List.replicate 7 0 ++ List.replicate 16 0
          ++ [BitVec.ofNat 64 (byteField b 12 2), BitVec.ofNat 64 (byteField b 14 2), BitVec.ofNat 64 (byteField b 16 2)] ++ List.replicate 9 0)
  ∧ (s.queue? q.qid = some q → q.head = some e → ∀ p, l.prologue = some p → p.qid = q.qid →
      (p.ended = none → exec (.launchInd q.qid) s = .next s)
      ∧ (p.ended = some .exit → p.k.getD 0 0 = 1 → ∃ t, exec (.launchInd q.qid) s = .next t ∧ t.kernels = s.kernels ∧ (t.lps[q.lp]?).map (·.prologue) = some none
          ∧ ∃ q', t.queue? q.qid = some q' ∧ q'.ridx = q.ridx + 1 ∧ q'.head = none ∧ q'.code = q.code)
      ∧ (p.ended = some .exit → 2 < (p.k.getD 0 0).toNat → ∃ t q', exec (.launchInd q.qid) s = .next t ∧ t.kernels = s.kernels
          ∧ t.queue? q.qid = some q' ∧ q'.ridx = q.ridx + 1 ∧ q'.head = none ∧ q'.code = 0x0B)
      ∧ (∀ c a, p.ended = some (.fault c a) → ∃ t q', exec (.launchInd q.qid) s = .next t ∧ t.kernels = s.kernels
          ∧ t.queue? q.qid = some q' ∧ q'.ridx = q.ridx + 1 ∧ q'.head = none ∧ q'.code = 9)
      ∧ (p.startAt = none → exec (.prologueBudget q.lp) s = .next s)
      ∧ (∀ t0, p.startAt = some t0 → s.clk ≤ t0 + 4096 → exec (.prologueBudget q.lp) s = .next s)
      ∧ (∀ t0, p.ended = none → p.startAt = some t0 → t0 + 4096 < s.clk → ∃ t q', exec (.prologueBudget q.lp) s = .next t ∧ (t.lps[q.lp]?).map (·.prologue) = some none
          ∧ t.queue? q.qid = some q' ∧ q'.ridx = q.ridx + 1 ∧ q'.head = none ∧ q'.code = 0x0A))

/-- R309: COPY moves its bytes in ascending order and completes its entry; one whose next byte fails its checks ends it with code 0Ch. -/
def Sys2Proof.Claims.Copies : Prop := ∀ (s : State) (j : CopyJob) (q : Queue), s.copyJobs.find? (fun x => x.id == j.id) = some j → s.queue? j.qid = some q →
  asking s (.copy j.id) = false → ctxLive s j.ctx = true →
  let gone (t : State) : Prop := t.copyJobs = s.copyJobs.filter (fun x => x.id ≠ j.id) ∧ ∃ q', t.queue? j.qid = some q' ∧ q'.open' = q.open'.filter (· ≠ j.entry)
  (j.bytes ≤ j.landed → ∃ t, exec (.copyComplete j.id) s = .next t ∧ t.mem = s.mem ∧ gone t)
  ∧ (j.landed < j.bytes → (j.held = [] ∧ copyTake s j [64, 16, 4, 2, 1] = .bad) ∨ (j.held ≠ [] ∧ copyPut s j [64, 16, 4, 2, 1] = .bad) →
      ∃ t q', exec (.copyComplete j.id) s = .next t ∧ gone t ∧ t.queue? j.qid = some q' ∧ q'.code = 0x0C)
  ∧ (∀ n a b, n ∈ [64, 16, 4, 2, 1] → j.landed + n = j.bytes → j.held = [] →
      checkBuffer s j.ctx needLoad (refIndex j.src) ((refOff j.src + j.landed : Nat) : Int) n 1 = .ok a → a.isRemote = false → (homeRead s none a).1.length = n →
      let s1 := dropAsks (homeRead s none a).2 (.copy j.id)
      checkBuffer s1 j.ctx needStore (refIndex j.dst) ((refOff j.dst + j.landed : Nat) : Int) n 1 = .ok b → b.isRemote = false →
      ∃ t, exec (.copyComplete j.id) s = .next t ∧ t.mem = (homeWrite s1 none b (homeRead s none a).1).mem ∧ gone t)
  ∧ (∀ t, j.landed < j.bytes → j.held = [] → copyTake s j [64, 16, 4, 2, 1] = .waits t → exec (.copyComplete j.id) s = .next (setCopy t j))

/-- R310–R313: QFENCE, WAIT and TIMED hold their queue until what they name has come, and SIGNAL stores its stamp once every earlier entry has completed. -/
def Sys2Proof.Claims.QueueConditions : Prop := ∀ (s : State) (q : Queue) (e : Entry), s.queue? q.qid = some q → q.head = some e → ctxServes s q = true →
  let arms (i : Instr) : Prop := ∃ t q', exec i s = .next t ∧ t.queue? q.qid = some q' ∧ q'.state = .held ∧ q'.armed = true ∧ q'.heldAt = s.clk ∧ q'.head = some e
  let frees (i : Instr) : Prop := ∃ t q', exec i s = .next t ∧ t.queue? q.qid = some q' ∧ (q'.state = .ready ∧ q'.head = some e ∨ q'.state = .idle ∧ q'.ridx = q.ridx + 1 ∧ q'.head = none)
  (∀ l, e.kind = .qfence l → (q.state = .ready ∨ q.state = .held) → q.armed = false →
      ((∀ x ∈ l, ∃ p, s.queue? x.1 = some p ∧ p.ctx = q.ctx) → arms (.qfence q.qid))
      ∧ ((∃ x ∈ l, ∀ p, s.queue? x.1 = some p → p.ctx ≠ q.ctx) → Errs (.qfence q.qid) s q 7))
  ∧ (∀ l, e.kind = .qfence l → q.state = .held → q.armed = true → heldBy s q e = false →
      ((∀ x ∈ l, ∃ p, s.queue? x.1 = some p ∧ (p.qid = q.qid → ∀ i ∈ q.open', e.index ≤ i) ∧ (p.qid ≠ q.qid → x.2 ≤ p.ridx ∧ ∀ i ∈ p.open', x.2 ≤ i)) →
        frees (.qfenceRelease q.qid))
      ∧ ((∃ x ∈ l, ∃ p, s.queue? x.1 = some p ∧ p.qid ≠ q.qid ∧ (p.ridx < x.2 ∨ ∃ i ∈ p.open', i < x.2)) → exec (.qfenceRelease q.qid) s = .next (endRun s q)))
  ∧ (∀ a v c n, e.kind = .wait a v c n → (q.state = .ready ∨ q.state = .held) → q.armed = false → arms (.wait q.qid))
  ∧ (∀ a v c n b, e.kind = .wait a v c n → q.state = .held → q.armed = true → heldBy s q e = false → lpRead s q a 8 8 = .bytes b s →
      let x := leNat b % 2 ^ 64
      let holds : Prop := (c = 0 → v.toNat ≤ x) ∧ (c = 1 → x = v.toNat) ∧ (c = 2 → x ≠ v.toNat)
      c ≤ 2 → (holds → frees (.waitRelease q.qid) ∧ exec (.waitTimeout q.qid) s = .next s)
        ∧ (¬ holds → exec (.waitRelease q.qid) s = .next (endRun (dropAsks s (.queue q.qid)) q)
          ∧ (n ≠ 0 → q.heldAt + 1000 * n ≤ s.clk → Errs (.waitTimeout q.qid) s q 6)
          ∧ (n = 0 ∨ s.clk < q.heldAt + 1000 * n → exec (.waitTimeout q.qid) s = .next s)))
  ∧ (∀ x n, e.kind = .timed x n 0 → (q.state = .ready ∨ q.state = .held) → q.armed = false → arms (.timed q.qid))
  ∧ (∀ x n, e.kind = .timed x n 0 → (q.state = .ready ∨ q.state = .held) → q.armed = true → heldBy s q e = false → q.sample = none → proHolds s q.lp = false → paced s q.lp = false →
      ((x * 10 ^ 9 + n : Int) ≤ s.clk + s.ptpOffset → ∃ t q', exec (.timedRelease q.qid) s = .next t ∧ t.queue? q.qid = some q' ∧ q'.ridx = q.ridx + 1 ∧ q'.head = none
        ∧ q'.timedAt = some (s.clk, q.weight))
      ∧ ((s.clk : Int) + s.ptpOffset < x * 10 ^ 9 + n → exec (.timedRelease q.qid) s = .next (endRun s q)))
  ∧ (∀ st v a, e.kind = .signal st v → Turn s q e → checkBuffer s q.ctx needStoreImm (refIndex st) (refOff st) 8 8 = .ok a → a.isRemote = false →
      exec (.signal q.qid) s = .next (consume (served (homeWrite s none a (leBytes 8 v.toNat)) q) q) ∧ q.open' = [])
  ∧ (∀ st v c i, e.kind = .signal st v → Turn s q e → checkBuffer s q.ctx needStoreImm (refIndex st) (refOff st) 8 8 = .bad c i → Errs (.signal q.qid) s q 4)

/-- R314, R424–R426: a collective is taken when its descriptor is legal and its partners can be reached (R412), and they are told of it; it fails with code 4 where one of them tells
something else or has ended it, and moves no data before all have told the same; one of a single package writes the
sums of its sources; one of several sends its own sums, awaits its partners', and completes when what it wrote has landed and they have acknowledged what it sent. -/
def Sys2Proof.Claims.Collectives : Prop :=
  (∀ (s : State) (q : Queue) (e : Entry) (r : Dword) (b : List Byte), Turn s q e → e.kind = .collective r → lpRead s q r 64 1 = .bytes b s →
      (parseColl b q e = none → Errs (.collective q.qid) s q 4)
      ∧ (∀ j tb, parseColl b q e = some j → lpRead s q (BitVec.ofNat 64 (byteField b 16 8)) (2 * j.nrank) 1 = .bytes tb s →
          let j1 : CollJob := { j with ranks := (List.range j.nrank).map (fun g => byteField tb (2 * g) 2) }
          (j1.reaches s = false → Holds (.collective q.qid) s q e)
          ∧ (j1.reaches s = true → ∃ t, exec (.collective q.qid) s = .next t ∧ Issued s t q ∧ openIn t q e.index ∧ t.colls = s.colls ++ [j1]
            ∧ j1.agreed = [] ∧ j1.failed = false ∧ j1.shards = [] ∧ j1.acks = [] ∧ j1.own = none ∧ j1.out = none
            ∧ (1 < j.nrank → Output.offer j.groupId j.seq j1.offer ∈ t.out))))
  ∧ (∀ (j : CollJob) (p : PeerShards),
      ((j.groupId ≠ p.group ∨ j.seq ≠ p.seq) → j.take p = j)
      ∧ (j.groupId = p.group → j.seq = p.seq →
        { j.take p with agreed := j.agreed, failed := j.failed, shards := j.shards, acks := j.acks } = j ∧ (j.take p).acks = j.acks ++ p.acks
        ∧ (∀ g, g ∈ (j.take p).agreed ↔ g ∈ j.agreed ∨ (g, j.offer) ∈ p.offers)
        ∧ ((j.take p).failed = true ↔ j.failed = true ∨ p.failed = true ∨ ∃ o ∈ p.offers, o.2 ≠ j.offer)
        ∧ ∀ x, x ∈ (j.take p).shards ↔ x ∈ j.shards ∨ (x ∈ p.shards ∧ x.2.length = j.peerElems)))
  ∧ (∀ (s : State) (j : CollJob) (rest : List CollJob) (q : Queue) (peers : PeerShards), s.colls = j :: rest → ctxLive s j.ctx = true → s.queue? j.qid = some q →
      j.reaches s = true → (shardsSay peers = true → linkOpen s = true) →
      let j1 := j.take peers
      let rest1 := rest.map (fun x => x.take peers)
      let goes (t : State) : Prop := exec (.collectiveComplete peers) s = .next t
      let agree : Prop := j1.failed = false ∧ ∀ g < j.nrank, g ≠ j.myrank → g ∈ j1.agreed
      (j1.failed = true → q.state ≠ .stopped → ∃ t q', goes t ∧ t.colls = rest1 ∧ t.queue? j.qid = some q' ∧ q'.state = .error ∧ q'.code = 4
        ∧ q'.open' = q.open'.filter (· ≠ j.entry))
      ∧ (j1.failed = false → (∃ g < j.nrank, g ≠ j.myrank ∧ g ∉ j1.agreed) → goes { s with colls := j1 :: rest1 })
      ∧ (∀ own s1 t0, agree → j.nrank = 1 → j.myrank = 0 → j.own = none → j.out = none → localSums { s with colls := j1 :: rest1 } j1 = .ok own s1 →
        writeOutput j1 (dropAsks s1 .coll) (collOutput j1 own j1.shards) = .done t0 →
        goes (completeEntry (dropAsks { t0 with colls := rest1 } .coll) j.qid j.entry))
      ∧ (∀ own s1, agree → 1 < j.nrank → (∃ g < j.nrank, g ≠ j.myrank ∧ ∀ p ∈ j1.shards, p.1 ≠ g) → j.own = none → j.out = none →
        localSums { s with colls := j1 :: rest1 } j1 = .ok own s1 →
        goes { (dropAsks s1 .coll).emit (.contribution j.groupId j.seq own) with colls := { j1 with own := some own } :: rest1 })
      ∧ (∀ own, agree → (∃ g < j.nrank, g ≠ j.myrank ∧ ∀ p ∈ j1.shards, p.1 ≠ g) → j.own = some own → j.out = none →
        goes { s with colls := { j1 with own := some own } :: rest1 })
      ∧ (agree → j.out = some [] →
        ((∀ g < j.nrank, g ≠ j.myrank → g ∈ j1.acks) → goes (completeEntry (dropAsks { s with colls := rest1 } .coll) j.qid j.entry))
        ∧ ((∃ g < j.nrank, g ≠ j.myrank ∧ g ∉ j1.acks) → goes { s with colls := j1 :: rest1 })))
  ∧ (∀ (dt : Nat) (a b : Dword), (dt = 3 → collOp dt 0 a b = BitVec.ofNat 64 ((a.toNat + b.toNat) % 2 ^ 32)) ∧ (dt = 4 → collOp dt 0 a b = a + b))

/-- R291, R295: Q_CREATE, Q_RESET and Q_DESTROY. -/
def Obligations.QueueCommands : Prop :=
  (∀ (s : State) (b : List Byte), let id := byteField b 0 2 % 2 ^ 10
    (s.ctx? id = none → Answers (.qCreate b) s .qCreate 1)
    ∧ ∀ c, s.ctx? id = some c →
      (c.state ≠ .bound → c.state ≠ .running → c.state ≠ .caved → c.state ≠ .parked → Answers (.qCreate b) s .qCreate 1)
      ∧ (ctxLive s id = true → parseShadow b = none → Answers (.qCreate b) s .qCreate 2)
      ∧ (∀ q, ctxLive s id = true → parseShadow b = some q → q.ppart &&& ~~~c.pset = 0 →
          (∀ p, s.queue? q.qid = some p → Answers (.qCreate b) s .qCreate 3)
          ∧ (s.queue? q.qid = none → (s.queues.filter (fun x => x.lp = q.lp)).length < 1024 →
              ∃ t q', exec (.qCreate b) s = .next t ∧ (∃ o, t.out = s.out ++ o ++ [.status .qCreate 0, .irqCommand]) ∧ t.queue? q.qid = some q' ∧ q'.state = .idle ∧ q'.ridx = 0 ∧ q'.head = none
                ∧ q'.qid = byteField b 2 2 ∧ q'.ctx = byteField b 0 2 ∧ q'.rsizeLog2 = byteField b 4 1 ∧ q'.uref.toNat = byteField b 16 8 ∧ q'.lp = byteField b 7 1)))
  ∧ (∀ (s : State) (qid : Nat), s.queue? qid = none → (∀ k, Answers (.qReset qid k) s .qReset 1) ∧ Answers (.qDestroy qid) s .qDestroy 1)
  ∧ (∀ (s : State) (q : Queue) (skip : Bool), s.queue? q.qid = some q → (∀ l p, s.lps[q.lp]? = some l → l.prologue = some p → p.qid ≠ q.qid) →
      (q.state ≠ .error → Answers (.qReset q.qid skip) s .qReset 1)
      ∧ (q.state = .error → ∃ t q', exec (.qReset q.qid skip) s = .next t ∧ (∃ o, t.out = s.out ++ o ++ [.status .qReset 0, .irqCommand]) ∧ t.queue? q.qid = some q' ∧ q'.state = .idle
          ∧ q'.ridx = (if skip then q.ridx + 1 else q.ridx))
      ∧ ∃ t, exec (.qDestroy q.qid) s = .next t ∧ t.queue? q.qid = none ∧ (∃ o, t.out = s.out ++ o ++ [.status .qDestroy 0, .irqCommand]))

/-! ## Buffers and pages -/

namespace Sys2Proof.Claims

/-- A command on memory that names a context (R401): status 1 without a context that is not stopped; else P. -/
def OnTables (i : Instr) (c : Cmd) (ctx : Nat) (P : State → Context → Prop) : Prop := ∀ s : State,
  (s.ctx? ctx = none → Answers i s c 1)
  ∧ ∀ x, s.ctx? ctx = some x →
    (x.state = .stopping ∨ x.state = .faulted ∨ x.state = .dead → Answers i s c 1)
    ∧ (x.state ≠ .stopping → x.state ≠ .faulted → x.state ≠ .dead → P s x)
/-- The same for a command that names a buffer: status 2 for an index beyond the table (R401). -/
def OnBuffer (i : Instr) (c : Cmd) (ctx index : Nat) (P : State → Context → Prop) : Prop :=
  OnTables i c ctx (fun s x => (x.btcount ≤ index → Answers i s c 2) ∧ (index < x.btcount → P s x))
/-- The buffer table holds e at an index. -/
def holdsBt (x : Context) (index : Nat) (e : BtEntry) : Prop := (x.bt.find? (fun y => y.1 == index)).map (·.2) = some e
/-- Nothing in flight is for the page: its residency can end at once (R400). -/
def quiet (s : State) (root page : Nat) : Prop :=
  (∀ e ∈ s.late, (root, page) ∉ e.access.pages) ∧ (∀ q ∈ s.reqs, (root, page) ∉ q.pages) ∧ (∀ c ∈ s.cells, ∀ r ∈ c.runs, r.onPage root page = false) ∧ (∀ t ∈ s.terms, ∀ y ∈ t.terms, (root, page) ∉ y.pages)
    ∧ ∀ b ∈ s.batches, (root, page) ∉ b.pages
/-- The page reads as p in t, and every other page as in s. -/
def onlyPage (s t : State) (root page : Nat) (p : PageEntry) : Prop :=
  t.page? root page = some p ∧ ∀ r g, (r, g) ≠ (root, page) → t.page? r g = s.page? r g
/-- A command ends with its status, after output o. -/
def Ends' (t s : State) (c : Cmd) (code : Nat) (o : List Output) : Prop := t.out = s.out ++ o ++ [.status c code, .irqCommand]

end Sys2Proof.Claims

/-- R390, R398, R399, R401, R403: BT_SET, PG_MAP, PG_UNMAP, PG_POOL and PG_SCAN. -/
def Sys2Proof.Claims.PageCommands : Prop :=
  (∀ ctx index b, OnBuffer (.btSet ctx index b) .btSet ctx index (fun s x =>
      (parseBt b = none → Answers (.btSet ctx index b) s .btSet 2)
      ∧ (∀ e, parseBt b = some e →
          ((∃ p ∈ entryPages s e, pageFits e p = false) → Answers (.btSet ctx index b) s .btSet 2)
          ∧ (∀ o, holdsBt x index o → (o.ptroot ≠ e.ptroot ∨ o.rvalid ≠ e.rvalid) → entryPages s o ≠ [] → Answers (.btSet ctx index b) s .btSet 2)
          ∧ ((∀ p ∈ entryPages s e, pageFits e p = true) → (∀ o, holdsBt x index o → o.ptroot = e.ptroot ∧ o.rvalid = e.rvalid ∨ entryPages s o = []) →
            Leaves (.btSet ctx index b) s .btSet 0 { (s.modCtx ctx (fun c => { c with bt := c.bt.filter (fun y => y.1 ≠ index) ++ [(index, e)] })) with
              pages := s.pages.map (fun p => if e.rvalid = false ∧ p.root = e.ptroot then { p with ilv := e.ilv, ilvsel := e.ilvsel } else p) }))))
  ∧ (∀ b e, parseBt b = some e → e.valid = (byteField b 0 1).testBit 0 ∧ e.rd = (byteField b 0 1).testBit 1 ∧ e.wr = (byteField b 0 1).testBit 2
      ∧ e.at' = (byteField b 0 1).testBit 3 ∧ e.ex = (byteField b 0 1).testBit 4 ∧ e.owner = byteField b 4 2 ∧ e.length = byteField b 8 8 ∧ e.ptroot = byteField b 16 8
      ∧ e.length ≤ 2 ^ 44 ∧ e.ptroot % 2 ^ 16 = 0 ∧ (e.rvalid = true → e.ptroot = 0))
  ∧ (∀ ctx index page frame zero, OnBuffer (.pgMap ctx index page frame zero) .pgMap ctx index (fun s x => ∀ e, holdsBt x index e → e.valid = true → e.rvalid = false →
      (∀ p, s.page? e.ptroot page = some p → Answers (.pgMap ctx index page frame zero) s .pgMap 1)
      ∧ (s.page? e.ptroot page = none → (2 ^ 27 ≤ page ∨ frameFits e.ilv e.ilvsel frame = false) → Answers (.pgMap ctx index page frame zero) s .pgMap 2)
      ∧ (s.page? e.ptroot page = none → page < 2 ^ 27 → frameFits e.ilv e.ilvsel frame = true → ∃ t, exec (.pgMap ctx index page frame zero) s = .next t
          ∧ Ends' t s .pgMap 0 [] ∧ onlyPage s t e.ptroot page ⟨e.ptroot, page, .resident, false, false, frame, e.ilv, e.ilvsel, none, .resident, false⟩
          ∧ (zero = false → t.mem = s.mem)
          ∧ (zero = true → e.ilv ≠ 4 → Memory.wf s.mem = true → ∀ a, memRead t.mem a = if frame ≤ a ∧ a < frame + 2 ^ 17 then 0 else memRead s.mem a))))
  ∧ (∀ ctx index page, OnBuffer (.pgUnmap ctx index page) .pgUnmap ctx index (fun s x => ∀ e, holdsBt x index e → e.rvalid = false → e.ptroot ≠ 0 →
      (s.page? e.ptroot page = none → Answers (.pgUnmap ctx index page) s .pgUnmap 1)
      ∧ (∀ p, s.page? e.ptroot page = some p →
          (p.state = .migrating ∨ p.state = .expanding → Answers (.pgUnmap ctx index page) s .pgUnmap 1)
          ∧ (p.state = .resident ∨ p.state = .brined → quiet s e.ptroot page → ∃ t, exec (.pgUnmap ctx index page) s = .next t ∧ t.mem = s.mem
              ∧ t.page? e.ptroot page = none ∧ (∀ r g, (r, g) ≠ (e.ptroot, page) → t.page? r g = s.page? r g) ∧ Ends' t s .pgUnmap 0 [.returned p.loc]))))
  ∧ (∀ (ctx stack : Nat) (frames : List Nat), OnTables (.pgPool ⟨ctx, stack⟩ frames) .pgPool ctx (fun s _ =>
      ((12 ≤ stack ∨ ∃ f ∈ frames, f % 2 ^ 17 ≠ 0 ∨ f / 2 ^ 36 ≠ stack ∨ 64 * 10 ^ 9 < f % 2 ^ 36 + 2 ^ 17) → Answers (.pgPool ⟨ctx, stack⟩ frames) s .pgPool 2)
      ∧ (stack < 12 → (∀ f ∈ frames, f % 2 ^ 17 = 0 ∧ f / 2 ^ 36 = stack ∧ f % 2 ^ 36 + 2 ^ 17 ≤ 64 * 10 ^ 9) → ∃ t, exec (.pgPool ⟨ctx, stack⟩ frames) s = .next t ∧ Ends' t s .pgPool 0 []
          ∧ poolOf t stack = poolOf s stack ++ frames ∧ ∀ k, k ≠ stack → poolOf t k = poolOf s k)))
  ∧ (∀ ctx index first count clear, OnBuffer (.pgScan ctx index first count clear) .pgScan ctx index (fun s x => ∀ e, holdsBt x index e → e.rvalid = false → e.ptroot ≠ 0 →
      ∃ t bits, exec (.pgScan ctx index first count clear) s = .next t ∧ Ends' t s .pgScan 0 [.scan bits] ∧ bits.length = count
        ∧ (∀ i < count, ∀ p, s.page? e.ptroot (first + i) = some p → bits[i]? = some (p.dirty, p.accessed)
          ∧ t.page? e.ptroot (first + i) = some (if clear then { p with dirty := false, accessed := false } else p))))

/-- R398, R400: PG_BRINE and PG_MIGRATE begin, and a page's motion ends: its bytes are the same in its image or its new frame, and the old one is returned; an
expansion restores the image exactly. -/
def Sys2Proof.Claims.PageMotion : Prop :=
  (∀ ctx index page, OnBuffer (.pgBrine ctx index page) .pgBrine ctx index (fun s x => ∀ e, holdsBt x index e → e.valid = true → e.rvalid = false →
      (s.page? e.ptroot page = none → Answers (.pgBrine ctx index page) s .pgBrine 1)
      ∧ (∀ p, s.page? e.ptroot page = some p → (p.state ≠ .resident → Answers (.pgBrine ctx index page) s .pgBrine 1)
        ∧ (p.state = .resident → e.ilv ≠ 4 → quiet s e.ptroot page → ∃ t, exec (.pgBrine ctx index page) s = .next t ∧ t.mem = s.mem ∧ Ends' t s .pgBrine 0 []
          ∧ onlyPage s t e.ptroot page { p with state := .migrating, back := .brined, target := none }))))
  ∧ (∀ ctx index page frame, OnBuffer (.pgMigrate ctx index page frame) .pgMigrate ctx index (fun s x => ∀ e, holdsBt x index e → e.valid = true → e.rvalid = false →
      (s.page? e.ptroot page = none → Answers (.pgMigrate ctx index page frame) s .pgMigrate 1)
      ∧ (∀ p, s.page? e.ptroot page = some p → (p.state ≠ .resident → Answers (.pgMigrate ctx index page frame) s .pgMigrate 1)
        ∧ (p.state = .resident → frameFits e.ilv e.ilvsel frame = false → Answers (.pgMigrate ctx index page frame) s .pgMigrate 2)
        ∧ (p.state = .resident → frameFits e.ilv e.ilvsel frame = true → quiet s e.ptroot page → ∃ t, exec (.pgMigrate ctx index page frame) s = .next t ∧ t.mem = s.mem
          ∧ Ends' t s .pgMigrate 0 [] ∧ onlyPage s t e.ptroot page { p with state := .migrating, back := .resident, target := some frame }))))
  ∧ (∀ (s : State) (root page : Nat) (p : PageEntry), s.page? root page = some p → Memory.wf s.mem = true → p.ilv ≠ 4 →
      (p.state = .migrating → p.back = .brined → p.inImage = false → ckptReads s root page = false → (∀ b ∈ s.brine, b.addr ≠ s.brineNext) → ∃ t b, exec (.brineDone root page) s = .next t
        ∧ t.mem = s.mem ∧ t.out = s.out ++ [.returned p.loc] ∧ onlyPage s t root page { p with state := .brined, loc := s.brineNext, inImage := true }
        ∧ t.brine.find? (fun y => y.addr == s.brineNext) = some b ∧ ∀ i < 2 ^ 17, memRead b.bytes i = memRead s.mem (p.loc + i))
      ∧ (∀ f, p.state = .migrating → p.target = some f → p.inImage = false → ∃ t, exec (.migrateDone root page) s = .next t ∧ t.out = s.out ++ [.returned p.loc]
        ∧ onlyPage s t root page { p with state := .resident, loc := f, target := none } ∧ (∀ i < 2 ^ 17, memRead t.mem (f + i) = memRead s.mem (p.loc + i))
        ∧ ∀ a, (a < f ∨ f + 2 ^ 17 ≤ a) → memRead t.mem a = memRead s.mem a)
      ∧ (∀ f b, p.state = .expanding → p.target = some f → p.inImage = true → s.brine.find? (fun y => y.addr == p.loc) = some b → Memory.wf b.bytes = true →
        ∃ t, exec (.expansionDone root page) s = .next t ∧ onlyPage s t root page { p with state := .resident, loc := f, target := none, inImage := false }
        ∧ (∀ y ∈ t.brine, y.addr ≠ p.loc) ∧ (∀ i < 2 ^ 17, memRead t.mem (f + i) = memRead b.bytes i) ∧ ∀ a, (a < f ∨ f + 2 ^ 17 ≤ a) → memRead t.mem a = memRead s.mem a))

/-- R404: CKPT takes the dirty pages of its buffers, or all of them, in ascending index and page, one after the other; each is read where it stands,
a brined one as its image, and sent to the target; the result lists the pages that were POISONED (the order and the output: log entry 137). -/
def Obligations.Checkpoints : Prop :=
  (∀ (s : State) (ctx : Nat) (bs : List Nat) (target : Dword) (full : Bool), (s.ctx? ctx = none → Answers (.ckpt ctx bs target full) s .ckpt 1)
    ∧ ∀ x, s.ctx? ctx = some x → (x.state = .stopping ∨ x.state = .faulted ∨ x.state = .dead → Answers (.ckpt ctx bs target full) s .ckpt 1)
      ∧ (ctxLive s ctx = true → s.ckpt = none → (∃ i ∈ bs, x.btcount ≤ i) → Answers (.ckpt ctx bs target full) s .ckpt 2)
      ∧ (∀ e pe i p, ctxLive s ctx = true → s.ckpt = none → bs = [i] → i < x.btcount → btEntry? s ctx (refIndex target) = some pe → pe.rvalid = true → pe.wr = true → holdsBt x i e →
          e.rvalid = false → s.pages.filter (fun y => y.root == e.ptroot) = [p] → s.page? e.ptroot p.page = some p → p.root = e.ptroot → p.state = .resident →
          quiet s e.ptroot p.page →
          (full = true ∨ p.dirty = true → ∃ t, exec (.ckpt ctx bs target full) s = .next t ∧ t.out = s.out ∧ t.mem = s.mem
            ∧ t.ckpt = some ⟨ctx, [(i, e.ptroot, p.page)], true, full, [], target⟩
            ∧ onlyPage s t e.ptroot p.page { p with state := .migrating, back := .resident, target := none, dirty := false })
          ∧ (full = false → p.dirty = false → exec (.ckpt ctx bs target full) s = .next { s with ckpt := some ⟨ctx, [], false, full, [], target⟩ })))
  ∧ (∀ (s : State) (ctx : Nat) (x : Context) (bs : List Nat) (target : Dword) (full : Bool) (pe : BtEntry) (l : List (Nat × Nat × Nat)), s.ctx? ctx = some x →
      ctxLive s ctx = true → s.ckpt = none → (∀ i ∈ bs, i < x.btcount) → btEntry? s ctx (refIndex target) = some pe → pe.rvalid = true → pe.wr = true →
      (∀ i r g, (i, r, g) ∈ l ↔ i ∈ bs ∧ ∃ e, holdsBt x i e ∧ e.rvalid = false ∧ r = e.ptroot ∧ ∃ p ∈ s.pages, p.root = r ∧ p.page = g) →
      l.Pairwise (fun a b => a.1 < b.1 ∨ (a.1 = b.1 ∧ a.2.2 < b.2.2)) →
      exec (.ckpt ctx bs target full) s = exec .ckptPageRead { s with ckpt := some ⟨ctx, l, false, full, [], target⟩ })
  ∧ (∀ (s : State) (j : CkptJob) (i root page : Nat) (rest : List (Nat × Nat × Nat)), s.ckpt = some j → j.reading = false → j.pages = (i, root, page) :: rest →
      let skips (l : List (Nat × Nat)) : Prop := exec .ckptPageRead s = exec .ckptPageRead { s with ckpt := some { j with pages := rest, skipped := j.skipped ++ l } }
      (s.page? root page = none → skips [])
      ∧ ∀ p, s.page? root page = some p →
        (p.state = .poisoned → skips [(i, page)])
        ∧ (p.state = .expanding ∨ p.state = .migrating → exec .ckptPageRead s = .next s)
        ∧ (p.state = .resident ∨ p.state = .brined → j.full = false → p.dirty = false → skips [])
        ∧ (p.state = .resident ∨ p.state = .brined → j.full = true ∨ p.dirty = true → quiet s root page → ∃ t, exec .ckptPageRead s = .next t ∧ t.mem = s.mem ∧ t.out = s.out
            ∧ t.ckpt = some { j with reading := true } ∧ onlyPage s t root page { p with state := .migrating, back := p.state, target := none, dirty := false }))
  ∧ (∀ (s : State) (j : CkptJob) (i root page : Nat) (p : PageEntry) (pe : BtEntry), s.ckpt = some j → j.reading = true → j.pages = [(i, root, page)] →
      s.page? root page = some p → btEntry? s j.ctx (refIndex j.target) = some pe →
      let sends (bytes : Memory) : Prop := ∃ t, exec .ckptPageRead s = .next t ∧ t.mem = s.mem ∧ onlyPage s t root page { p with state := p.back }
        ∧ t.out = s.out ++ [.pageImage (pe.peer, pe.pctx, pe.pidx) (refOff j.target) i page bytes p.inImage] ∧ t.ckpt = some { j with pages := [], reading := false }
      (p.state = .migrating → p.inImage = false → p.ilv ≠ 4 → sends (memFrame s.mem p.loc))
      ∧ (∀ b, p.state = .migrating → p.inImage = true → s.brine.find? (fun y => y.addr == p.loc) = some b → sends b.bytes)
      ∧ (p.state = .poisoned → exec .ckptPageRead s = .next { s with ckpt := some { j with pages := [], reading := false, skipped := j.skipped ++ [(i, page)] } }))
  ∧ (∀ (s : State) (j : CkptJob), s.ckpt = some j →
      (j.reading = false → j.pages = [] → ∃ t, exec .ckptComplete s = .next t ∧ t.ckpt = none ∧ Ends' t s .ckpt 0 [.skipped j.skipped])
      ∧ ((j.reading = true ∨ j.pages ≠ []) → exec .ckptComplete s = .next s))

/-! ## The link and the host port -/

namespace Sys2Proof.Claims

/-- From s to t port `port` goes to state st with its lanes, and every other port stays in its state. -/
def portGoes (s t : State) (port : Nat) (st : PortState) (lanes : Nat) : Prop :=
  (t.ports[port]?).map (fun p => (p.state, p.lanes)) = some (st, lanes) ∧ ∀ i, i ≠ port → (t.ports[i]?).map (·.state) = (s.ports[i]?).map (·.state)
/-- A command on a port (R413): status 2 without such a port, 1 in another state, else the port goes to st. -/
def PortCommand (i : Nat → Instr) (c : Cmd) (states : List PortState) (st : Port → PortState × Nat) : Prop := ∀ (s : State) (port : Nat),
  (s.ports[port]? = none → Answers (i port) s c 2)
  ∧ ∀ p, s.ports[port]? = some p → (p.state ∉ states → Answers (i port) s c 1)
    ∧ (p.state ∈ states → ∃ t o, exec (i port) s = .next t ∧ portGoes s t port (st p).1 (st p).2 ∧ t.out = s.out ++ o ++ [.status c 0, .irqCommand])
/-- An event of a port in the states given, while the link switch runs; in any other it does nothing. -/
def PortEvent (i : Nat → Instr) (states : List PortState) (st : PortState) (lanes : Nat) : Prop := ∀ (s : State) (port : Nat) (p : Port), s.ports[port]? = some p →
  (p.state ∉ states ∨ linkRuns s = false → exec (i port) s = .next s)
    ∧ (p.state ∈ states → linkRuns s = true → ∃ t, exec (i port) s = .next t ∧ portGoes s t port st lanes)
/-- UP with four lanes, DEGRADED with fewer: at width 2 with two or three, at 1 with one (three lanes: the model's choice, log entry 142). -/
def upWith (lanes : Nat) : PortState × Nat := if 4 ≤ lanes then (.up, 4) else (.degraded, min lanes 2)

end Sys2Proof.Claims

/-- R411–R414: the states of a port, the route table and the counters; training that ends with three good lanes is the model's choice of log
entry 142. -/
def Obligations.Ports : Prop :=
  PortCommand .linkEnable .linkEnable [.down] (fun _ => (.training, 0))
  ∧ PortCommand .linkFence .linkFence [.up, .degraded] (fun p => (.fenced, p.lanes))
  ∧ PortCommand .linkUnfence .linkUnfence [.fenced] (fun p => upWith p.lanes)
  ∧ PortCommand .linkDisable .linkDisable [.down, .training, .up, .degraded, .retraining, .fenced] (fun _ => (.down, 0))
  ∧ PortCommand .isolate .isolate [.down, .training, .up, .degraded, .retraining, .fenced, .isolated] (fun _ => (.isolated, 0))
  ∧ PortCommand .release .release [.isolated] (fun _ => (.down, 0))
  ∧ (∀ lanes, 0 < lanes → PortEvent (fun p => .trainingDone p lanes) [.training] (upWith lanes).1 (upWith lanes).2)
  ∧ (∀ lanes, 0 < lanes → PortEvent (fun p => .retrainingDone p lanes) [.retraining] (upWith lanes).1 (upWith lanes).2)
  ∧ PortEvent .trainingTimeout [.training] .down 0
  ∧ PortEvent .retrainingTimeout [.retraining] .down 0
  ∧ PortEvent .linkError [.up, .degraded] .retraining 0
  ∧ (∀ (s : State) (r : Nat), (r < 1024 → Leaves (.linkCfg r) s .linkCfg 0 { s with rank := r }) ∧ (1024 ≤ r → Answers (.linkCfg r) s .linkCfg 2))
  ∧ (∀ (s : State) (r : Nat) (m : BitVec 8), (1024 ≤ r → Answers (.linkRoute r m) s .linkRoute 2)
      ∧ (r < 1024 → ∃ t o, exec (.linkRoute r m) s = .next t ∧ t.routes = s.routes.filter (fun x => x.1 ≠ r) ++ [(r, m)] ∧ t.out = s.out ++ o ++ [.status .linkRoute 0, .irqCommand]))
  ∧ (∀ (s : State) (n : Nat),
      (∀ p, s.ports[n]? = some p → Leaves (.linkQry n) s .linkQry 0 { s with out := s.out ++ [.counters p.sent p.retrans p.dups 0 p.amdrop] })
      ∧ (s.ports[n]? = none → n = 8 → Leaves (.linkQry n) s .linkQry 0 { s with out := s.out ++ [.counters 0 0 0 s.hostRej 0] })
      ∧ (s.ports[n]? = none → n ≠ 8 → Answers (.linkQry n) s .linkQry 2))

/-- R242, R406, R410, R412, R414, R415: requests leave as whole 64-byte blocks, 64 to 256 bytes; a peer's request that comes by a port in service is checked and performed once, a repeated write or atomic is answered from the filter (an atomic sets out for its home slice); a request of this package is sent
again after 50 µs and takes the first answer to its tag. -/
def Obligations.PeerRequests : Prop :=
  (∀ (s : State) (via : Nat) (r : PeerRequest),
    let serves : Prop := linkRuns s = true ∧ ∃ p, s.ports[via]? = some p ∧ (p.state = .up ∨ p.state = .degraded)
    let answer (data : List Byte) (cause : Nat) : Output := .response r.src ⟨r.port, r.tag, data, cause⟩
    let goes (t : State) : Prop := exec (.remoteRequestArrival ⟨via, r⟩) s = .next t
    (¬ serves → goes s)
    ∧ (serves → r.op = .foreign → goes { s with out := s.out ++ [.errorResponse r.src r.port r.tag] })
    ∧ (∀ m, r.op = .message m → goes s)
    ∧ (serves → r.op ≠ .foreign → (∀ m, r.op ≠ .message m) →
      (∀ f, opOrdered r.op = true → filterHit s r = some f → ∃ t, goes t ∧ t.mem = s.mem ∧ t.hostMem = s.hostMem ∧ t.out = s.out ++ [answer f.reply f.cause])
      ∧ (opOrdered r.op = true → filterHit s r = none → (flyingTag s r = true ∨ filterFull s = true) → goes s)
      ∧ ((opOrdered r.op = true → filterHit s r = none ∧ flyingTag s r = false ∧ filterFull s = false) →
        (∀ c i, peerCheck s r = .bad c i → goes { s with
          filter := if opOrdered r.op then s.filter ++ [⟨r.src, r.port, r.tag, [], c.code, s.clk⟩] else s.filter, out := s.out ++ [answer [] c.code] })
        ∧ (∀ a n, peerCheck s r = .ok a → r.op = .read n → ∃ t, goes t ∧ t.mem = s.mem ∧ t.out = s.out ++ [answer (homeRead s none a).1 0])
        ∧ (∀ a d, peerCheck s r = .ok a → r.op = .write d → ∃ t o, goes t ∧ t.mem = (homeWrite s none a d).mem
            ∧ t.out = s.out ++ o ++ [answer [] 0] ∧ t.filter = s.filter ++ [⟨r.src, r.port, r.tag, [], 0, s.clk⟩])
        ∧ (∀ a op w c, peerCheck s r = .ok a → r.op = .atomic op w c → goes (peerAtomic s r a op.toNat w none c))
        ∧ (∀ a w c n, peerCheck s r = .ok a → r.op = .cas w c n → goes (peerAtomic s r a 0 w (some (c, n)) 0)))))
  ∧ (∀ (s : State) (n : Nat) (f : FilterEntry), s.filter[n]? = some f →
      (f.at' + 100000 ≤ s.clk → exec (.replayFilterExpiry n) s = .next { s with filter := s.filter.eraseIdx n })
      ∧ (s.clk < f.at' + 100000 → exec (.replayFilterExpiry n) s = .next s))
  ∧ (∀ (s : State) (r : RemoteReq) (k : Nat) (rest : List Nat), s.remote.find? (fun x => x.id == r.id) = some r → r.sent = true → portsFor s r.peer = k :: rest →
      (s.clk < r.sentAt + 50000 → exec (.remoteRetransmit r.id) s = .next s)
      ∧ (r.sentAt + 50000 ≤ s.clk → ∃ t, exec (.remoteRetransmit r.id) s = .next t ∧ t.mem = s.mem
          ∧ t.out = s.out ++ [.link ((k :: rest).getD (r.off / 64 % (rest.length + 1)) 0) (wireSpan r).1 (wireSpan r).2 r]))
  ∧ (∀ r : RemoteReq, opLen r.op ≤ 128 → (wireSpan r).1 % 64 = 0 ∧ (wireSpan r).2 % 64 = 0 ∧ 64 ≤ (wireSpan r).2 ∧ (wireSpan r).2 ≤ 256
      ∧ (wireSpan r).1 ≤ r.off ∧ r.off + opLen r.op ≤ (wireSpan r).1 + (wireSpan r).2)
  ∧ (∀ (s : State) (via : Nat) (p : PeerResponse), (linkRuns s = false ∨ (∀ q, s.ports[via]? = some q → q.state ≠ .up ∧ q.state ≠ .degraded ∧ q.state ≠ .fenced)
      ∨ ∀ r ∈ s.remote, r.sent = true → ¬ (r.port = p.port ∧ r.tag = p.tag)) → exec (.remoteResponse ⟨via, p⟩) s = .next s)
  ∧ (∀ (s : State) (via : Nat) (q0 : Port) (p : PeerResponse) (r : RemoteReq) (t : Tid) (ref : Dword) (d : Code) (w : Nat) (sg ta : Bool) (q : Squad) (th : Thread), linkRuns s = true → s.ports[via]? = some q0 →
      (q0.state = .up ∨ q0.state = .degraded ∨ q0.state = .fenced) → s.remote = [r] → r.sent = true → r.port = p.port →
      r.tag = p.tag → r.use = .load t ref d w sg false ta [] → s.squad? t.cell t.squad = some q → (∀ x ∈ q.collected, x.cause ≠ .machineCheck) → s.thread? t = some th → th.wait = some (.remote r.id) → th.state = .stalled → th.heldWait = none →
      (p.cause = 0 → ∃ s' th', exec (.remoteResponse ⟨via, p⟩) s = .next s' ∧ s'.remote = [] ∧ s'.mem = s.mem ∧ s'.thread? t = some th' ∧ th'.wait = none ∧ th'.state = .ready
          ∧ th'.pc = th.npc ∧ th'.v = (loadWrites d false sg (overlayView s t.cell r (p.data.take w))).v.foldl (fun l x => l.set x.1 x.2) th.v)
      ∧ (p.cause ≠ 0 → q.trap = .idle → q.collected = [] → ∃ s' th', exec (.remoteResponse ⟨via, p⟩) s = .next s' ∧ s'.remote = [] ∧ s'.mem = s.mem
          ∧ s'.thread? t = some th' ∧ th'.state = .stopped ∧ th'.v = th.v ∧ th'.pc = th.pc))

/-- R410, R412, R415, R419–R422: AMSEND sends a numbered message by its handler table's entry, as a write request, and takes a credit; a message that arrives
in its turn is acknowledged and waits in the window, one ahead of its turn or without room waits at the port, and one that has come before is acknowledged again; a squad is
formed and starts with a message in each thread's registers; and a credit comes back. -/
def Obligations.ActiveMessages : Prop :=
  (∀ f : Ext, InLane (.amsend f) (fun t c q _ r s does => ∀ x a, s.ctx? c.ctx = some x → amEntry s x (f.imm.toNat % 2 ^ 8) = .ok a → a.isRemote = false →
      let b := (phasedRead s t.cell a).1
      let target := (r.x64 f.a).toNat
      let rank := target % 2 ^ 16
      let cell := target / 2 ^ 16 % 2 ^ 32
      let nw := f.imm.toNat / 2 ^ 8 % 2 ^ 4
      let s1 := releaseAt (phasedRead s t.cell a).2 t.cell 5
      f.fn = 0 → q.handler = none → (byteField b 3 1).testBit 0 = true → (∃ e ∈ s.routes, e.1 = rank) → s.credits ≠ 0 → accessesOpen s t = false →
      viewHeld s [t.cell] = none → publishedOpen s1 t.cell = false →
      let key := pairKey s1.rank c.index (byteField b 0 2 % 2 ^ 10) rank cell
      let m : AmMessage := ⟨s1.rank, rank, BitVec.ofNat 32 (counter s1.amSeqOut key), byteField b 0 2 % 2 ^ 10, byteField b 2 1, cell, false, c.index,
        t.squad * 32 + t.lane, nw, (List.range nw).map (r.vreg f.b)⟩
      does (sendRemote { s1 with amSeqOut := setCounter s1.amSeqOut key (counter s1.amSeqOut key + 1), credits := s1.credits - 1 } rank (byteField b 0 2 % 2 ^ 10) (2 ^ 20)
        (64 * counter s1.amSeqOut key) (.message m) .message) {} .unit .next))
  ∧ (∀ s : State, exec .creditReturn s = .next (if linkOpen s then { s with credits := min 4096 (s.credits + 1) } else s))
  ∧ (∀ (s : State) (a : AmPacket),
      let m := a.msg
      let key := pairKey m.srcRank m.srcCell m.pctx s.rank m.cell
      let ahead := m.seq - BitVec.ofNat 32 (counter s.amSeqIn key)
      let ack (data : List Byte) (cause : Nat) : Output := .response m.srcRank ⟨a.port, a.tag, data, cause⟩
      let s1 := { s with amSeqIn := setCounter s.amSeqIn key (counter s.amSeqIn key + 1), out := s.out ++ [ack [] 0]
                         filter := s.filter ++ [⟨m.srcRank, a.port, a.tag, [], 0, s.clk⟩] }
      let w : Waiting := ⟨a.via, m, s.clk, none⟩
      let s2 := { s1 with window := s.window ++ [w] }
      let goes (t : State) : Prop := exec (.amArrival a) s = .next t
      ((linkRuns s = false ∨ ∀ p, s.ports[a.via]? = some p → p.state ≠ .up ∧ p.state ≠ .degraded) → goes s)
      ∧ ∀ p, linkRuns s = true → s.ports[a.via]? = some p → (p.state = .up ∨ p.state = .degraded) →
        (∀ f, filterHit s (packetRequest a) = some f → ∃ t, goes t ∧ t.window = s.window ∧ t.amSeqIn = s.amSeqIn ∧ t.mem = s.mem ∧ t.out = s.out ++ [ack f.reply f.cause])
        ∧ (filterHit s (packetRequest a) = none →
          (2 ^ 31 ≤ ahead.toNat → ∃ t, goes t ∧ t.window = s.window ∧ t.amSeqIn = s.amSeqIn ∧ t.mem = s.mem ∧ t.out = s.out ++ [ack [] 0])
          ∧ (0 < ahead.toNat → ahead.toNat < 2 ^ 31 → goes s)
          ∧ (ahead = 0 → (filterFull s = true ∨ (m.reply = false ∧ 8192 ≤ (s.window.filter (fun x => !x.msg.reply)).length)) → goes s)
          ∧ (ahead = 0 → filterFull s = false → (m.reply = true ∨ (s.window.filter (fun x => !x.msg.reply)).length < 8192) →
            (amDest s1 m = .drop → goes (dropMessage s1 w))
            ∧ (amDest s1 m ≠ .drop → (groupable s2 m).length < 32 → goes s2)
            ∧ (amDest s1 m ≠ .drop → 32 ≤ (groupable s2 m).length → goes (formGroup s2 m)))))
  ∧ (∀ (s : State) (cell h : Nat), purgeWindow s = s →
      ((∀ w ∈ waitingFor s cell h, w.group ≠ none) → exec (.amBatchTimeout cell h) s = .next s)
      ∧ (∀ w, (waitingFor s cell h).find? (fun w => w.group.isNone) = some w →
          (s.clk < w.at' + 64 → exec (.amBatchTimeout cell h) s = .next s)
          ∧ (w.at' + 64 ≤ s.clk → groupable s w.msg = [] → exec (.amBatchTimeout cell h) s = .next s)
          ∧ (w.at' + 64 ≤ s.clk → w ∈ groupable s w.msg → ∃ t, exec (.amBatchTimeout cell h) s = .next t ∧ t.window.map (·.msg) = s.window.map (·.msg)
              ∧ ∃ y ∈ t.window, y.msg = w.msg ∧ y.group = some s.nextId)))
  ∧ (∀ (s : State) (c : Cell) (h g hv entry : Nat) (w : Waiting), purgeWindow s = s → s.cell? c.id = some c → (waitingFor s c.id h).findSome? (fun w => w.group) = some g →
      s.window.filter (fun w => w.group = some g) = [w] → amDest s w.msg = .to (some c.id) hv entry → 12 ≤ hv → c.resident = true → c.state = .running →
      ctxLive s c.ctx = true → (useOf (coreCells s c.core)).squads < 32 → laneBytes s c.core + 128 * hv ≤ 2 ^ 20 → overtakes s g = false →
      ∃ t c' q, exec (.handlerSquadStart c.id h) s = .next t ∧ t.cell? c.id = some c' ∧ c'.squads = c.squads ++ [q] ∧ q.handler = some h ∧ q.state = .active
        ∧ t.window = s.window.filter (fun w => w.group ≠ some g) ∧ t.mem = s.mem
        ∧ (q.k.getD 0 0, q.k.getD 1 0, q.k.getD 16 0, q.k.getD 20 0, q.k.getD 24 0) = (1, BitVec.ofNat 64 h, BitVec.ofNat 64 c.index, 0xFFFFFFFF, BitVec.ofNat 64 c.ctx)
        ∧ q.threads.length = 32 ∧ (∀ (l : Nat) (th : Thread), 0 < l → q.threads[l]? = some th → th.state = .exited)
        ∧ ∃ th, q.threads[0]? = some th ∧ th.state = .ready ∧ th.pc = BitVec.ofNat 32 entry ∧ th.v.length = hv ∧ (∀ i < 8, th.v.getD i 0 = w.msg.payload.getD i 0)
          ∧ (th.v.drop 8).take 4 = [w.msg.srcRank, w.msg.srcCell, w.msg.srcTix, w.msg.nw + if w.msg.reply then 2 ^ 31 else 0].map (BitVec.ofNat 32))

/-- R407, R408, R450: the device window: WIN_SET, and reads and writes that pass the window's and the buffer's rights; AtomicOps and accesses that fail are Unsupported
Requests. -/
def Obligations.HostPort : Prop :=
  (∀ (s : State) (seg : Nat) (b : List Byte), ((512 ≤ seg ∨ parseWin seg b = none) → Answers (.winSet seg b) s .winSet 2)
    ∧ (∀ w, seg < 512 → parseWin seg b = some w → Leaves (.winSet seg b) s .winSet 0 { s with windows := s.windows.filter (fun x => x.seg ≠ seg) ++ [w] }
        ∧ w.seg = seg ∧ w.valid = (byteField b 0 1).testBit 0 ∧ w.rd = (byteField b 0 1).testBit 1 ∧ w.wr = (byteField b 0 1).testBit 2 ∧ w.ctx = byteField b 2 2
        ∧ w.bidx = byteField b 4 4 ∧ w.offBase = byteField b 8 8))
  ∧ (∀ (s : State) (off n : Nat), (∀ a ∈ s.asks, a.who ≠ .host) → (s.bootStep < 7 ∨ (∀ w ∈ s.windows, w.seg = off / 2 ^ 27 → w.valid = false)) →
      exec (.hostRead off n) s = .next { s with hostRej := s.hostRej + 1, out := s.out ++ [.unsupported] })
  ∧ (∀ (s : State) (off n : Nat) (a : Access), hostCheck s needLoadImm WinEntry.rd off n = .ok a → a.isRemote = false → ∃ t, exec (.hostRead off n) s = .next t ∧ t.mem = s.mem
      ∧ t.out = s.out ++ [.data (homeRead s none a).1])
  ∧ (∀ (s : State) (off : Nat) (d : List Byte), (∀ a, hostCheck s needStoreImm WinEntry.wr off d.length = .ok a → a.isRemote = false → exec (.hostWrite off d) s = .next (homeWrite s none a d))
      ∧ (∀ c i, (∀ a ∈ s.asks, a.who ≠ .host) → hostCheck s needStoreImm WinEntry.wr off d.length = .bad c i → exec (.hostWrite off d) s = .next { s with hostRej := s.hostRej + 1 }))
  ∧ (∀ (s : State) (off : Nat), exec (.hostAtomicop off) s = .next { s with out := s.out ++ [.unsupported] })
  ∧ (∀ s : State, (s.bootStep < 7 → exec .hostConfigRequest s = .next { s with out := s.out ++ [.retry] })
      ∧ (7 ≤ s.bootStep → ∃ t b, exec .hostConfigRequest s = .next t ∧ t.mem = s.mem ∧ t.out = s.out ++ [.data b] ∧ b.length = 4))

/-! ## Bring-up, reliability, power, time -/

/-- R7, R450–R453: at power-good the boot stops where a signature fails, and otherwise opens the package with the record's cores and limits; reset itself holds
every port DOWN, no core, no context and no queue. -/
def Obligations.BringUp : Prop :=
  (State.reset.bootStep = 0 ∧ State.reset.contexts = [] ∧ State.reset.queues = [] ∧ State.reset.cells = [] ∧ State.reset.cores = [] ∧ State.reset.kernels = []
    ∧ State.reset.errlog = [] ∧ State.reset.errdrop = 0 ∧ State.reset.mlog = [] ∧ State.reset.ports.length = 8 ∧ (∀ p ∈ State.reset.ports, p.state = .down) ∧ State.reset.credits = 4096)
  ∧ (∀ s : State, (s.bootStep ≠ 0 ∨ s.bootFailed = true) → exec .powerGood s = .next s)
  ∧ (∀ s : State, s.bootStep = 0 → s.bootFailed = false →
      let r := s.flash.record
      (recordOk r = false → exec .powerGood s = .next { s with bootStep := 1, bootFailed := true, out := s.out ++ [.bootFailure 2] })
      ∧ (recordOk r = true → ∃ t, exec .powerGood s = .next t ∧ t.identity = s.flash.helper.bind Config.pufResponse)
      ∧ (∀ id, recordOk r = true → s.flash.helper.bind Config.pufResponse = some id → s.upsets = [] →
        let s1 := { s with minVersions := [byteField r 36 2, byteField r 38 2, byteField r 40 2] }
        ((pickImage s1 1 = none → ∃ t, exec .powerGood s = .next t ∧ t.bootFailed = true ∧ t.bootStep = 3 ∧ t.out = s.out ++ [.bootFailure 4])
        ∧ (∀ i j k, pickImage s1 1 = some i → pickImage s1 2 = some j → pickImage s1 3 = some k → s.mlog = [] →
          ∃ t, exec .powerGood s = .next t ∧ t.bootStep = 7 ∧ t.bootFailed = false ∧ t.out = s.out ∧ t.coremask = BitVec.ofNat 144 (byteField r 16 18)
            ∧ t.reserve = byteField r 46 4 ∧ t.stepping = byteField r 8 1 ∧ t.vdroop = byteField r 50 2 ∧ t.identity = some id ∧ t.mlog.map (·.type) = [0, 1, 2, 3]
            ∧ (∀ n, (t.core? n).isSome = decide (n < 144 ∧ t.coremask.getLsbD n = true)) ∧ (∀ c ∈ t.cores, c.array = [] ∧ c.tcopy = [] ∧ c.mxidle = byteField r 42 4)))))

/-- R457, R458, R461: heartbeats, FW_RELOAD, SECTOR_RESET and SCRUB; a block that reloads with an image that verifies runs again, one without stays in reset. -/
def Obligations.Reliability : Prop :=
  (∀ (s : State) (b : Nat), exec (.heartbeat b) s = .next { s with hearts := s.hearts.map (fun h => if h.block = b then { h with last := s.clk } else h) })
  ∧ (∀ (s : State) (b : Nat), (18 < b → Answers (.fwReload b) s .fwReload 2)
      ∧ (b < 6 → pickImage s 3 = none → ∃ t, exec (.fwReload b) s = .next t ∧ b ∈ t.blocksDown)
      ∧ (6 ≤ b → b ≤ 18 → pickImage s (if b = 6 then 2 else 1) = none → ∃ t, exec (.fwReload b) s = .next t ∧ b ∈ t.blocksDown ∧ t.mem = s.mem
          ∧ t.out = s.out ++ [.status .fwReload 3, .irqCommand])
      ∧ (∀ i, 6 ≤ b → b ≤ 18 → pickImage s (if b = 6 then 2 else 1) = some i → ∃ t o, exec (.fwReload b) s = .next t ∧ b ∉ t.blocksDown ∧ t.mem = s.mem
          ∧ t.hearts = s.hearts.map (fun h => if h.block = b then { h with last := s.clk } else h)
          ∧ t.out = s.out ++ o ++ [.status .fwReload 0, .irqCommand]))
  ∧ (∀ (s : State) (h : Heart), s.hearts.find? (fun x => x.block = h.block) = some h →
      (s.clk < h.last + 10000000 → exec (.heartbeatTimeout h.block) s = .next s)
      ∧ (h.last + 10000000 ≤ s.clk → h.block = 6 → (∃ t0, h.reloadedAt = some t0 ∧ s.clk ≤ t0 + 1000000000) →
          ∃ t, exec (.heartbeatTimeout h.block) s = .next t ∧ ∀ (i : Nat) (p : Port), i < 8 → t.ports[i]? = some p → p.state = .isolated)
      ∧ (h.last + 10000000 ≤ s.clk → (∀ t0, h.reloadedAt = some t0 → t0 + 1000000000 < s.clk) →
          ∃ t, exec (.heartbeatTimeout h.block) s = .next t ∧ ∀ x ∈ t.hearts, x.block = h.block → x.reloadedAt = some s.clk))
  ∧ (∀ (s : State) (n : Nat), (6 ≤ n → Answers (.sectorReset n) s .sectorReset 2)
      ∧ (n < 6 → ∃ t o, exec (.sectorReset n) s = .next t ∧ t.out = s.out ++ o ++ [.status .sectorReset 0, .irqCommand]
          ∧ (∀ k ∈ t.cores, k.id / 24 = n → k.array = [] ∧ k.tcopy = [] ∧ k.awake = 15)
          ∧ (∀ c ∈ s.cells, c.core / 24 = n → c.place ≠ .parked → c.state ≠ .exited → ∀ x, s.ctx? c.ctx = some x → x.state = .running → (t.ctx? c.ctx).map (·.state) = some .faulted)))
  ∧ (∀ (s : State) (k : Nat), s.upsets = [] → exec (.scrub k) s = .next s)
  ∧ (∀ (s : State) (f : Nat) (p : PageEntry), 7 ≤ s.bootStep → 7 + f / 2 ^ 36 ∉ s.blocksDown → s.upsets = [.frame f] → s.pages = [p] → p.state = .resident → p.loc = f / 2 ^ 17 * 2 ^ 17 → p.ilv ≠ 4 → s.terms = [] → s.batches = [] →
      ∃ t, exec (.scrub (f / 2 ^ 36)) s = .next t ∧ t.upsets = [] ∧ (t.page? p.root p.page).map (·.state) = some .poisoned)

/-- R98, R123, R368, R371, R455, R456, R459, R460: ATTEST, CSR_SET, PWR_QRY, droop stretching, the time input and ERROR_LOG_READ. -/
def Obligations.DeviceRegisters : Prop :=
  (∀ (s : State) (nonce : List Byte), (s.identity = none → Answers (.attest nonce) s .attest 3)
    ∧ (nonce.length ≠ 48 → s.identity ≠ none → Answers (.attest nonce) s .attest 2)
    ∧ (∀ id, nonce.length = 48 → s.identity = some id → ∃ b, Leaves (.attest nonce) s .attest 0 { s with out := s.out ++ [.report b] } ∧ b.length = 352
      ∧ b.take 4 = leBytes 4 0x41545339 ∧ (b.drop 16).take 48 = nonce ∧ (b.drop 64).take 48 = sha384 (s.mlog.flatMap measBytes)
      ∧ (b.drop 112).take 48 = sha384 (s.flash.record.take 416) ∧ (b.drop 160).take 96 = publicKey (identityScalar id)
      ∧ b.drop 256 = signatureBytes (identityScalar id) (sha384 (b.take 256))))
  ∧ (∀ (s : State) (c : SetCsr) (v : Nat), 2 ^ 32 ≤ v → Answers (.csrSet c v) s .csrSet 2)
  ∧ (∀ (s : State) (v : Nat), v < 2 ^ 32 → Leaves (.csrSet .reserve v) s .csrSet 0 { s with reserve := v }
      ∧ Leaves (.csrSet .mxidle v) s .csrSet 0 { s with cores := s.cores.map (fun k => { k with mxidle := v }) })
  ∧ (∀ s : State, ∃ w, Leaves .pwrQry s .pwrQry 0 { s with free := s.free + 1, out := s.out ++ [.power s.stretches w] })
  ∧ (∀ (s : State) (n : Nat), n < 6 →
      (s.stretched.getLsbD n = true → exec (.droopDetect n) s = .next s)
      ∧ (s.stretched.getLsbD n = false → ∃ t, exec (.droopDetect n) s = .next t ∧ { t with stretched := s.stretched, stretches := s.stretches } = s
          ∧ (∀ i < 6, t.stretched.getLsbD i = (s.stretched.getLsbD i || decide (i = n))) ∧ t.stretches = s.stretches.modify n (· + 1))
      ∧ ∃ t, exec (.droopRecover n) s = .next t ∧ { t with stretched := s.stretched } = s ∧ ∀ i < 6, t.stretched.getLsbD i = (s.stretched.getLsbD i && !decide (i = n)))
  ∧ (∀ (s : State) (sec ns : Nat), ∃ t, exec (.ppsInput sec ns) s = .next t ∧ { t with ptpOffset := s.ptpOffset } = s ∧ (t.clk : Int) + t.ptpOffset = sec * 10 ^ 9 + ns)
  ∧ (∀ s : State, (s.errlog = [] → Answers .errorLogRead s .errorLogRead 1)
      ∧ (∀ r rest, s.errlog = r :: rest → ∃ b, Leaves .errorLogRead s .errorLogRead 0 { s with errlog := rest, logRead := s.logRead + 1, out := s.out ++ [.logRecord b] }
          ∧ b = leBytes 8 r.seq ++ leBytes 2 r.src ++ leBytes 1 r.kind ++ [0] ++ leBytes 4 r.count ++ leBytes 8 r.addr ++ leBytes 8 r.time))

/-! ## Statements of several parts -/

/-- Every step answers a next state, and the clock rises with it (the model's clock count, log entry 6). -/
def Obligations.StepGoesOn : Prop := Claims.EveryStepGoesOn ∧ Claims.ClockRises

/-- Integer arithmetic, logic, shifts, counts and bit fields, alone in a thread or as a uniform step. -/
def Obligations.Integers : Prop := Claims.IntegerArithmetic ∧ Claims.IntegerLogic ∧ Claims.BitFields

/-- SEL, MOV, ISETP, PLOP, VOTE, CVT, PACK and UNPACK (log entry 83). -/
def Obligations.Selections : Prop := Claims.SelectCompareVote ∧ Claims.ConvertPack

/-- The base words compute what the extended instructions of their names do. -/
def Obligations.BaseWords : Prop := Claims.BaseTwoSources ∧ Claims.BaseOneSource ∧ Claims.BaseLiterals ∧ Claims.BaseImmediates

/-- FP32 arithmetic by round-to-nearest-even, with its flags. -/
def Obligations.Floats : Prop := Claims.FloatArithmetic ∧ Claims.FloatBase ∧ Claims.FloatNearest

/-- The spectral packet instructions on eight samples. -/
def Obligations.Packets : Prop := Claims.PacketArithmetic ∧ Claims.PacketMoves

/-- What sources read and results write: lanes, pairs, uniform registers, z, lane, tix and literals. -/
def Obligations.Operands : Prop := Claims.SourceOperands ∧ Claims.Destinations ∧ Claims.UniformViews ∧ Claims.QueueReads ∧ Claims.RegisterErrors

/-- An instruction whose guard is false, and uniform steps met by followers. -/
def Obligations.GuardsAndFollowers : Prop := Claims.GuardFalse ∧ Claims.UniformFollowers ∧ Claims.BundlesCompute

/-- Bytes of a memory after a write, and of the named memory operations. -/
def Obligations.Bytes : Prop := Claims.MemoryBytes ∧ Claims.AccessBytes

/-- Global loads and stores of each class, in the package and to a peer's buffer (log entries 9, 10, 11, 13, 101 and 143). -/
def Obligations.GlobalAccess : Prop := Claims.GlobalLoads ∧ Claims.GlobalStores ∧ Claims.BundleAccesses ∧ Claims.ImmediateAccesses ∧ Claims.RemoteAccesses

/-- Publication of a cell's bytes; PREF, FENCE, MONARM and MONWAIT. -/
def Obligations.PublicationAndMonitors : Prop := Claims.Publication ∧ Claims.PrefetchFenceMonitor

/-- Branches, calls, returns and EXIT (base branches out of range: log entry 18). -/
def Obligations.ControlFlow : Prop := Claims.Branching ∧ Claims.Exit

/-- YIELD, TRAP, BRK, TRET, taking a trap, and enabled floating-point exceptions. -/
def Obligations.Traps : Prop := Claims.YieldTrapBreak ∧ Claims.TrapReturn ∧ Claims.TrapEntry ∧ Claims.FloatExceptions

/-- CLK, PTPNOW, CSRR and CSRW (log entries 6, 8 and 50). -/
def Obligations.ControlRegisters : Prop := Claims.Time ∧ Claims.ControlRegisterReads ∧ Claims.ControlRegisterWrites

/-- The barrier-slot instructions, and a slot's completion. -/
def Obligations.Barriers : Prop := Claims.BarrierArrivals ∧ Claims.BarrierWaits ∧ Claims.SlotCompletion

/-- SYNC and PHASE, and how waits on a monitor, a slot and a phase end. -/
def Obligations.Waits : Prop := Claims.SyncAndPhase ∧ Claims.WaitsEnd

/-- ATOM, CAS and RED set out, are performed at the home and answered (log entries 12 and 37). -/
def Obligations.Atomics : Prop := Claims.AtomicsSetOut ∧ Claims.AtomicOperations ∧ Claims.AtomicEvents

/-- ATOMB's batches and FILMADD (log entry 38). -/
def Obligations.Batches : Prop := Claims.BatchTermsAndFilm ∧ Claims.BatchEvents

/-- The texture unit, SPECUP and WXYZ (log entry 42). -/
def Obligations.Tables : Prop := Claims.Textures ∧ Claims.Tristimulus

/-- Matrix instructions hand their operations over, and the array performs them. -/
def Obligations.Matrix : Prop := Claims.MatrixIssue ∧ Claims.ArrayEvents

/-- XLD, XST, XSTAMP, queue pushes, barriers and waits of a transfer context. -/
def Obligations.TransferAccess : Prop := Claims.TransferMemory ∧ Claims.TransferSync

/-- The data words, XMXM, the landing of runs and the end of waits (log entries 45 and 48). -/
def Obligations.TransferMoves : Prop := Claims.TransferData ∧ Claims.TransferMatrix ∧ Claims.TransferEvents

/-- XPRUN, TCOPY, QMAP and the service of a tensor copy (log entries 46 and 47). -/
def Obligations.TransferRequests : Prop := Claims.ContextRuns ∧ Claims.CopyAndMapRequests ∧ Claims.CopyService

/-- A cell's start, placement of gangs, and a cell's exit (choice of unit: log entry 29). -/
def Obligations.Cells : Prop := Claims.CellStart ∧ Claims.Placing ∧ Claims.CellExits

/-- CTX_CREATE, CTX_BIND, CTX_UNBIND, CTX_FREE, CTX_KILL and the end of a teardown (log entry 81). -/
def Obligations.Contexts : Prop := Claims.ContextCommands ∧ Claims.Teardown

/-- CTX_SWAP, the cave exchange, CTX_PARK and CTX_UNPARK (log entries 74 and 80). -/
def Obligations.SwapAndPark : Prop := Claims.Swap ∧ Claims.Parking

/-- Loading a queue and issuing NOP, LAUNCH, XPLAUNCH and COPY. -/
def Obligations.QueueEntries : Prop := Claims.QueueLoads ∧ Claims.EntryIssue

/-- The check of a launch, and prologues with their dispositions (log entries 51, 56 and 57). -/
def Obligations.Launches : Prop := Claims.KernelCheck ∧ Claims.Prologues

/-- COPY, QFENCE, SIGNAL, WAIT, TIMED and collectives (log entries 53 to 56 and 62 to 64). -/
def Obligations.QueueWork : Prop := Claims.Copies ∧ Claims.QueueConditions ∧ Claims.Collectives

/-- BT_SET and the page commands, and pages in motion (log entries 71, 75, 76 and 82). -/
def Obligations.Pages : Prop := Claims.PageCommands ∧ Claims.PageMotion

/-! ## Where instructions complete -/

namespace Sys2Proof.Claims

/-- Instruction i, alone in thread t and no uniform step, completes on what ok asks of the cell, the squad, the thread and what it reads; the
memories stay, and `after` holds of the squad and the thread in the next state. -/
def Completes (i : Instr) (ok : Cell → Squad → Thread → Rd → Prop) (after : State → Cell → Squad → Thread → Rd → Squad → Thread → Prop) : Prop :=
  ∀ s t c q th, (formOf i).uniform = false → Solo s t c q th (formOf i) →
    let r := soloRd s t c q th (formOf i)
    ok c q th r → ∃ s' q' th', exec i s = .next s' ∧ s'.squad? t.cell t.squad = some q' ∧ q'.threads[t.lane]? = some th' ∧ s'.mem = s.mem
      ∧ s'.hostMem = s.hostMem ∧ after (atIssue s t (formOf i)) c q th r q' th'
/-- The same of a uniform step that thread t leads. -/
def CompletesUniform (i : Instr) (after : State → Cell → Squad → Thread → Rd → Squad → Thread → Prop) : Prop :=
  ∀ s t c q th, (formOf i).uniform = true → Solo s t c q th (formOf i) → Leads q th →
    let r := soloRd s t c q th (formOf i)
    ∃ s' q' th', exec i s = .next s' ∧ s'.squad? t.cell t.squad = some q' ∧ q'.threads[t.lane]? = some th' ∧ s'.mem = s.mem
      ∧ s'.hostMem = s.hostMem ∧ after (atIssue s t (formOf i)) c q th r q' th'
/-- The thread is READY at the instruction that follows i. -/
def goesOn (i : Instr) (th th' : Thread) : Prop := th'.state = .ready ∧ th'.wait = none ∧ th'.pc = th.pc + word (formOf i).len
/-- Its registers are as they were. -/
def keepsRegisters (th th' : Thread) : Prop := th'.v = th.v ∧ th'.p = th.p ∧ th'.w = th.w
/-- The thread waits where it stands. -/
def waitsAt (th th' : Thread) (w : Wait) : Prop := th'.state = .waiting ∧ th'.wait = some w ∧ th'.pc = th.pc ∧ keepsRegisters th th'
/-- A software trap: the thread stops, to go on behind its instruction, and its squad collects the cause with IMM16 in bits 31:16 of the info. -/
def TrapsSoftly (i : Instr) (imm : BitVec 16) (k : Cause) : Prop :=
  Completes i (fun _ q _ _ => q.trap = .idle) (fun _ _ _ th r q' th' => th'.state = .stopped ∧ th'.ret = th.pc + word (formOf i).len ∧ keepsRegisters th th'
    ∧ q'.trap = .stopping ∧ ∃ y, q'.collected = [y] ∧ y.cause = k ∧ y.lanes = 1#32 <<< r.t.lane ∧ y.pc = th.pc ∧ y.info = word (imm.toNat * 2 ^ 16))

end Sys2Proof.Claims

/-- SYNC alone in its mask (R385), PHASE's arrival (R386), YIELD (R339), TRAP and BRK (R361), TRET (R362), CSRR and CSRW (R120, R121), CLK (R122)
and PTPNOW (R123) complete. -/
def Obligations.ControlCompletes : Prop := ∀ f : Ext,
  Completes (.sync f) (fun _ q _ r => q.trap = .idle ∧ q.sync = none ∧ r.x32 f.a = 1#32 <<< r.t.lane)
    (fun _ _ _ th _ q' th' => goesOn (.sync f) th th' ∧ keepsRegisters th th' ∧ q'.sync = none)
  ∧ Completes (.phase f) (fun _ _ _ _ => True) (fun _ _ _ th _ _ th' => waitsAt th th' (.phase f.d.toNat))
  ∧ Completes (.yield f) (fun _ _ th _ => f.imm.toNat % 2 ^ 8 ≤ th.v.length ∧ f.imm.toNat / 2 ^ 8 % 2 ^ 7 ≤ th.w.length)
    (fun _ c _ th _ _ th' => (c.preq = false → goesOn (.yield f) th th')
      ∧ (c.preq = true → th'.state = .yielded ∧ th'.pc = th.pc + word (formOf (.yield f)).len)
      ∧ th'.p = th.p ∧ (∀ n < th.v.length, th'.v[n]? = if n < f.imm.toNat % 2 ^ 8 then th.v[n]? else some 0)
      ∧ ∀ n < th.w.length, th'.w[n]? = if n < f.imm.toNat / 2 ^ 8 % 2 ^ 7 then th.w[n]? else some (List.replicate 8 0))
  ∧ TrapsSoftly (.trap f) f.imm .trapSoft ∧ TrapsSoftly (.brk f) f.imm .breakpoint
  ∧ Completes (.tret f) (fun _ q _ r => q.trap = .active ∧ ∃ l other, l ≠ r.t.lane ∧ q.threads[l]? = some other ∧ other.state ≠ .exited ∧ other.atTret = false)
    (fun _ _ _ th r _ th' => waitsAt th th' (.tret f.fn.toNat (if f.fn = 2 then r.x32 f.a else 0)))
  ∧ Completes (.tret f) (fun _ q th r => q.trap = .active ∧ q.tqueue.length ≤ 1 ∧ q.pendXp = 0 ∧ th.heldWait = none ∧ f.fn = 0
      ∧ ∀ l other, l ≠ r.t.lane → q.threads[l]? = some other → other.state = .exited ∨ other.atTret = true)
    (fun _ _ _ th _ q' th' => q'.trap = .idle ∧ q'.tcause = 0 ∧ q'.tmask = 0 ∧ th'.state = .ready ∧ th'.pc = th.ret ∧ th'.inHandler = false ∧ keepsRegisters th th')
  ∧ Completes (.csrr f) (fun _ _ _ _ => True) (fun s _ _ th r _ th' => goesOn (.csrr f) th th' ∧ th'.p = th.p ∧ th'.w = th.w
      ∧ (isV f.d = true → f.fn = 0 → th'.v = th.v.set f.d.toNat ((csrValue r s (csrOf f)).extractLsb' 0 32))
      ∧ (isV f.d = true → f.fn = 1 → th'.v = (th.v.set f.d.toNat ((csrValue r s (csrOf f)).extractLsb' 0 32)).set (f.d.toNat + 1)
          ((csrValue r s (csrOf f)).extractLsb' 32 32)))
  ∧ CompletesUniform (.csrr f) (fun s _ q th r q' th' => goesOn (.csrr f) th th' ∧ keepsRegisters th th'
      ∧ q'.k = q.k.set (f.d.toNat - 0xC0) (csrValue r s (csrOf f)))
  ∧ CompletesUniform (.csrw f) (fun _ _ q th r q' th' => goesOn (.csrw f) th th' ∧ keepsRegisters th th' ∧ q'.k = q.k
      ∧ q'.fflags = (if csrOf f = 0x001 then (csrNew f (q.fflags.setWidth 64) (r.x64 f.a)).setWidth 6 else q.fflags)
      ∧ q'.fptrap = (if csrOf f = 0x002 then (csrNew f (q.fptrap.setWidth 64) (r.x64 f.a)).setWidth 6 else q.fptrap)
      ∧ q'.tcause = (if csrOf f = 0x010 then (csrNew f (q.tcause.setWidth 64) (r.x64 f.a)).setWidth 8 else q.tcause)
      ∧ q'.taddr = (if csrOf f = 0x011 then csrNew f q.taddr (r.x64 f.a) else q.taddr)
      ∧ q'.tmask = (if csrOf f = 0x012 then (csrNew f (q.tmask.setWidth 64) (r.x64 f.a)).setWidth 32 else q.tmask)
      ∧ q'.lrange = (if csrOf f = 0x020 then csrNew f q.lrange (r.x64 f.a) else q.lrange)
      ∧ q'.cietab = (if csrOf f = 0x021 then csrNew f q.cietab (r.x64 f.a) else q.cietab))
  ∧ Completes (.clk f) (fun _ _ _ _ => True) (fun s _ _ th _ _ th' => goesOn (.clk f) th th' ∧ th'.p = th.p ∧ th'.w = th.w
      ∧ (isV f.d = true → f.fn = 0 → th'.v = (th.v.set f.d.toNat (BitVec.ofNat 32 s.clk)).set (f.d.toNat + 1) (BitVec.ofNat 32 (s.clk / 2 ^ 32)))
      ∧ (isV f.d = true → f.fn = 1 → th'.v = th.v.set f.d.toNat (BitVec.ofNat 32 s.clk)))
  ∧ CompletesUniform (.clk f) (fun s _ q th _ q' th' => goesOn (.clk f) th th' ∧ keepsRegisters th th'
      ∧ q'.k = q.k.set (f.d.toNat - 0xC0) (if f.fn = 0 then BitVec.ofNat 64 s.clk else (BitVec.ofNat 32 s.clk).setWidth 64))
  ∧ Completes (.ptpnow f) (fun _ _ _ r => 0 ≤ (r.s.clk : Int) + r.s.ptpOffset) (fun s _ _ th _ _ th' => goesOn (.ptpnow f) th th' ∧ th'.p = th.p ∧ th'.w = th.w
      ∧ ∃ ns : Nat, (s.clk : Int) + s.ptpOffset - 20 ≤ ns ∧ (ns : Int) ≤ s.clk + s.ptpOffset + 20
        ∧ th'.v = ((th.v.set f.d.toNat (BitVec.ofNat 32 (ns / 10 ^ 9 % 2 ^ 48))).set (f.d.toNat + 1) (BitVec.ofNat 32 (ns / 10 ^ 9 % 2 ^ 48 / 2 ^ 32))).set
            (f.d.toNat + 2) (BitVec.ofNat 32 (ns % 10 ^ 9)))

namespace Sys2Proof.Claims

/-- Elements el of a data word whose generators stand at sg and dg: every place passes its checks and none lies at a peer. -/
def allPlaces (s : State) (x : Xid) (c : Cell) (w : Move) (src dst : Nat → Gen) (els : List RunElem) : Prop :=
  ∀ (e : Nat) (el : RunElem), els[e]? = some el → moveElem s c x w (src e) (dst e) e = .ok el ∧ el.remote = false
/-- A data word of n elements of valid generators completes where the context has nothing in flight, every element's places pass on this
package and the engine has room for each: the elements enter runs in their order, and the next word follows. No element writes an index of
XGATH that is still to be read. -/
def MovesOn (i : Instr) (f : Xp) (total : XpCtx → Nat) (m : State → XpCtx → Cell → Option Move) (sizes : Gen → Gen → Prop) : Prop :=
  OnXp i (fun x c p s goes => ∀ w els,
    let sg := p.gens.getD f.sg.toNat Gen.empty
    let dg := p.gens.getD f.dg.toNat Gen.empty
    let moved : Bool := match w with
      | .gather _ => decide (f.sg = f.dg)
      | _ => true
    f.d = 0 → total p ≠ 0 → els.length = total p → runsOn s c.core + total p ≤ 64 → sg.valid = true → dg.valid = true → sizes sg dg → m s p c = some w →
    p.rem = 0 → (∀ y ∈ c.runs, y.ctx ≠ x.ctx) → allPlaces s x c w (fun e => if moved then steps e sg else sg) (fun e => steps e dg) els →
    (∀ list, w = .gather list → ∀ (e : Nat) (ip : Place), e < els.length → globPlace s c needLoad list ((4 * e : Nat) : Int) 4 4 = .ok ip →
      ∀ el ∈ els, ∀ d ∈ el.dst, overlaps (placeKeys d) (placeKeys ip) = false) →
    ∃ t d q, goes t ∧ t.mem = s.mem ∧ t.hostMem = s.hostMem ∧ t.cell? x.cell = some d ∧ d.scratch = c.scratch
      ∧ d.runs.flatMap (·.elems) = c.runs.flatMap (·.elems) ++ els ∧ t.xp? x = some q ∧ q.xpc = p.xpc + 1 ∧ q.state = p.state ∧ q.rem = 0 ∧ q.x = p.x)

end Sys2Proof.Claims

/-- XCOPY and XCONV (R256), XGATH (R257), XMCAST (R261), XMXM and its entry (R263), the landing of a run within the cell's scratch (R258) and
the end of a context's wait (R246, R269) complete. -/
def Obligations.TransferCompletes : Prop :=
  (∀ f : Xp,
    MovesOn (.xcopy f) f (counted f) (fun _ _ _ => some .copy) (fun a b => a.esz = b.esz)
    ∧ MovesOn (.xgath f) f (counted f) (fun _ p _ => some (.gather (xb f p))) (fun a b => a.esz = b.esz)
    ∧ MovesOn (.xconv f) f (fun p => (xa f p).toNat) (fun _ _ _ => some (.conv (f.imm.extractLsb' 0 12)))
        (fun a b => 8 * 2 ^ a.esz = (format (f.imm.toNat % 16)).width ∧ 8 * 2 ^ b.esz = (format (f.imm.toNat / 16 % 16)).width)
    ∧ MovesOn (.xmcast f) f (counted f)
        (fun s p c => if (List.range 16).all (fun i => !(xb f p).getLsbD i || decide (i < (castCells s c).length)) && (p.gens.getD f.dg.toNat Gen.empty).scratch
          then some (.cast (targets s c (xb f p))) else none) (fun a b => a.esz = b.esz)
    ∧ OnXp (.xmxm f) (fun x c p s goes => ∀ op,
        let off := (lo32 (xa f p)).toNat
        off + 32 ≤ c.shape.scratch → off % 32 = 0 → (∀ y ∈ c.runs, y.ctx ≠ x.ctx) → parseMx c (scratchRead s c.id off 32) = .ok op → mxScratch c op = none →
        f.fl = 0 → goes (s.modXp x (fun q => { q with pendmx := q.pendmx ++ [⟨op, p.xpc, none⟩], xpc := q.xpc + 1 }))))
  ∧ (∀ (s : State) (x : Xid) (c : Cell) (k : Core) (p : XpCtx) (m : PendMx) (rest : List PendMx), s.cell? x.cell = some c → s.xp? x = some p → s.core? c.core = some k →
      p.pendmx = m :: rest → m.wait = none → c.resident = true → ctxLive s c.ctx = true → k.array.length < 16 → mxIssue c m.op = none →
      ∃ t q k', exec (.xmxmEntry x) s = .next t ∧ (p.exiting = false → t.mem = s.mem) ∧ t.xp? x = some q ∧ q.pendmx = rest ∧ q.xpc = p.xpc ∧ t.core? c.core = some k'
        ∧ k'.array.map (·.op) = k.array.map (·.op) ++ [m.op])
  ∧ (∀ (s : State) (x : Xid) (c : Cell) (r : Run) (a b n : Nat) (from' to' : Dword), s.cell? x.cell = some c → c.state ≠ .exited → c.runs = [r] →
      r.ctx = x.ctx → r.count = [] → r.conv = none → r.left = [0] → r.elems = [⟨.scratch c.id a n, [.scratch c.id b n], from', to'⟩] → s.asks = [] →
      ∃ t d, exec (.transferLand x r.id) s = .next t ∧ t.mem = s.mem ∧ t.cell? x.cell = some d ∧ d.runs = []
        ∧ d.scratch = memWriteL c.scratch b (memReadN c.scratch a n))
  ∧ (∀ (s : State) (x : Xid) (p : XpCtx), s.xp? x = some p → (p.state = .waiting ∨ p.state = .running) → p.fail = none → (p.waitOn = .queue ∨ p.waitOn = .order) →
      exec (.xpWaitEnd x) s = .next (s.modXp x (fun q => { q with state := .running, waitOn := .none })))

/-- The entry into a handler in cause mode (R349, R350), the end of a MONWAIT's time (R241), of a slot's completion (R374) and of a phase (R387), and the saves
and recalls of R340–R345 complete. -/
def Obligations.EventsComplete : Prop :=
  (∀ (s : State) (cell sq : Nat) (ce : Cell) (q : Squad) (x : Context) (k : CauseRec), s.cell? cell = some ce → ce.squads[sq]? = some q → s.ctx? ce.ctx = some x →
      canDeliver s cell sq = true → x.tmode = false → q.collected = [k] → q.pendXp = 0 →
      ∃ s' q', exec (.trapDelivery cell sq) s = .next s' ∧ s'.squad? cell sq = some q' ∧ q'.trap = .active ∧ q'.tcause.toNat = k.cause.code ∧ q'.taddr = k.addr
        ∧ q'.tmask = k.lanes ∧ ∀ (l : Nat) (th : Thread), q.threads[l]? = some th → th.state ≠ .exited →
          ∃ th', q'.threads[l]? = some th' ∧ th'.pc = x.tvec ∧ th'.inHandler = true ∧ th'.state = .ready)
  ∧ (∀ (s : State) (t : Tid) (th : Thread) (d : Code) (taint : Bool) (m : Monitor), s.thread? t = some th → th.wait = some (.monitor d taint) → th.mon = some m →
      m.timeout ≤ s.clk - m.since → ∃ s' th', exec (.monwaitTimeout t) s = .next s' ∧ s'.mem = s.mem ∧ s'.thread? t = some th' ∧ th'.state = .ready
        ∧ th'.pc = th.npc ∧ th'.mon = none ∧ (isV d = true → th'.v = th.v.set d.toNat 0))
  ∧ (∀ (s : State) (cell n : Nat) (c : Cell) (x : Slot), s.cell? cell = some c → c.slots[n]? = some x → x.state = .completing → x.held = [] → x.arrived ≠ x.expect →
      ∃ s' c' y, exec (.slotWake cell n) s = .next s' ∧ s'.mem = s.mem ∧ s'.cell? cell = some c' ∧ c'.slots[n]? = some y ∧ y.state = .armed ∧ y.pbit = x.pbit
        ∧ y.gen = x.gen)
  ∧ (∀ (s : State) (g : Gang), s.gang? g.id = some g → phaseReady s g = true → phaseDrained s g = true → (∀ c ∈ gangCells s g, ctxLive s c.ctx = true) →
      viewHeld s ((gangCells s g).map (·.id)) = none → (∀ c ∈ gangCells s g, c.view = []) →
      ∃ s', exec (.phaseComplete g.id) s = .next s' ∧ s'.mem = s.mem ∧ s'.gang? g.id = some { g with phase := g.phase + 1 })
  ∧ (∀ (s : State) (gang : Nat) (cs : List Cell), savingCells s gang = some cs → (s.cells.map (·.id)).Nodup → (∃ c ∈ cs, c.state = .draining) →
      ∃ s', exec (.preqClear gang) s = .next s' ∧ s'.mem = s.mem ∧ ∀ c ∈ cs, ∃ c', s'.cell? c.id = some c' ∧ c'.preq = false ∧ c'.state = .running)
  ∧ (∀ (s : State) (gang : Nat) (cs : List Cell), saves s gang cs → (∀ c ∈ cs, cellSafe c = true) → saveDrained s (cs.map (·.id)) = true →
      ∃ s', exec (.cooperativeSave gang) s = .next s' ∧ s'.mem = s.mem ∧ ∀ c ∈ cs, ∃ c', s'.cell? c.id = some c' ∧ c'.state = .saved ∧ c'.preq = false)
  ∧ (∀ (s : State) (gang : Nat) (cs : List Cell), saves s gang cs → (∃ c ∈ cs, cellSafe c = false ∧ c.deadline ≤ s.clk - c.preqAt) →
      (∀ c ∈ cs, ∀ q ∈ c.squads, ∀ th ∈ q.threads, th.walk = none) → s.asks = [] → saveDrained s (cs.map (·.id)) = true →
      ∃ s', exec (.forcedSave gang) s = .next s' ∧ s'.mem = s.mem ∧ ∀ c ∈ cs, ∃ c', s'.cell? c.id = some c' ∧ c'.state = .saved ∧ c'.preq = false)
  ∧ (∀ (s : State) (c : Cell) (sq : Nat) (q : Squad), s.cell? c.id = some c → c.squads[sq]? = some q → q.recalled = true → c.resident = true →
      ctxLive s c.ctx = true → squadRoom s c = true → ∃ s' q', exec (.recall c.id sq) s = .next s' ∧ s'.mem = s.mem ∧ s'.squad? c.id sq = some q' ∧ q'.state = .active
        ∧ ∀ (l : Nat) (th : Thread), q.threads[l]? = some th → ∃ th', q'.threads[l]? = some th' ∧ th'.v = th.v ∧ th'.p = th.p ∧ th'.w = th.w)
end

