-- ==== Sys2Proof/Laws/State.lean ====
section
/-! SUPPORT. What each update of the state leaves alone: one equation for each field that the update does not name. -/
namespace Sys2Proof.Machine
open Sys2Proof

@[simp] theorem State.modCell_clk (s : State) (id : Nat) (f : Cell → Cell) : (s.modCell id f).clk = s.clk := rfl
@[simp] theorem State.modCell_ptpOffset (s : State) (id : Nat) (f : Cell → Cell) : (s.modCell id f).ptpOffset = s.ptpOffset := rfl
@[simp] theorem State.modCell_bootStep (s : State) (id : Nat) (f : Cell → Cell) : (s.modCell id f).bootStep = s.bootStep := rfl
@[simp] theorem State.modCell_bootFailed (s : State) (id : Nat) (f : Cell → Cell) : (s.modCell id f).bootFailed = s.bootFailed := rfl
@[simp] theorem State.modCell_flash (s : State) (id : Nat) (f : Cell → Cell) : (s.modCell id f).flash = s.flash := rfl
@[simp] theorem State.modCell_mlog (s : State) (id : Nat) (f : Cell → Cell) : (s.modCell id f).mlog = s.mlog := rfl
@[simp] theorem State.modCell_mlogOverflow (s : State) (id : Nat) (f : Cell → Cell) : (s.modCell id f).mlogOverflow = s.mlogOverflow := rfl
@[simp] theorem State.modCell_identity (s : State) (id : Nat) (f : Cell → Cell) : (s.modCell id f).identity = s.identity := rfl
@[simp] theorem State.modCell_stepping (s : State) (id : Nat) (f : Cell → Cell) : (s.modCell id f).stepping = s.stepping := rfl
@[simp] theorem State.modCell_coremask (s : State) (id : Nat) (f : Cell → Cell) : (s.modCell id f).coremask = s.coremask := rfl
@[simp] theorem State.modCell_vdroop (s : State) (id : Nat) (f : Cell → Cell) : (s.modCell id f).vdroop = s.vdroop := rfl
@[simp] theorem State.modCell_minVersions (s : State) (id : Nat) (f : Cell → Cell) : (s.modCell id f).minVersions = s.minVersions := rfl
@[simp] theorem State.modCell_reserve (s : State) (id : Nat) (f : Cell → Cell) : (s.modCell id f).reserve = s.reserve := rfl
@[simp] theorem State.modCell_errdrop (s : State) (id : Nat) (f : Cell → Cell) : (s.modCell id f).errdrop = s.errdrop := rfl
@[simp] theorem State.modCell_errlog (s : State) (id : Nat) (f : Cell → Cell) : (s.modCell id f).errlog = s.errlog := rfl
@[simp] theorem State.modCell_logRead (s : State) (id : Nat) (f : Cell → Cell) : (s.modCell id f).logRead = s.logRead := rfl
@[simp] theorem State.modCell_logSeq (s : State) (id : Nat) (f : Cell → Cell) : (s.modCell id f).logSeq = s.logSeq := rfl
@[simp] theorem State.modCell_logCounts (s : State) (id : Nat) (f : Cell → Cell) : (s.modCell id f).logCounts = s.logCounts := rfl
@[simp] theorem State.modCell_hearts (s : State) (id : Nat) (f : Cell → Cell) : (s.modCell id f).hearts = s.hearts := rfl
@[simp] theorem State.modCell_blocksDown (s : State) (id : Nat) (f : Cell → Cell) : (s.modCell id f).blocksDown = s.blocksDown := rfl
@[simp] theorem State.modCell_stretched (s : State) (id : Nat) (f : Cell → Cell) : (s.modCell id f).stretched = s.stretched := rfl
@[simp] theorem State.modCell_stretches (s : State) (id : Nat) (f : Cell → Cell) : (s.modCell id f).stretches = s.stretches := rfl
@[simp] theorem State.modCell_partitions (s : State) (id : Nat) (f : Cell → Cell) : (s.modCell id f).partitions = s.partitions := rfl
@[simp] theorem State.modCell_swaps (s : State) (id : Nat) (f : Cell → Cell) : (s.modCell id f).swaps = s.swaps := rfl
@[simp] theorem State.modCell_contexts (s : State) (id : Nat) (f : Cell → Cell) : (s.modCell id f).contexts = s.contexts := rfl
@[simp] theorem State.modCell_pages (s : State) (id : Nat) (f : Cell → Cell) : (s.modCell id f).pages = s.pages := rfl
@[simp] theorem State.modCell_brine (s : State) (id : Nat) (f : Cell → Cell) : (s.modCell id f).brine = s.brine := rfl
@[simp] theorem State.modCell_brineNext (s : State) (id : Nat) (f : Cell → Cell) : (s.modCell id f).brineNext = s.brineNext := rfl
@[simp] theorem State.modCell_pools (s : State) (id : Nat) (f : Cell → Cell) : (s.modCell id f).pools = s.pools := rfl
@[simp] theorem State.modCell_mem (s : State) (id : Nat) (f : Cell → Cell) : (s.modCell id f).mem = s.mem := rfl
@[simp] theorem State.modCell_hostMem (s : State) (id : Nat) (f : Cell → Cell) : (s.modCell id f).hostMem = s.hostMem := rfl
@[simp] theorem State.modCell_codeWords (s : State) (id : Nat) (f : Cell → Cell) : (s.modCell id f).codeWords = s.codeWords := rfl
@[simp] theorem State.modCell_oldWords (s : State) (id : Nat) (f : Cell → Cell) : (s.modCell id f).oldWords = s.oldWords := rfl
@[simp] theorem State.modCell_devWrites (s : State) (id : Nat) (f : Cell → Cell) : (s.modCell id f).devWrites = s.devWrites := rfl
@[simp] theorem State.modCell_creditsOwed (s : State) (id : Nat) (f : Cell → Cell) : (s.modCell id f).creditsOwed = s.creditsOwed := rfl
@[simp] theorem State.modCell_ckpt (s : State) (id : Nat) (f : Cell → Cell) : (s.modCell id f).ckpt = s.ckpt := rfl
@[simp] theorem State.modCell_queues (s : State) (id : Nat) (f : Cell → Cell) : (s.modCell id f).queues = s.queues := rfl
@[simp] theorem State.modCell_lps (s : State) (id : Nat) (f : Cell → Cell) : (s.modCell id f).lps = s.lps := rfl
@[simp] theorem State.modCell_kernels (s : State) (id : Nat) (f : Cell → Cell) : (s.modCell id f).kernels = s.kernels := rfl
@[simp] theorem State.modCell_nextKernel (s : State) (id : Nat) (f : Cell → Cell) : (s.modCell id f).nextKernel = s.nextKernel := rfl
@[simp] theorem State.modCell_gangs (s : State) (id : Nat) (f : Cell → Cell) : (s.modCell id f).gangs = s.gangs := rfl
@[simp] theorem State.modCell_nextGang (s : State) (id : Nat) (f : Cell → Cell) : (s.modCell id f).nextGang = s.nextGang := rfl
@[simp] theorem State.modCell_nextCell (s : State) (id : Nat) (f : Cell → Cell) : (s.modCell id f).nextCell = s.nextCell := rfl
@[simp] theorem State.modCell_cores (s : State) (id : Nat) (f : Cell → Cell) : (s.modCell id f).cores = s.cores := rfl
@[simp] theorem State.modCell_copyJobs (s : State) (id : Nat) (f : Cell → Cell) : (s.modCell id f).copyJobs = s.copyJobs := rfl
@[simp] theorem State.modCell_colls (s : State) (id : Nat) (f : Cell → Cell) : (s.modCell id f).colls = s.colls := rfl
@[simp] theorem State.modCell_nextId (s : State) (id : Nat) (f : Cell → Cell) : (s.modCell id f).nextId = s.nextId := rfl
@[simp] theorem State.modCell_late (s : State) (id : Nat) (f : Cell → Cell) : (s.modCell id f).late = s.late := rfl
@[simp] theorem State.modCell_reqs (s : State) (id : Nat) (f : Cell → Cell) : (s.modCell id f).reqs = s.reqs := rfl
@[simp] theorem State.modCell_replies (s : State) (id : Nat) (f : Cell → Cell) : (s.modCell id f).replies = s.replies := rfl
@[simp] theorem State.modCell_terms (s : State) (id : Nat) (f : Cell → Cell) : (s.modCell id f).terms = s.terms := rfl
@[simp] theorem State.modCell_batches (s : State) (id : Nat) (f : Cell → Cell) : (s.modCell id f).batches = s.batches := rfl
@[simp] theorem State.modCell_batchReplies (s : State) (id : Nat) (f : Cell → Cell) : (s.modCell id f).batchReplies = s.batchReplies := rfl
@[simp] theorem State.modCell_owners (s : State) (id : Nat) (f : Cell → Cell) : (s.modCell id f).owners = s.owners := rfl
@[simp] theorem State.modCell_rank (s : State) (id : Nat) (f : Cell → Cell) : (s.modCell id f).rank = s.rank := rfl
@[simp] theorem State.modCell_routes (s : State) (id : Nat) (f : Cell → Cell) : (s.modCell id f).routes = s.routes := rfl
@[simp] theorem State.modCell_ports (s : State) (id : Nat) (f : Cell → Cell) : (s.modCell id f).ports = s.ports := rfl
@[simp] theorem State.modCell_remote (s : State) (id : Nat) (f : Cell → Cell) : (s.modCell id f).remote = s.remote := rfl
@[simp] theorem State.modCell_asks (s : State) (id : Nat) (f : Cell → Cell) : (s.modCell id f).asks = s.asks := rfl
@[simp] theorem State.modCell_filter (s : State) (id : Nat) (f : Cell → Cell) : (s.modCell id f).filter = s.filter := rfl
@[simp] theorem State.modCell_tagHold (s : State) (id : Nat) (f : Cell → Cell) : (s.modCell id f).tagHold = s.tagHold := rfl
@[simp] theorem State.modCell_window (s : State) (id : Nat) (f : Cell → Cell) : (s.modCell id f).window = s.window := rfl
@[simp] theorem State.modCell_amSeqOut (s : State) (id : Nat) (f : Cell → Cell) : (s.modCell id f).amSeqOut = s.amSeqOut := rfl
@[simp] theorem State.modCell_amSeqIn (s : State) (id : Nat) (f : Cell → Cell) : (s.modCell id f).amSeqIn = s.amSeqIn := rfl
@[simp] theorem State.modCell_credits (s : State) (id : Nat) (f : Cell → Cell) : (s.modCell id f).credits = s.credits := rfl
@[simp] theorem State.modCell_windows (s : State) (id : Nat) (f : Cell → Cell) : (s.modCell id f).windows = s.windows := rfl
@[simp] theorem State.modCell_hostRej (s : State) (id : Nat) (f : Cell → Cell) : (s.modCell id f).hostRej = s.hostRej := rfl
@[simp] theorem State.modCell_out (s : State) (id : Nat) (f : Cell → Cell) : (s.modCell id f).out = s.out := rfl
@[simp] theorem State.modCell_agenda (s : State) (id : Nat) (f : Cell → Cell) : (s.modCell id f).agenda = s.agenda := rfl
@[simp] theorem State.modCell_issue (s : State) (id : Nat) (f : Cell → Cell) : (s.modCell id f).issue = s.issue := rfl
@[simp] theorem State.modCell_cur (s : State) (id : Nat) (f : Cell → Cell) : (s.modCell id f).cur = s.cur := rfl
@[simp] theorem State.modCell_upsets (s : State) (id : Nat) (f : Cell → Cell) : (s.modCell id f).upsets = s.upsets := rfl
@[simp] theorem State.modCell_issued (s : State) (id : Nat) (f : Cell → Cell) : (s.modCell id f).issued = s.issued := rfl
@[simp] theorem State.modCell_free (s : State) (id : Nat) (f : Cell → Cell) : (s.modCell id f).free = s.free := rfl
@[simp] theorem State.modCell_turn (s : State) (id : Nat) (f : Cell → Cell) : (s.modCell id f).turn = s.turn := rfl

@[simp] theorem State.modSquad_clk (s : State) (a b : Nat) (f : Squad → Squad) : (s.modSquad a b f).clk = s.clk := rfl
@[simp] theorem State.modSquad_ptpOffset (s : State) (a b : Nat) (f : Squad → Squad) : (s.modSquad a b f).ptpOffset = s.ptpOffset := rfl
@[simp] theorem State.modSquad_bootStep (s : State) (a b : Nat) (f : Squad → Squad) : (s.modSquad a b f).bootStep = s.bootStep := rfl
@[simp] theorem State.modSquad_bootFailed (s : State) (a b : Nat) (f : Squad → Squad) : (s.modSquad a b f).bootFailed = s.bootFailed := rfl
@[simp] theorem State.modSquad_flash (s : State) (a b : Nat) (f : Squad → Squad) : (s.modSquad a b f).flash = s.flash := rfl
@[simp] theorem State.modSquad_mlog (s : State) (a b : Nat) (f : Squad → Squad) : (s.modSquad a b f).mlog = s.mlog := rfl
@[simp] theorem State.modSquad_mlogOverflow (s : State) (a b : Nat) (f : Squad → Squad) : (s.modSquad a b f).mlogOverflow = s.mlogOverflow := rfl
@[simp] theorem State.modSquad_identity (s : State) (a b : Nat) (f : Squad → Squad) : (s.modSquad a b f).identity = s.identity := rfl
@[simp] theorem State.modSquad_stepping (s : State) (a b : Nat) (f : Squad → Squad) : (s.modSquad a b f).stepping = s.stepping := rfl
@[simp] theorem State.modSquad_coremask (s : State) (a b : Nat) (f : Squad → Squad) : (s.modSquad a b f).coremask = s.coremask := rfl
@[simp] theorem State.modSquad_vdroop (s : State) (a b : Nat) (f : Squad → Squad) : (s.modSquad a b f).vdroop = s.vdroop := rfl
@[simp] theorem State.modSquad_minVersions (s : State) (a b : Nat) (f : Squad → Squad) : (s.modSquad a b f).minVersions = s.minVersions := rfl
@[simp] theorem State.modSquad_reserve (s : State) (a b : Nat) (f : Squad → Squad) : (s.modSquad a b f).reserve = s.reserve := rfl
@[simp] theorem State.modSquad_errdrop (s : State) (a b : Nat) (f : Squad → Squad) : (s.modSquad a b f).errdrop = s.errdrop := rfl
@[simp] theorem State.modSquad_errlog (s : State) (a b : Nat) (f : Squad → Squad) : (s.modSquad a b f).errlog = s.errlog := rfl
@[simp] theorem State.modSquad_logRead (s : State) (a b : Nat) (f : Squad → Squad) : (s.modSquad a b f).logRead = s.logRead := rfl
@[simp] theorem State.modSquad_logSeq (s : State) (a b : Nat) (f : Squad → Squad) : (s.modSquad a b f).logSeq = s.logSeq := rfl
@[simp] theorem State.modSquad_logCounts (s : State) (a b : Nat) (f : Squad → Squad) : (s.modSquad a b f).logCounts = s.logCounts := rfl
@[simp] theorem State.modSquad_hearts (s : State) (a b : Nat) (f : Squad → Squad) : (s.modSquad a b f).hearts = s.hearts := rfl
@[simp] theorem State.modSquad_blocksDown (s : State) (a b : Nat) (f : Squad → Squad) : (s.modSquad a b f).blocksDown = s.blocksDown := rfl
@[simp] theorem State.modSquad_stretched (s : State) (a b : Nat) (f : Squad → Squad) : (s.modSquad a b f).stretched = s.stretched := rfl
@[simp] theorem State.modSquad_stretches (s : State) (a b : Nat) (f : Squad → Squad) : (s.modSquad a b f).stretches = s.stretches := rfl
@[simp] theorem State.modSquad_partitions (s : State) (a b : Nat) (f : Squad → Squad) : (s.modSquad a b f).partitions = s.partitions := rfl
@[simp] theorem State.modSquad_swaps (s : State) (a b : Nat) (f : Squad → Squad) : (s.modSquad a b f).swaps = s.swaps := rfl
@[simp] theorem State.modSquad_contexts (s : State) (a b : Nat) (f : Squad → Squad) : (s.modSquad a b f).contexts = s.contexts := rfl
@[simp] theorem State.modSquad_pages (s : State) (a b : Nat) (f : Squad → Squad) : (s.modSquad a b f).pages = s.pages := rfl
@[simp] theorem State.modSquad_brine (s : State) (a b : Nat) (f : Squad → Squad) : (s.modSquad a b f).brine = s.brine := rfl
@[simp] theorem State.modSquad_brineNext (s : State) (a b : Nat) (f : Squad → Squad) : (s.modSquad a b f).brineNext = s.brineNext := rfl
@[simp] theorem State.modSquad_pools (s : State) (a b : Nat) (f : Squad → Squad) : (s.modSquad a b f).pools = s.pools := rfl
@[simp] theorem State.modSquad_mem (s : State) (a b : Nat) (f : Squad → Squad) : (s.modSquad a b f).mem = s.mem := rfl
@[simp] theorem State.modSquad_hostMem (s : State) (a b : Nat) (f : Squad → Squad) : (s.modSquad a b f).hostMem = s.hostMem := rfl
@[simp] theorem State.modSquad_codeWords (s : State) (a b : Nat) (f : Squad → Squad) : (s.modSquad a b f).codeWords = s.codeWords := rfl
@[simp] theorem State.modSquad_oldWords (s : State) (a b : Nat) (f : Squad → Squad) : (s.modSquad a b f).oldWords = s.oldWords := rfl
@[simp] theorem State.modSquad_devWrites (s : State) (a b : Nat) (f : Squad → Squad) : (s.modSquad a b f).devWrites = s.devWrites := rfl
@[simp] theorem State.modSquad_creditsOwed (s : State) (a b : Nat) (f : Squad → Squad) : (s.modSquad a b f).creditsOwed = s.creditsOwed := rfl
@[simp] theorem State.modSquad_ckpt (s : State) (a b : Nat) (f : Squad → Squad) : (s.modSquad a b f).ckpt = s.ckpt := rfl
@[simp] theorem State.modSquad_queues (s : State) (a b : Nat) (f : Squad → Squad) : (s.modSquad a b f).queues = s.queues := rfl
@[simp] theorem State.modSquad_lps (s : State) (a b : Nat) (f : Squad → Squad) : (s.modSquad a b f).lps = s.lps := rfl
@[simp] theorem State.modSquad_kernels (s : State) (a b : Nat) (f : Squad → Squad) : (s.modSquad a b f).kernels = s.kernels := rfl
@[simp] theorem State.modSquad_nextKernel (s : State) (a b : Nat) (f : Squad → Squad) : (s.modSquad a b f).nextKernel = s.nextKernel := rfl
@[simp] theorem State.modSquad_gangs (s : State) (a b : Nat) (f : Squad → Squad) : (s.modSquad a b f).gangs = s.gangs := rfl
@[simp] theorem State.modSquad_nextGang (s : State) (a b : Nat) (f : Squad → Squad) : (s.modSquad a b f).nextGang = s.nextGang := rfl
@[simp] theorem State.modSquad_nextCell (s : State) (a b : Nat) (f : Squad → Squad) : (s.modSquad a b f).nextCell = s.nextCell := rfl
@[simp] theorem State.modSquad_cores (s : State) (a b : Nat) (f : Squad → Squad) : (s.modSquad a b f).cores = s.cores := rfl
@[simp] theorem State.modSquad_copyJobs (s : State) (a b : Nat) (f : Squad → Squad) : (s.modSquad a b f).copyJobs = s.copyJobs := rfl
@[simp] theorem State.modSquad_colls (s : State) (a b : Nat) (f : Squad → Squad) : (s.modSquad a b f).colls = s.colls := rfl
@[simp] theorem State.modSquad_nextId (s : State) (a b : Nat) (f : Squad → Squad) : (s.modSquad a b f).nextId = s.nextId := rfl
@[simp] theorem State.modSquad_late (s : State) (a b : Nat) (f : Squad → Squad) : (s.modSquad a b f).late = s.late := rfl
@[simp] theorem State.modSquad_reqs (s : State) (a b : Nat) (f : Squad → Squad) : (s.modSquad a b f).reqs = s.reqs := rfl
@[simp] theorem State.modSquad_replies (s : State) (a b : Nat) (f : Squad → Squad) : (s.modSquad a b f).replies = s.replies := rfl
@[simp] theorem State.modSquad_terms (s : State) (a b : Nat) (f : Squad → Squad) : (s.modSquad a b f).terms = s.terms := rfl
@[simp] theorem State.modSquad_batches (s : State) (a b : Nat) (f : Squad → Squad) : (s.modSquad a b f).batches = s.batches := rfl
@[simp] theorem State.modSquad_batchReplies (s : State) (a b : Nat) (f : Squad → Squad) : (s.modSquad a b f).batchReplies = s.batchReplies := rfl
@[simp] theorem State.modSquad_owners (s : State) (a b : Nat) (f : Squad → Squad) : (s.modSquad a b f).owners = s.owners := rfl
@[simp] theorem State.modSquad_rank (s : State) (a b : Nat) (f : Squad → Squad) : (s.modSquad a b f).rank = s.rank := rfl
@[simp] theorem State.modSquad_routes (s : State) (a b : Nat) (f : Squad → Squad) : (s.modSquad a b f).routes = s.routes := rfl
@[simp] theorem State.modSquad_ports (s : State) (a b : Nat) (f : Squad → Squad) : (s.modSquad a b f).ports = s.ports := rfl
@[simp] theorem State.modSquad_remote (s : State) (a b : Nat) (f : Squad → Squad) : (s.modSquad a b f).remote = s.remote := rfl
@[simp] theorem State.modSquad_asks (s : State) (a b : Nat) (f : Squad → Squad) : (s.modSquad a b f).asks = s.asks := rfl
@[simp] theorem State.modSquad_filter (s : State) (a b : Nat) (f : Squad → Squad) : (s.modSquad a b f).filter = s.filter := rfl
@[simp] theorem State.modSquad_tagHold (s : State) (a b : Nat) (f : Squad → Squad) : (s.modSquad a b f).tagHold = s.tagHold := rfl
@[simp] theorem State.modSquad_window (s : State) (a b : Nat) (f : Squad → Squad) : (s.modSquad a b f).window = s.window := rfl
@[simp] theorem State.modSquad_amSeqOut (s : State) (a b : Nat) (f : Squad → Squad) : (s.modSquad a b f).amSeqOut = s.amSeqOut := rfl
@[simp] theorem State.modSquad_amSeqIn (s : State) (a b : Nat) (f : Squad → Squad) : (s.modSquad a b f).amSeqIn = s.amSeqIn := rfl
@[simp] theorem State.modSquad_credits (s : State) (a b : Nat) (f : Squad → Squad) : (s.modSquad a b f).credits = s.credits := rfl
@[simp] theorem State.modSquad_windows (s : State) (a b : Nat) (f : Squad → Squad) : (s.modSquad a b f).windows = s.windows := rfl
@[simp] theorem State.modSquad_hostRej (s : State) (a b : Nat) (f : Squad → Squad) : (s.modSquad a b f).hostRej = s.hostRej := rfl
@[simp] theorem State.modSquad_out (s : State) (a b : Nat) (f : Squad → Squad) : (s.modSquad a b f).out = s.out := rfl
@[simp] theorem State.modSquad_agenda (s : State) (a b : Nat) (f : Squad → Squad) : (s.modSquad a b f).agenda = s.agenda := rfl
@[simp] theorem State.modSquad_issue (s : State) (a b : Nat) (f : Squad → Squad) : (s.modSquad a b f).issue = s.issue := rfl
@[simp] theorem State.modSquad_cur (s : State) (a b : Nat) (f : Squad → Squad) : (s.modSquad a b f).cur = s.cur := rfl
@[simp] theorem State.modSquad_upsets (s : State) (a b : Nat) (f : Squad → Squad) : (s.modSquad a b f).upsets = s.upsets := rfl
@[simp] theorem State.modSquad_issued (s : State) (a b : Nat) (f : Squad → Squad) : (s.modSquad a b f).issued = s.issued := rfl
@[simp] theorem State.modSquad_free (s : State) (a b : Nat) (f : Squad → Squad) : (s.modSquad a b f).free = s.free := rfl
@[simp] theorem State.modSquad_turn (s : State) (a b : Nat) (f : Squad → Squad) : (s.modSquad a b f).turn = s.turn := rfl

@[simp] theorem State.modThread_clk (s : State) (t : Tid) (f : Thread → Thread) : (s.modThread t f).clk = s.clk := rfl
@[simp] theorem State.modThread_ptpOffset (s : State) (t : Tid) (f : Thread → Thread) : (s.modThread t f).ptpOffset = s.ptpOffset := rfl
@[simp] theorem State.modThread_bootStep (s : State) (t : Tid) (f : Thread → Thread) : (s.modThread t f).bootStep = s.bootStep := rfl
@[simp] theorem State.modThread_bootFailed (s : State) (t : Tid) (f : Thread → Thread) : (s.modThread t f).bootFailed = s.bootFailed := rfl
@[simp] theorem State.modThread_flash (s : State) (t : Tid) (f : Thread → Thread) : (s.modThread t f).flash = s.flash := rfl
@[simp] theorem State.modThread_mlog (s : State) (t : Tid) (f : Thread → Thread) : (s.modThread t f).mlog = s.mlog := rfl
@[simp] theorem State.modThread_mlogOverflow (s : State) (t : Tid) (f : Thread → Thread) : (s.modThread t f).mlogOverflow = s.mlogOverflow := rfl
@[simp] theorem State.modThread_identity (s : State) (t : Tid) (f : Thread → Thread) : (s.modThread t f).identity = s.identity := rfl
@[simp] theorem State.modThread_stepping (s : State) (t : Tid) (f : Thread → Thread) : (s.modThread t f).stepping = s.stepping := rfl
@[simp] theorem State.modThread_coremask (s : State) (t : Tid) (f : Thread → Thread) : (s.modThread t f).coremask = s.coremask := rfl
@[simp] theorem State.modThread_vdroop (s : State) (t : Tid) (f : Thread → Thread) : (s.modThread t f).vdroop = s.vdroop := rfl
@[simp] theorem State.modThread_minVersions (s : State) (t : Tid) (f : Thread → Thread) : (s.modThread t f).minVersions = s.minVersions := rfl
@[simp] theorem State.modThread_reserve (s : State) (t : Tid) (f : Thread → Thread) : (s.modThread t f).reserve = s.reserve := rfl
@[simp] theorem State.modThread_errdrop (s : State) (t : Tid) (f : Thread → Thread) : (s.modThread t f).errdrop = s.errdrop := rfl
@[simp] theorem State.modThread_errlog (s : State) (t : Tid) (f : Thread → Thread) : (s.modThread t f).errlog = s.errlog := rfl
@[simp] theorem State.modThread_logRead (s : State) (t : Tid) (f : Thread → Thread) : (s.modThread t f).logRead = s.logRead := rfl
@[simp] theorem State.modThread_logSeq (s : State) (t : Tid) (f : Thread → Thread) : (s.modThread t f).logSeq = s.logSeq := rfl
@[simp] theorem State.modThread_logCounts (s : State) (t : Tid) (f : Thread → Thread) : (s.modThread t f).logCounts = s.logCounts := rfl
@[simp] theorem State.modThread_hearts (s : State) (t : Tid) (f : Thread → Thread) : (s.modThread t f).hearts = s.hearts := rfl
@[simp] theorem State.modThread_blocksDown (s : State) (t : Tid) (f : Thread → Thread) : (s.modThread t f).blocksDown = s.blocksDown := rfl
@[simp] theorem State.modThread_stretched (s : State) (t : Tid) (f : Thread → Thread) : (s.modThread t f).stretched = s.stretched := rfl
@[simp] theorem State.modThread_stretches (s : State) (t : Tid) (f : Thread → Thread) : (s.modThread t f).stretches = s.stretches := rfl
@[simp] theorem State.modThread_partitions (s : State) (t : Tid) (f : Thread → Thread) : (s.modThread t f).partitions = s.partitions := rfl
@[simp] theorem State.modThread_swaps (s : State) (t : Tid) (f : Thread → Thread) : (s.modThread t f).swaps = s.swaps := rfl
@[simp] theorem State.modThread_contexts (s : State) (t : Tid) (f : Thread → Thread) : (s.modThread t f).contexts = s.contexts := rfl
@[simp] theorem State.modThread_pages (s : State) (t : Tid) (f : Thread → Thread) : (s.modThread t f).pages = s.pages := rfl
@[simp] theorem State.modThread_brine (s : State) (t : Tid) (f : Thread → Thread) : (s.modThread t f).brine = s.brine := rfl
@[simp] theorem State.modThread_brineNext (s : State) (t : Tid) (f : Thread → Thread) : (s.modThread t f).brineNext = s.brineNext := rfl
@[simp] theorem State.modThread_pools (s : State) (t : Tid) (f : Thread → Thread) : (s.modThread t f).pools = s.pools := rfl
@[simp] theorem State.modThread_mem (s : State) (t : Tid) (f : Thread → Thread) : (s.modThread t f).mem = s.mem := rfl
@[simp] theorem State.modThread_hostMem (s : State) (t : Tid) (f : Thread → Thread) : (s.modThread t f).hostMem = s.hostMem := rfl
@[simp] theorem State.modThread_codeWords (s : State) (t : Tid) (f : Thread → Thread) : (s.modThread t f).codeWords = s.codeWords := rfl
@[simp] theorem State.modThread_oldWords (s : State) (t : Tid) (f : Thread → Thread) : (s.modThread t f).oldWords = s.oldWords := rfl
@[simp] theorem State.modThread_devWrites (s : State) (t : Tid) (f : Thread → Thread) : (s.modThread t f).devWrites = s.devWrites := rfl
@[simp] theorem State.modThread_creditsOwed (s : State) (t : Tid) (f : Thread → Thread) : (s.modThread t f).creditsOwed = s.creditsOwed := rfl
@[simp] theorem State.modThread_ckpt (s : State) (t : Tid) (f : Thread → Thread) : (s.modThread t f).ckpt = s.ckpt := rfl
@[simp] theorem State.modThread_queues (s : State) (t : Tid) (f : Thread → Thread) : (s.modThread t f).queues = s.queues := rfl
@[simp] theorem State.modThread_lps (s : State) (t : Tid) (f : Thread → Thread) : (s.modThread t f).lps = s.lps := rfl
@[simp] theorem State.modThread_kernels (s : State) (t : Tid) (f : Thread → Thread) : (s.modThread t f).kernels = s.kernels := rfl
@[simp] theorem State.modThread_nextKernel (s : State) (t : Tid) (f : Thread → Thread) : (s.modThread t f).nextKernel = s.nextKernel := rfl
@[simp] theorem State.modThread_gangs (s : State) (t : Tid) (f : Thread → Thread) : (s.modThread t f).gangs = s.gangs := rfl
@[simp] theorem State.modThread_nextGang (s : State) (t : Tid) (f : Thread → Thread) : (s.modThread t f).nextGang = s.nextGang := rfl
@[simp] theorem State.modThread_nextCell (s : State) (t : Tid) (f : Thread → Thread) : (s.modThread t f).nextCell = s.nextCell := rfl
@[simp] theorem State.modThread_cores (s : State) (t : Tid) (f : Thread → Thread) : (s.modThread t f).cores = s.cores := rfl
@[simp] theorem State.modThread_copyJobs (s : State) (t : Tid) (f : Thread → Thread) : (s.modThread t f).copyJobs = s.copyJobs := rfl
@[simp] theorem State.modThread_colls (s : State) (t : Tid) (f : Thread → Thread) : (s.modThread t f).colls = s.colls := rfl
@[simp] theorem State.modThread_nextId (s : State) (t : Tid) (f : Thread → Thread) : (s.modThread t f).nextId = s.nextId := rfl
@[simp] theorem State.modThread_late (s : State) (t : Tid) (f : Thread → Thread) : (s.modThread t f).late = s.late := rfl
@[simp] theorem State.modThread_reqs (s : State) (t : Tid) (f : Thread → Thread) : (s.modThread t f).reqs = s.reqs := rfl
@[simp] theorem State.modThread_replies (s : State) (t : Tid) (f : Thread → Thread) : (s.modThread t f).replies = s.replies := rfl
@[simp] theorem State.modThread_terms (s : State) (t : Tid) (f : Thread → Thread) : (s.modThread t f).terms = s.terms := rfl
@[simp] theorem State.modThread_batches (s : State) (t : Tid) (f : Thread → Thread) : (s.modThread t f).batches = s.batches := rfl
@[simp] theorem State.modThread_batchReplies (s : State) (t : Tid) (f : Thread → Thread) : (s.modThread t f).batchReplies = s.batchReplies := rfl
@[simp] theorem State.modThread_owners (s : State) (t : Tid) (f : Thread → Thread) : (s.modThread t f).owners = s.owners := rfl
@[simp] theorem State.modThread_rank (s : State) (t : Tid) (f : Thread → Thread) : (s.modThread t f).rank = s.rank := rfl
@[simp] theorem State.modThread_routes (s : State) (t : Tid) (f : Thread → Thread) : (s.modThread t f).routes = s.routes := rfl
@[simp] theorem State.modThread_ports (s : State) (t : Tid) (f : Thread → Thread) : (s.modThread t f).ports = s.ports := rfl
@[simp] theorem State.modThread_remote (s : State) (t : Tid) (f : Thread → Thread) : (s.modThread t f).remote = s.remote := rfl
@[simp] theorem State.modThread_asks (s : State) (t : Tid) (f : Thread → Thread) : (s.modThread t f).asks = s.asks := rfl
@[simp] theorem State.modThread_filter (s : State) (t : Tid) (f : Thread → Thread) : (s.modThread t f).filter = s.filter := rfl
@[simp] theorem State.modThread_tagHold (s : State) (t : Tid) (f : Thread → Thread) : (s.modThread t f).tagHold = s.tagHold := rfl
@[simp] theorem State.modThread_window (s : State) (t : Tid) (f : Thread → Thread) : (s.modThread t f).window = s.window := rfl
@[simp] theorem State.modThread_amSeqOut (s : State) (t : Tid) (f : Thread → Thread) : (s.modThread t f).amSeqOut = s.amSeqOut := rfl
@[simp] theorem State.modThread_amSeqIn (s : State) (t : Tid) (f : Thread → Thread) : (s.modThread t f).amSeqIn = s.amSeqIn := rfl
@[simp] theorem State.modThread_credits (s : State) (t : Tid) (f : Thread → Thread) : (s.modThread t f).credits = s.credits := rfl
@[simp] theorem State.modThread_windows (s : State) (t : Tid) (f : Thread → Thread) : (s.modThread t f).windows = s.windows := rfl
@[simp] theorem State.modThread_hostRej (s : State) (t : Tid) (f : Thread → Thread) : (s.modThread t f).hostRej = s.hostRej := rfl
@[simp] theorem State.modThread_out (s : State) (t : Tid) (f : Thread → Thread) : (s.modThread t f).out = s.out := rfl
@[simp] theorem State.modThread_agenda (s : State) (t : Tid) (f : Thread → Thread) : (s.modThread t f).agenda = s.agenda := rfl
@[simp] theorem State.modThread_issue (s : State) (t : Tid) (f : Thread → Thread) : (s.modThread t f).issue = s.issue := rfl
@[simp] theorem State.modThread_cur (s : State) (t : Tid) (f : Thread → Thread) : (s.modThread t f).cur = s.cur := rfl
@[simp] theorem State.modThread_upsets (s : State) (t : Tid) (f : Thread → Thread) : (s.modThread t f).upsets = s.upsets := rfl
@[simp] theorem State.modThread_issued (s : State) (t : Tid) (f : Thread → Thread) : (s.modThread t f).issued = s.issued := rfl
@[simp] theorem State.modThread_free (s : State) (t : Tid) (f : Thread → Thread) : (s.modThread t f).free = s.free := rfl
@[simp] theorem State.modThread_turn (s : State) (t : Tid) (f : Thread → Thread) : (s.modThread t f).turn = s.turn := rfl

@[simp] theorem State.modXp_clk (s : State) (x : Xid) (f : XpCtx → XpCtx) : (s.modXp x f).clk = s.clk := rfl
@[simp] theorem State.modXp_ptpOffset (s : State) (x : Xid) (f : XpCtx → XpCtx) : (s.modXp x f).ptpOffset = s.ptpOffset := rfl
@[simp] theorem State.modXp_bootStep (s : State) (x : Xid) (f : XpCtx → XpCtx) : (s.modXp x f).bootStep = s.bootStep := rfl
@[simp] theorem State.modXp_bootFailed (s : State) (x : Xid) (f : XpCtx → XpCtx) : (s.modXp x f).bootFailed = s.bootFailed := rfl
@[simp] theorem State.modXp_flash (s : State) (x : Xid) (f : XpCtx → XpCtx) : (s.modXp x f).flash = s.flash := rfl
@[simp] theorem State.modXp_mlog (s : State) (x : Xid) (f : XpCtx → XpCtx) : (s.modXp x f).mlog = s.mlog := rfl
@[simp] theorem State.modXp_mlogOverflow (s : State) (x : Xid) (f : XpCtx → XpCtx) : (s.modXp x f).mlogOverflow = s.mlogOverflow := rfl
@[simp] theorem State.modXp_identity (s : State) (x : Xid) (f : XpCtx → XpCtx) : (s.modXp x f).identity = s.identity := rfl
@[simp] theorem State.modXp_stepping (s : State) (x : Xid) (f : XpCtx → XpCtx) : (s.modXp x f).stepping = s.stepping := rfl
@[simp] theorem State.modXp_coremask (s : State) (x : Xid) (f : XpCtx → XpCtx) : (s.modXp x f).coremask = s.coremask := rfl
@[simp] theorem State.modXp_vdroop (s : State) (x : Xid) (f : XpCtx → XpCtx) : (s.modXp x f).vdroop = s.vdroop := rfl
@[simp] theorem State.modXp_minVersions (s : State) (x : Xid) (f : XpCtx → XpCtx) : (s.modXp x f).minVersions = s.minVersions := rfl
@[simp] theorem State.modXp_reserve (s : State) (x : Xid) (f : XpCtx → XpCtx) : (s.modXp x f).reserve = s.reserve := rfl
@[simp] theorem State.modXp_errdrop (s : State) (x : Xid) (f : XpCtx → XpCtx) : (s.modXp x f).errdrop = s.errdrop := rfl
@[simp] theorem State.modXp_errlog (s : State) (x : Xid) (f : XpCtx → XpCtx) : (s.modXp x f).errlog = s.errlog := rfl
@[simp] theorem State.modXp_logRead (s : State) (x : Xid) (f : XpCtx → XpCtx) : (s.modXp x f).logRead = s.logRead := rfl
@[simp] theorem State.modXp_logSeq (s : State) (x : Xid) (f : XpCtx → XpCtx) : (s.modXp x f).logSeq = s.logSeq := rfl
@[simp] theorem State.modXp_logCounts (s : State) (x : Xid) (f : XpCtx → XpCtx) : (s.modXp x f).logCounts = s.logCounts := rfl
@[simp] theorem State.modXp_hearts (s : State) (x : Xid) (f : XpCtx → XpCtx) : (s.modXp x f).hearts = s.hearts := rfl
@[simp] theorem State.modXp_blocksDown (s : State) (x : Xid) (f : XpCtx → XpCtx) : (s.modXp x f).blocksDown = s.blocksDown := rfl
@[simp] theorem State.modXp_stretched (s : State) (x : Xid) (f : XpCtx → XpCtx) : (s.modXp x f).stretched = s.stretched := rfl
@[simp] theorem State.modXp_stretches (s : State) (x : Xid) (f : XpCtx → XpCtx) : (s.modXp x f).stretches = s.stretches := rfl
@[simp] theorem State.modXp_partitions (s : State) (x : Xid) (f : XpCtx → XpCtx) : (s.modXp x f).partitions = s.partitions := rfl
@[simp] theorem State.modXp_swaps (s : State) (x : Xid) (f : XpCtx → XpCtx) : (s.modXp x f).swaps = s.swaps := rfl
@[simp] theorem State.modXp_contexts (s : State) (x : Xid) (f : XpCtx → XpCtx) : (s.modXp x f).contexts = s.contexts := rfl
@[simp] theorem State.modXp_pages (s : State) (x : Xid) (f : XpCtx → XpCtx) : (s.modXp x f).pages = s.pages := rfl
@[simp] theorem State.modXp_brine (s : State) (x : Xid) (f : XpCtx → XpCtx) : (s.modXp x f).brine = s.brine := rfl
@[simp] theorem State.modXp_brineNext (s : State) (x : Xid) (f : XpCtx → XpCtx) : (s.modXp x f).brineNext = s.brineNext := rfl
@[simp] theorem State.modXp_pools (s : State) (x : Xid) (f : XpCtx → XpCtx) : (s.modXp x f).pools = s.pools := rfl
@[simp] theorem State.modXp_mem (s : State) (x : Xid) (f : XpCtx → XpCtx) : (s.modXp x f).mem = s.mem := rfl
@[simp] theorem State.modXp_hostMem (s : State) (x : Xid) (f : XpCtx → XpCtx) : (s.modXp x f).hostMem = s.hostMem := rfl
@[simp] theorem State.modXp_codeWords (s : State) (x : Xid) (f : XpCtx → XpCtx) : (s.modXp x f).codeWords = s.codeWords := rfl
@[simp] theorem State.modXp_oldWords (s : State) (x : Xid) (f : XpCtx → XpCtx) : (s.modXp x f).oldWords = s.oldWords := rfl
@[simp] theorem State.modXp_devWrites (s : State) (x : Xid) (f : XpCtx → XpCtx) : (s.modXp x f).devWrites = s.devWrites := rfl
@[simp] theorem State.modXp_creditsOwed (s : State) (x : Xid) (f : XpCtx → XpCtx) : (s.modXp x f).creditsOwed = s.creditsOwed := rfl
@[simp] theorem State.modXp_ckpt (s : State) (x : Xid) (f : XpCtx → XpCtx) : (s.modXp x f).ckpt = s.ckpt := rfl
@[simp] theorem State.modXp_queues (s : State) (x : Xid) (f : XpCtx → XpCtx) : (s.modXp x f).queues = s.queues := rfl
@[simp] theorem State.modXp_lps (s : State) (x : Xid) (f : XpCtx → XpCtx) : (s.modXp x f).lps = s.lps := rfl
@[simp] theorem State.modXp_kernels (s : State) (x : Xid) (f : XpCtx → XpCtx) : (s.modXp x f).kernels = s.kernels := rfl
@[simp] theorem State.modXp_nextKernel (s : State) (x : Xid) (f : XpCtx → XpCtx) : (s.modXp x f).nextKernel = s.nextKernel := rfl
@[simp] theorem State.modXp_gangs (s : State) (x : Xid) (f : XpCtx → XpCtx) : (s.modXp x f).gangs = s.gangs := rfl
@[simp] theorem State.modXp_nextGang (s : State) (x : Xid) (f : XpCtx → XpCtx) : (s.modXp x f).nextGang = s.nextGang := rfl
@[simp] theorem State.modXp_nextCell (s : State) (x : Xid) (f : XpCtx → XpCtx) : (s.modXp x f).nextCell = s.nextCell := rfl
@[simp] theorem State.modXp_cores (s : State) (x : Xid) (f : XpCtx → XpCtx) : (s.modXp x f).cores = s.cores := rfl
@[simp] theorem State.modXp_copyJobs (s : State) (x : Xid) (f : XpCtx → XpCtx) : (s.modXp x f).copyJobs = s.copyJobs := rfl
@[simp] theorem State.modXp_colls (s : State) (x : Xid) (f : XpCtx → XpCtx) : (s.modXp x f).colls = s.colls := rfl
@[simp] theorem State.modXp_nextId (s : State) (x : Xid) (f : XpCtx → XpCtx) : (s.modXp x f).nextId = s.nextId := rfl
@[simp] theorem State.modXp_late (s : State) (x : Xid) (f : XpCtx → XpCtx) : (s.modXp x f).late = s.late := rfl
@[simp] theorem State.modXp_reqs (s : State) (x : Xid) (f : XpCtx → XpCtx) : (s.modXp x f).reqs = s.reqs := rfl
@[simp] theorem State.modXp_replies (s : State) (x : Xid) (f : XpCtx → XpCtx) : (s.modXp x f).replies = s.replies := rfl
@[simp] theorem State.modXp_terms (s : State) (x : Xid) (f : XpCtx → XpCtx) : (s.modXp x f).terms = s.terms := rfl
@[simp] theorem State.modXp_batches (s : State) (x : Xid) (f : XpCtx → XpCtx) : (s.modXp x f).batches = s.batches := rfl
@[simp] theorem State.modXp_batchReplies (s : State) (x : Xid) (f : XpCtx → XpCtx) : (s.modXp x f).batchReplies = s.batchReplies := rfl
@[simp] theorem State.modXp_owners (s : State) (x : Xid) (f : XpCtx → XpCtx) : (s.modXp x f).owners = s.owners := rfl
@[simp] theorem State.modXp_rank (s : State) (x : Xid) (f : XpCtx → XpCtx) : (s.modXp x f).rank = s.rank := rfl
@[simp] theorem State.modXp_routes (s : State) (x : Xid) (f : XpCtx → XpCtx) : (s.modXp x f).routes = s.routes := rfl
@[simp] theorem State.modXp_ports (s : State) (x : Xid) (f : XpCtx → XpCtx) : (s.modXp x f).ports = s.ports := rfl
@[simp] theorem State.modXp_remote (s : State) (x : Xid) (f : XpCtx → XpCtx) : (s.modXp x f).remote = s.remote := rfl
@[simp] theorem State.modXp_asks (s : State) (x : Xid) (f : XpCtx → XpCtx) : (s.modXp x f).asks = s.asks := rfl
@[simp] theorem State.modXp_filter (s : State) (x : Xid) (f : XpCtx → XpCtx) : (s.modXp x f).filter = s.filter := rfl
@[simp] theorem State.modXp_tagHold (s : State) (x : Xid) (f : XpCtx → XpCtx) : (s.modXp x f).tagHold = s.tagHold := rfl
@[simp] theorem State.modXp_window (s : State) (x : Xid) (f : XpCtx → XpCtx) : (s.modXp x f).window = s.window := rfl
@[simp] theorem State.modXp_amSeqOut (s : State) (x : Xid) (f : XpCtx → XpCtx) : (s.modXp x f).amSeqOut = s.amSeqOut := rfl
@[simp] theorem State.modXp_amSeqIn (s : State) (x : Xid) (f : XpCtx → XpCtx) : (s.modXp x f).amSeqIn = s.amSeqIn := rfl
@[simp] theorem State.modXp_credits (s : State) (x : Xid) (f : XpCtx → XpCtx) : (s.modXp x f).credits = s.credits := rfl
@[simp] theorem State.modXp_windows (s : State) (x : Xid) (f : XpCtx → XpCtx) : (s.modXp x f).windows = s.windows := rfl
@[simp] theorem State.modXp_hostRej (s : State) (x : Xid) (f : XpCtx → XpCtx) : (s.modXp x f).hostRej = s.hostRej := rfl
@[simp] theorem State.modXp_out (s : State) (x : Xid) (f : XpCtx → XpCtx) : (s.modXp x f).out = s.out := rfl
@[simp] theorem State.modXp_agenda (s : State) (x : Xid) (f : XpCtx → XpCtx) : (s.modXp x f).agenda = s.agenda := rfl
@[simp] theorem State.modXp_issue (s : State) (x : Xid) (f : XpCtx → XpCtx) : (s.modXp x f).issue = s.issue := rfl
@[simp] theorem State.modXp_cur (s : State) (x : Xid) (f : XpCtx → XpCtx) : (s.modXp x f).cur = s.cur := rfl
@[simp] theorem State.modXp_upsets (s : State) (x : Xid) (f : XpCtx → XpCtx) : (s.modXp x f).upsets = s.upsets := rfl
@[simp] theorem State.modXp_issued (s : State) (x : Xid) (f : XpCtx → XpCtx) : (s.modXp x f).issued = s.issued := rfl
@[simp] theorem State.modXp_free (s : State) (x : Xid) (f : XpCtx → XpCtx) : (s.modXp x f).free = s.free := rfl
@[simp] theorem State.modXp_turn (s : State) (x : Xid) (f : XpCtx → XpCtx) : (s.modXp x f).turn = s.turn := rfl

@[simp] theorem State.modCtx_clk (s : State) (id : Nat) (f : Context → Context) : (s.modCtx id f).clk = s.clk := rfl
@[simp] theorem State.modCtx_ptpOffset (s : State) (id : Nat) (f : Context → Context) : (s.modCtx id f).ptpOffset = s.ptpOffset := rfl
@[simp] theorem State.modCtx_bootStep (s : State) (id : Nat) (f : Context → Context) : (s.modCtx id f).bootStep = s.bootStep := rfl
@[simp] theorem State.modCtx_bootFailed (s : State) (id : Nat) (f : Context → Context) : (s.modCtx id f).bootFailed = s.bootFailed := rfl
@[simp] theorem State.modCtx_flash (s : State) (id : Nat) (f : Context → Context) : (s.modCtx id f).flash = s.flash := rfl
@[simp] theorem State.modCtx_mlog (s : State) (id : Nat) (f : Context → Context) : (s.modCtx id f).mlog = s.mlog := rfl
@[simp] theorem State.modCtx_mlogOverflow (s : State) (id : Nat) (f : Context → Context) : (s.modCtx id f).mlogOverflow = s.mlogOverflow := rfl
@[simp] theorem State.modCtx_identity (s : State) (id : Nat) (f : Context → Context) : (s.modCtx id f).identity = s.identity := rfl
@[simp] theorem State.modCtx_stepping (s : State) (id : Nat) (f : Context → Context) : (s.modCtx id f).stepping = s.stepping := rfl
@[simp] theorem State.modCtx_coremask (s : State) (id : Nat) (f : Context → Context) : (s.modCtx id f).coremask = s.coremask := rfl
@[simp] theorem State.modCtx_vdroop (s : State) (id : Nat) (f : Context → Context) : (s.modCtx id f).vdroop = s.vdroop := rfl
@[simp] theorem State.modCtx_minVersions (s : State) (id : Nat) (f : Context → Context) : (s.modCtx id f).minVersions = s.minVersions := rfl
@[simp] theorem State.modCtx_reserve (s : State) (id : Nat) (f : Context → Context) : (s.modCtx id f).reserve = s.reserve := rfl
@[simp] theorem State.modCtx_errdrop (s : State) (id : Nat) (f : Context → Context) : (s.modCtx id f).errdrop = s.errdrop := rfl
@[simp] theorem State.modCtx_errlog (s : State) (id : Nat) (f : Context → Context) : (s.modCtx id f).errlog = s.errlog := rfl
@[simp] theorem State.modCtx_logRead (s : State) (id : Nat) (f : Context → Context) : (s.modCtx id f).logRead = s.logRead := rfl
@[simp] theorem State.modCtx_logSeq (s : State) (id : Nat) (f : Context → Context) : (s.modCtx id f).logSeq = s.logSeq := rfl
@[simp] theorem State.modCtx_logCounts (s : State) (id : Nat) (f : Context → Context) : (s.modCtx id f).logCounts = s.logCounts := rfl
@[simp] theorem State.modCtx_hearts (s : State) (id : Nat) (f : Context → Context) : (s.modCtx id f).hearts = s.hearts := rfl
@[simp] theorem State.modCtx_blocksDown (s : State) (id : Nat) (f : Context → Context) : (s.modCtx id f).blocksDown = s.blocksDown := rfl
@[simp] theorem State.modCtx_stretched (s : State) (id : Nat) (f : Context → Context) : (s.modCtx id f).stretched = s.stretched := rfl
@[simp] theorem State.modCtx_stretches (s : State) (id : Nat) (f : Context → Context) : (s.modCtx id f).stretches = s.stretches := rfl
@[simp] theorem State.modCtx_partitions (s : State) (id : Nat) (f : Context → Context) : (s.modCtx id f).partitions = s.partitions := rfl
@[simp] theorem State.modCtx_swaps (s : State) (id : Nat) (f : Context → Context) : (s.modCtx id f).swaps = s.swaps := rfl
@[simp] theorem State.modCtx_pages (s : State) (id : Nat) (f : Context → Context) : (s.modCtx id f).pages = s.pages := rfl
@[simp] theorem State.modCtx_brine (s : State) (id : Nat) (f : Context → Context) : (s.modCtx id f).brine = s.brine := rfl
@[simp] theorem State.modCtx_brineNext (s : State) (id : Nat) (f : Context → Context) : (s.modCtx id f).brineNext = s.brineNext := rfl
@[simp] theorem State.modCtx_pools (s : State) (id : Nat) (f : Context → Context) : (s.modCtx id f).pools = s.pools := rfl
@[simp] theorem State.modCtx_mem (s : State) (id : Nat) (f : Context → Context) : (s.modCtx id f).mem = s.mem := rfl
@[simp] theorem State.modCtx_hostMem (s : State) (id : Nat) (f : Context → Context) : (s.modCtx id f).hostMem = s.hostMem := rfl
@[simp] theorem State.modCtx_codeWords (s : State) (id : Nat) (f : Context → Context) : (s.modCtx id f).codeWords = s.codeWords := rfl
@[simp] theorem State.modCtx_oldWords (s : State) (id : Nat) (f : Context → Context) : (s.modCtx id f).oldWords = s.oldWords := rfl
@[simp] theorem State.modCtx_devWrites (s : State) (id : Nat) (f : Context → Context) : (s.modCtx id f).devWrites = s.devWrites := rfl
@[simp] theorem State.modCtx_creditsOwed (s : State) (id : Nat) (f : Context → Context) : (s.modCtx id f).creditsOwed = s.creditsOwed := rfl
@[simp] theorem State.modCtx_ckpt (s : State) (id : Nat) (f : Context → Context) : (s.modCtx id f).ckpt = s.ckpt := rfl
@[simp] theorem State.modCtx_queues (s : State) (id : Nat) (f : Context → Context) : (s.modCtx id f).queues = s.queues := rfl
@[simp] theorem State.modCtx_lps (s : State) (id : Nat) (f : Context → Context) : (s.modCtx id f).lps = s.lps := rfl
@[simp] theorem State.modCtx_kernels (s : State) (id : Nat) (f : Context → Context) : (s.modCtx id f).kernels = s.kernels := rfl
@[simp] theorem State.modCtx_nextKernel (s : State) (id : Nat) (f : Context → Context) : (s.modCtx id f).nextKernel = s.nextKernel := rfl
@[simp] theorem State.modCtx_gangs (s : State) (id : Nat) (f : Context → Context) : (s.modCtx id f).gangs = s.gangs := rfl
@[simp] theorem State.modCtx_nextGang (s : State) (id : Nat) (f : Context → Context) : (s.modCtx id f).nextGang = s.nextGang := rfl
@[simp] theorem State.modCtx_cells (s : State) (id : Nat) (f : Context → Context) : (s.modCtx id f).cells = s.cells := rfl
@[simp] theorem State.modCtx_nextCell (s : State) (id : Nat) (f : Context → Context) : (s.modCtx id f).nextCell = s.nextCell := rfl
@[simp] theorem State.modCtx_cores (s : State) (id : Nat) (f : Context → Context) : (s.modCtx id f).cores = s.cores := rfl
@[simp] theorem State.modCtx_copyJobs (s : State) (id : Nat) (f : Context → Context) : (s.modCtx id f).copyJobs = s.copyJobs := rfl
@[simp] theorem State.modCtx_colls (s : State) (id : Nat) (f : Context → Context) : (s.modCtx id f).colls = s.colls := rfl
@[simp] theorem State.modCtx_nextId (s : State) (id : Nat) (f : Context → Context) : (s.modCtx id f).nextId = s.nextId := rfl
@[simp] theorem State.modCtx_late (s : State) (id : Nat) (f : Context → Context) : (s.modCtx id f).late = s.late := rfl
@[simp] theorem State.modCtx_reqs (s : State) (id : Nat) (f : Context → Context) : (s.modCtx id f).reqs = s.reqs := rfl
@[simp] theorem State.modCtx_replies (s : State) (id : Nat) (f : Context → Context) : (s.modCtx id f).replies = s.replies := rfl
@[simp] theorem State.modCtx_terms (s : State) (id : Nat) (f : Context → Context) : (s.modCtx id f).terms = s.terms := rfl
@[simp] theorem State.modCtx_batches (s : State) (id : Nat) (f : Context → Context) : (s.modCtx id f).batches = s.batches := rfl
@[simp] theorem State.modCtx_batchReplies (s : State) (id : Nat) (f : Context → Context) : (s.modCtx id f).batchReplies = s.batchReplies := rfl
@[simp] theorem State.modCtx_owners (s : State) (id : Nat) (f : Context → Context) : (s.modCtx id f).owners = s.owners := rfl
@[simp] theorem State.modCtx_rank (s : State) (id : Nat) (f : Context → Context) : (s.modCtx id f).rank = s.rank := rfl
@[simp] theorem State.modCtx_routes (s : State) (id : Nat) (f : Context → Context) : (s.modCtx id f).routes = s.routes := rfl
@[simp] theorem State.modCtx_ports (s : State) (id : Nat) (f : Context → Context) : (s.modCtx id f).ports = s.ports := rfl
@[simp] theorem State.modCtx_remote (s : State) (id : Nat) (f : Context → Context) : (s.modCtx id f).remote = s.remote := rfl
@[simp] theorem State.modCtx_asks (s : State) (id : Nat) (f : Context → Context) : (s.modCtx id f).asks = s.asks := rfl
@[simp] theorem State.modCtx_filter (s : State) (id : Nat) (f : Context → Context) : (s.modCtx id f).filter = s.filter := rfl
@[simp] theorem State.modCtx_tagHold (s : State) (id : Nat) (f : Context → Context) : (s.modCtx id f).tagHold = s.tagHold := rfl
@[simp] theorem State.modCtx_window (s : State) (id : Nat) (f : Context → Context) : (s.modCtx id f).window = s.window := rfl
@[simp] theorem State.modCtx_amSeqOut (s : State) (id : Nat) (f : Context → Context) : (s.modCtx id f).amSeqOut = s.amSeqOut := rfl
@[simp] theorem State.modCtx_amSeqIn (s : State) (id : Nat) (f : Context → Context) : (s.modCtx id f).amSeqIn = s.amSeqIn := rfl
@[simp] theorem State.modCtx_credits (s : State) (id : Nat) (f : Context → Context) : (s.modCtx id f).credits = s.credits := rfl
@[simp] theorem State.modCtx_windows (s : State) (id : Nat) (f : Context → Context) : (s.modCtx id f).windows = s.windows := rfl
@[simp] theorem State.modCtx_hostRej (s : State) (id : Nat) (f : Context → Context) : (s.modCtx id f).hostRej = s.hostRej := rfl
@[simp] theorem State.modCtx_out (s : State) (id : Nat) (f : Context → Context) : (s.modCtx id f).out = s.out := rfl
@[simp] theorem State.modCtx_agenda (s : State) (id : Nat) (f : Context → Context) : (s.modCtx id f).agenda = s.agenda := rfl
@[simp] theorem State.modCtx_issue (s : State) (id : Nat) (f : Context → Context) : (s.modCtx id f).issue = s.issue := rfl
@[simp] theorem State.modCtx_cur (s : State) (id : Nat) (f : Context → Context) : (s.modCtx id f).cur = s.cur := rfl
@[simp] theorem State.modCtx_upsets (s : State) (id : Nat) (f : Context → Context) : (s.modCtx id f).upsets = s.upsets := rfl
@[simp] theorem State.modCtx_issued (s : State) (id : Nat) (f : Context → Context) : (s.modCtx id f).issued = s.issued := rfl
@[simp] theorem State.modCtx_free (s : State) (id : Nat) (f : Context → Context) : (s.modCtx id f).free = s.free := rfl
@[simp] theorem State.modCtx_turn (s : State) (id : Nat) (f : Context → Context) : (s.modCtx id f).turn = s.turn := rfl

@[simp] theorem State.modCore_clk (s : State) (id : Nat) (f : Core → Core) : (s.modCore id f).clk = s.clk := rfl
@[simp] theorem State.modCore_ptpOffset (s : State) (id : Nat) (f : Core → Core) : (s.modCore id f).ptpOffset = s.ptpOffset := rfl
@[simp] theorem State.modCore_bootStep (s : State) (id : Nat) (f : Core → Core) : (s.modCore id f).bootStep = s.bootStep := rfl
@[simp] theorem State.modCore_bootFailed (s : State) (id : Nat) (f : Core → Core) : (s.modCore id f).bootFailed = s.bootFailed := rfl
@[simp] theorem State.modCore_flash (s : State) (id : Nat) (f : Core → Core) : (s.modCore id f).flash = s.flash := rfl
@[simp] theorem State.modCore_mlog (s : State) (id : Nat) (f : Core → Core) : (s.modCore id f).mlog = s.mlog := rfl
@[simp] theorem State.modCore_mlogOverflow (s : State) (id : Nat) (f : Core → Core) : (s.modCore id f).mlogOverflow = s.mlogOverflow := rfl
@[simp] theorem State.modCore_identity (s : State) (id : Nat) (f : Core → Core) : (s.modCore id f).identity = s.identity := rfl
@[simp] theorem State.modCore_stepping (s : State) (id : Nat) (f : Core → Core) : (s.modCore id f).stepping = s.stepping := rfl
@[simp] theorem State.modCore_coremask (s : State) (id : Nat) (f : Core → Core) : (s.modCore id f).coremask = s.coremask := rfl
@[simp] theorem State.modCore_vdroop (s : State) (id : Nat) (f : Core → Core) : (s.modCore id f).vdroop = s.vdroop := rfl
@[simp] theorem State.modCore_minVersions (s : State) (id : Nat) (f : Core → Core) : (s.modCore id f).minVersions = s.minVersions := rfl
@[simp] theorem State.modCore_reserve (s : State) (id : Nat) (f : Core → Core) : (s.modCore id f).reserve = s.reserve := rfl
@[simp] theorem State.modCore_errdrop (s : State) (id : Nat) (f : Core → Core) : (s.modCore id f).errdrop = s.errdrop := rfl
@[simp] theorem State.modCore_errlog (s : State) (id : Nat) (f : Core → Core) : (s.modCore id f).errlog = s.errlog := rfl
@[simp] theorem State.modCore_logRead (s : State) (id : Nat) (f : Core → Core) : (s.modCore id f).logRead = s.logRead := rfl
@[simp] theorem State.modCore_logSeq (s : State) (id : Nat) (f : Core → Core) : (s.modCore id f).logSeq = s.logSeq := rfl
@[simp] theorem State.modCore_logCounts (s : State) (id : Nat) (f : Core → Core) : (s.modCore id f).logCounts = s.logCounts := rfl
@[simp] theorem State.modCore_hearts (s : State) (id : Nat) (f : Core → Core) : (s.modCore id f).hearts = s.hearts := rfl
@[simp] theorem State.modCore_blocksDown (s : State) (id : Nat) (f : Core → Core) : (s.modCore id f).blocksDown = s.blocksDown := rfl
@[simp] theorem State.modCore_stretched (s : State) (id : Nat) (f : Core → Core) : (s.modCore id f).stretched = s.stretched := rfl
@[simp] theorem State.modCore_stretches (s : State) (id : Nat) (f : Core → Core) : (s.modCore id f).stretches = s.stretches := rfl
@[simp] theorem State.modCore_partitions (s : State) (id : Nat) (f : Core → Core) : (s.modCore id f).partitions = s.partitions := rfl
@[simp] theorem State.modCore_swaps (s : State) (id : Nat) (f : Core → Core) : (s.modCore id f).swaps = s.swaps := rfl
@[simp] theorem State.modCore_contexts (s : State) (id : Nat) (f : Core → Core) : (s.modCore id f).contexts = s.contexts := rfl
@[simp] theorem State.modCore_pages (s : State) (id : Nat) (f : Core → Core) : (s.modCore id f).pages = s.pages := rfl
@[simp] theorem State.modCore_brine (s : State) (id : Nat) (f : Core → Core) : (s.modCore id f).brine = s.brine := rfl
@[simp] theorem State.modCore_brineNext (s : State) (id : Nat) (f : Core → Core) : (s.modCore id f).brineNext = s.brineNext := rfl
@[simp] theorem State.modCore_pools (s : State) (id : Nat) (f : Core → Core) : (s.modCore id f).pools = s.pools := rfl
@[simp] theorem State.modCore_mem (s : State) (id : Nat) (f : Core → Core) : (s.modCore id f).mem = s.mem := rfl
@[simp] theorem State.modCore_hostMem (s : State) (id : Nat) (f : Core → Core) : (s.modCore id f).hostMem = s.hostMem := rfl
@[simp] theorem State.modCore_codeWords (s : State) (id : Nat) (f : Core → Core) : (s.modCore id f).codeWords = s.codeWords := rfl
@[simp] theorem State.modCore_oldWords (s : State) (id : Nat) (f : Core → Core) : (s.modCore id f).oldWords = s.oldWords := rfl
@[simp] theorem State.modCore_devWrites (s : State) (id : Nat) (f : Core → Core) : (s.modCore id f).devWrites = s.devWrites := rfl
@[simp] theorem State.modCore_creditsOwed (s : State) (id : Nat) (f : Core → Core) : (s.modCore id f).creditsOwed = s.creditsOwed := rfl
@[simp] theorem State.modCore_ckpt (s : State) (id : Nat) (f : Core → Core) : (s.modCore id f).ckpt = s.ckpt := rfl
@[simp] theorem State.modCore_queues (s : State) (id : Nat) (f : Core → Core) : (s.modCore id f).queues = s.queues := rfl
@[simp] theorem State.modCore_lps (s : State) (id : Nat) (f : Core → Core) : (s.modCore id f).lps = s.lps := rfl
@[simp] theorem State.modCore_kernels (s : State) (id : Nat) (f : Core → Core) : (s.modCore id f).kernels = s.kernels := rfl
@[simp] theorem State.modCore_nextKernel (s : State) (id : Nat) (f : Core → Core) : (s.modCore id f).nextKernel = s.nextKernel := rfl
@[simp] theorem State.modCore_gangs (s : State) (id : Nat) (f : Core → Core) : (s.modCore id f).gangs = s.gangs := rfl
@[simp] theorem State.modCore_nextGang (s : State) (id : Nat) (f : Core → Core) : (s.modCore id f).nextGang = s.nextGang := rfl
@[simp] theorem State.modCore_cells (s : State) (id : Nat) (f : Core → Core) : (s.modCore id f).cells = s.cells := rfl
@[simp] theorem State.modCore_nextCell (s : State) (id : Nat) (f : Core → Core) : (s.modCore id f).nextCell = s.nextCell := rfl
@[simp] theorem State.modCore_copyJobs (s : State) (id : Nat) (f : Core → Core) : (s.modCore id f).copyJobs = s.copyJobs := rfl
@[simp] theorem State.modCore_colls (s : State) (id : Nat) (f : Core → Core) : (s.modCore id f).colls = s.colls := rfl
@[simp] theorem State.modCore_nextId (s : State) (id : Nat) (f : Core → Core) : (s.modCore id f).nextId = s.nextId := rfl
@[simp] theorem State.modCore_late (s : State) (id : Nat) (f : Core → Core) : (s.modCore id f).late = s.late := rfl
@[simp] theorem State.modCore_reqs (s : State) (id : Nat) (f : Core → Core) : (s.modCore id f).reqs = s.reqs := rfl
@[simp] theorem State.modCore_replies (s : State) (id : Nat) (f : Core → Core) : (s.modCore id f).replies = s.replies := rfl
@[simp] theorem State.modCore_terms (s : State) (id : Nat) (f : Core → Core) : (s.modCore id f).terms = s.terms := rfl
@[simp] theorem State.modCore_batches (s : State) (id : Nat) (f : Core → Core) : (s.modCore id f).batches = s.batches := rfl
@[simp] theorem State.modCore_batchReplies (s : State) (id : Nat) (f : Core → Core) : (s.modCore id f).batchReplies = s.batchReplies := rfl
@[simp] theorem State.modCore_owners (s : State) (id : Nat) (f : Core → Core) : (s.modCore id f).owners = s.owners := rfl
@[simp] theorem State.modCore_rank (s : State) (id : Nat) (f : Core → Core) : (s.modCore id f).rank = s.rank := rfl
@[simp] theorem State.modCore_routes (s : State) (id : Nat) (f : Core → Core) : (s.modCore id f).routes = s.routes := rfl
@[simp] theorem State.modCore_ports (s : State) (id : Nat) (f : Core → Core) : (s.modCore id f).ports = s.ports := rfl
@[simp] theorem State.modCore_remote (s : State) (id : Nat) (f : Core → Core) : (s.modCore id f).remote = s.remote := rfl
@[simp] theorem State.modCore_asks (s : State) (id : Nat) (f : Core → Core) : (s.modCore id f).asks = s.asks := rfl
@[simp] theorem State.modCore_filter (s : State) (id : Nat) (f : Core → Core) : (s.modCore id f).filter = s.filter := rfl
@[simp] theorem State.modCore_tagHold (s : State) (id : Nat) (f : Core → Core) : (s.modCore id f).tagHold = s.tagHold := rfl
@[simp] theorem State.modCore_window (s : State) (id : Nat) (f : Core → Core) : (s.modCore id f).window = s.window := rfl
@[simp] theorem State.modCore_amSeqOut (s : State) (id : Nat) (f : Core → Core) : (s.modCore id f).amSeqOut = s.amSeqOut := rfl
@[simp] theorem State.modCore_amSeqIn (s : State) (id : Nat) (f : Core → Core) : (s.modCore id f).amSeqIn = s.amSeqIn := rfl
@[simp] theorem State.modCore_credits (s : State) (id : Nat) (f : Core → Core) : (s.modCore id f).credits = s.credits := rfl
@[simp] theorem State.modCore_windows (s : State) (id : Nat) (f : Core → Core) : (s.modCore id f).windows = s.windows := rfl
@[simp] theorem State.modCore_hostRej (s : State) (id : Nat) (f : Core → Core) : (s.modCore id f).hostRej = s.hostRej := rfl
@[simp] theorem State.modCore_out (s : State) (id : Nat) (f : Core → Core) : (s.modCore id f).out = s.out := rfl
@[simp] theorem State.modCore_agenda (s : State) (id : Nat) (f : Core → Core) : (s.modCore id f).agenda = s.agenda := rfl
@[simp] theorem State.modCore_issue (s : State) (id : Nat) (f : Core → Core) : (s.modCore id f).issue = s.issue := rfl
@[simp] theorem State.modCore_cur (s : State) (id : Nat) (f : Core → Core) : (s.modCore id f).cur = s.cur := rfl
@[simp] theorem State.modCore_upsets (s : State) (id : Nat) (f : Core → Core) : (s.modCore id f).upsets = s.upsets := rfl
@[simp] theorem State.modCore_issued (s : State) (id : Nat) (f : Core → Core) : (s.modCore id f).issued = s.issued := rfl
@[simp] theorem State.modCore_free (s : State) (id : Nat) (f : Core → Core) : (s.modCore id f).free = s.free := rfl
@[simp] theorem State.modCore_turn (s : State) (id : Nat) (f : Core → Core) : (s.modCore id f).turn = s.turn := rfl

@[simp] theorem State.modGang_clk (s : State) (id : Nat) (f : Gang → Gang) : (s.modGang id f).clk = s.clk := rfl
@[simp] theorem State.modGang_ptpOffset (s : State) (id : Nat) (f : Gang → Gang) : (s.modGang id f).ptpOffset = s.ptpOffset := rfl
@[simp] theorem State.modGang_bootStep (s : State) (id : Nat) (f : Gang → Gang) : (s.modGang id f).bootStep = s.bootStep := rfl
@[simp] theorem State.modGang_bootFailed (s : State) (id : Nat) (f : Gang → Gang) : (s.modGang id f).bootFailed = s.bootFailed := rfl
@[simp] theorem State.modGang_flash (s : State) (id : Nat) (f : Gang → Gang) : (s.modGang id f).flash = s.flash := rfl
@[simp] theorem State.modGang_mlog (s : State) (id : Nat) (f : Gang → Gang) : (s.modGang id f).mlog = s.mlog := rfl
@[simp] theorem State.modGang_mlogOverflow (s : State) (id : Nat) (f : Gang → Gang) : (s.modGang id f).mlogOverflow = s.mlogOverflow := rfl
@[simp] theorem State.modGang_identity (s : State) (id : Nat) (f : Gang → Gang) : (s.modGang id f).identity = s.identity := rfl
@[simp] theorem State.modGang_stepping (s : State) (id : Nat) (f : Gang → Gang) : (s.modGang id f).stepping = s.stepping := rfl
@[simp] theorem State.modGang_coremask (s : State) (id : Nat) (f : Gang → Gang) : (s.modGang id f).coremask = s.coremask := rfl
@[simp] theorem State.modGang_vdroop (s : State) (id : Nat) (f : Gang → Gang) : (s.modGang id f).vdroop = s.vdroop := rfl
@[simp] theorem State.modGang_minVersions (s : State) (id : Nat) (f : Gang → Gang) : (s.modGang id f).minVersions = s.minVersions := rfl
@[simp] theorem State.modGang_reserve (s : State) (id : Nat) (f : Gang → Gang) : (s.modGang id f).reserve = s.reserve := rfl
@[simp] theorem State.modGang_errdrop (s : State) (id : Nat) (f : Gang → Gang) : (s.modGang id f).errdrop = s.errdrop := rfl
@[simp] theorem State.modGang_errlog (s : State) (id : Nat) (f : Gang → Gang) : (s.modGang id f).errlog = s.errlog := rfl
@[simp] theorem State.modGang_logRead (s : State) (id : Nat) (f : Gang → Gang) : (s.modGang id f).logRead = s.logRead := rfl
@[simp] theorem State.modGang_logSeq (s : State) (id : Nat) (f : Gang → Gang) : (s.modGang id f).logSeq = s.logSeq := rfl
@[simp] theorem State.modGang_logCounts (s : State) (id : Nat) (f : Gang → Gang) : (s.modGang id f).logCounts = s.logCounts := rfl
@[simp] theorem State.modGang_hearts (s : State) (id : Nat) (f : Gang → Gang) : (s.modGang id f).hearts = s.hearts := rfl
@[simp] theorem State.modGang_blocksDown (s : State) (id : Nat) (f : Gang → Gang) : (s.modGang id f).blocksDown = s.blocksDown := rfl
@[simp] theorem State.modGang_stretched (s : State) (id : Nat) (f : Gang → Gang) : (s.modGang id f).stretched = s.stretched := rfl
@[simp] theorem State.modGang_stretches (s : State) (id : Nat) (f : Gang → Gang) : (s.modGang id f).stretches = s.stretches := rfl
@[simp] theorem State.modGang_partitions (s : State) (id : Nat) (f : Gang → Gang) : (s.modGang id f).partitions = s.partitions := rfl
@[simp] theorem State.modGang_swaps (s : State) (id : Nat) (f : Gang → Gang) : (s.modGang id f).swaps = s.swaps := rfl
@[simp] theorem State.modGang_contexts (s : State) (id : Nat) (f : Gang → Gang) : (s.modGang id f).contexts = s.contexts := rfl
@[simp] theorem State.modGang_pages (s : State) (id : Nat) (f : Gang → Gang) : (s.modGang id f).pages = s.pages := rfl
@[simp] theorem State.modGang_brine (s : State) (id : Nat) (f : Gang → Gang) : (s.modGang id f).brine = s.brine := rfl
@[simp] theorem State.modGang_brineNext (s : State) (id : Nat) (f : Gang → Gang) : (s.modGang id f).brineNext = s.brineNext := rfl
@[simp] theorem State.modGang_pools (s : State) (id : Nat) (f : Gang → Gang) : (s.modGang id f).pools = s.pools := rfl
@[simp] theorem State.modGang_mem (s : State) (id : Nat) (f : Gang → Gang) : (s.modGang id f).mem = s.mem := rfl
@[simp] theorem State.modGang_hostMem (s : State) (id : Nat) (f : Gang → Gang) : (s.modGang id f).hostMem = s.hostMem := rfl
@[simp] theorem State.modGang_codeWords (s : State) (id : Nat) (f : Gang → Gang) : (s.modGang id f).codeWords = s.codeWords := rfl
@[simp] theorem State.modGang_oldWords (s : State) (id : Nat) (f : Gang → Gang) : (s.modGang id f).oldWords = s.oldWords := rfl
@[simp] theorem State.modGang_devWrites (s : State) (id : Nat) (f : Gang → Gang) : (s.modGang id f).devWrites = s.devWrites := rfl
@[simp] theorem State.modGang_creditsOwed (s : State) (id : Nat) (f : Gang → Gang) : (s.modGang id f).creditsOwed = s.creditsOwed := rfl
@[simp] theorem State.modGang_ckpt (s : State) (id : Nat) (f : Gang → Gang) : (s.modGang id f).ckpt = s.ckpt := rfl
@[simp] theorem State.modGang_queues (s : State) (id : Nat) (f : Gang → Gang) : (s.modGang id f).queues = s.queues := rfl
@[simp] theorem State.modGang_lps (s : State) (id : Nat) (f : Gang → Gang) : (s.modGang id f).lps = s.lps := rfl
@[simp] theorem State.modGang_kernels (s : State) (id : Nat) (f : Gang → Gang) : (s.modGang id f).kernels = s.kernels := rfl
@[simp] theorem State.modGang_nextKernel (s : State) (id : Nat) (f : Gang → Gang) : (s.modGang id f).nextKernel = s.nextKernel := rfl
@[simp] theorem State.modGang_nextGang (s : State) (id : Nat) (f : Gang → Gang) : (s.modGang id f).nextGang = s.nextGang := rfl
@[simp] theorem State.modGang_cells (s : State) (id : Nat) (f : Gang → Gang) : (s.modGang id f).cells = s.cells := rfl
@[simp] theorem State.modGang_nextCell (s : State) (id : Nat) (f : Gang → Gang) : (s.modGang id f).nextCell = s.nextCell := rfl
@[simp] theorem State.modGang_cores (s : State) (id : Nat) (f : Gang → Gang) : (s.modGang id f).cores = s.cores := rfl
@[simp] theorem State.modGang_copyJobs (s : State) (id : Nat) (f : Gang → Gang) : (s.modGang id f).copyJobs = s.copyJobs := rfl
@[simp] theorem State.modGang_colls (s : State) (id : Nat) (f : Gang → Gang) : (s.modGang id f).colls = s.colls := rfl
@[simp] theorem State.modGang_nextId (s : State) (id : Nat) (f : Gang → Gang) : (s.modGang id f).nextId = s.nextId := rfl
@[simp] theorem State.modGang_late (s : State) (id : Nat) (f : Gang → Gang) : (s.modGang id f).late = s.late := rfl
@[simp] theorem State.modGang_reqs (s : State) (id : Nat) (f : Gang → Gang) : (s.modGang id f).reqs = s.reqs := rfl
@[simp] theorem State.modGang_replies (s : State) (id : Nat) (f : Gang → Gang) : (s.modGang id f).replies = s.replies := rfl
@[simp] theorem State.modGang_terms (s : State) (id : Nat) (f : Gang → Gang) : (s.modGang id f).terms = s.terms := rfl
@[simp] theorem State.modGang_batches (s : State) (id : Nat) (f : Gang → Gang) : (s.modGang id f).batches = s.batches := rfl
@[simp] theorem State.modGang_batchReplies (s : State) (id : Nat) (f : Gang → Gang) : (s.modGang id f).batchReplies = s.batchReplies := rfl
@[simp] theorem State.modGang_owners (s : State) (id : Nat) (f : Gang → Gang) : (s.modGang id f).owners = s.owners := rfl
@[simp] theorem State.modGang_rank (s : State) (id : Nat) (f : Gang → Gang) : (s.modGang id f).rank = s.rank := rfl
@[simp] theorem State.modGang_routes (s : State) (id : Nat) (f : Gang → Gang) : (s.modGang id f).routes = s.routes := rfl
@[simp] theorem State.modGang_ports (s : State) (id : Nat) (f : Gang → Gang) : (s.modGang id f).ports = s.ports := rfl
@[simp] theorem State.modGang_remote (s : State) (id : Nat) (f : Gang → Gang) : (s.modGang id f).remote = s.remote := rfl
@[simp] theorem State.modGang_asks (s : State) (id : Nat) (f : Gang → Gang) : (s.modGang id f).asks = s.asks := rfl
@[simp] theorem State.modGang_filter (s : State) (id : Nat) (f : Gang → Gang) : (s.modGang id f).filter = s.filter := rfl
@[simp] theorem State.modGang_tagHold (s : State) (id : Nat) (f : Gang → Gang) : (s.modGang id f).tagHold = s.tagHold := rfl
@[simp] theorem State.modGang_window (s : State) (id : Nat) (f : Gang → Gang) : (s.modGang id f).window = s.window := rfl
@[simp] theorem State.modGang_amSeqOut (s : State) (id : Nat) (f : Gang → Gang) : (s.modGang id f).amSeqOut = s.amSeqOut := rfl
@[simp] theorem State.modGang_amSeqIn (s : State) (id : Nat) (f : Gang → Gang) : (s.modGang id f).amSeqIn = s.amSeqIn := rfl
@[simp] theorem State.modGang_credits (s : State) (id : Nat) (f : Gang → Gang) : (s.modGang id f).credits = s.credits := rfl
@[simp] theorem State.modGang_windows (s : State) (id : Nat) (f : Gang → Gang) : (s.modGang id f).windows = s.windows := rfl
@[simp] theorem State.modGang_hostRej (s : State) (id : Nat) (f : Gang → Gang) : (s.modGang id f).hostRej = s.hostRej := rfl
@[simp] theorem State.modGang_out (s : State) (id : Nat) (f : Gang → Gang) : (s.modGang id f).out = s.out := rfl
@[simp] theorem State.modGang_agenda (s : State) (id : Nat) (f : Gang → Gang) : (s.modGang id f).agenda = s.agenda := rfl
@[simp] theorem State.modGang_issue (s : State) (id : Nat) (f : Gang → Gang) : (s.modGang id f).issue = s.issue := rfl
@[simp] theorem State.modGang_cur (s : State) (id : Nat) (f : Gang → Gang) : (s.modGang id f).cur = s.cur := rfl
@[simp] theorem State.modGang_upsets (s : State) (id : Nat) (f : Gang → Gang) : (s.modGang id f).upsets = s.upsets := rfl
@[simp] theorem State.modGang_issued (s : State) (id : Nat) (f : Gang → Gang) : (s.modGang id f).issued = s.issued := rfl
@[simp] theorem State.modGang_free (s : State) (id : Nat) (f : Gang → Gang) : (s.modGang id f).free = s.free := rfl
@[simp] theorem State.modGang_turn (s : State) (id : Nat) (f : Gang → Gang) : (s.modGang id f).turn = s.turn := rfl

@[simp] theorem State.modKernel_clk (s : State) (id : Nat) (f : Kernel → Kernel) : (s.modKernel id f).clk = s.clk := rfl
@[simp] theorem State.modKernel_ptpOffset (s : State) (id : Nat) (f : Kernel → Kernel) : (s.modKernel id f).ptpOffset = s.ptpOffset := rfl
@[simp] theorem State.modKernel_bootStep (s : State) (id : Nat) (f : Kernel → Kernel) : (s.modKernel id f).bootStep = s.bootStep := rfl
@[simp] theorem State.modKernel_bootFailed (s : State) (id : Nat) (f : Kernel → Kernel) : (s.modKernel id f).bootFailed = s.bootFailed := rfl
@[simp] theorem State.modKernel_flash (s : State) (id : Nat) (f : Kernel → Kernel) : (s.modKernel id f).flash = s.flash := rfl
@[simp] theorem State.modKernel_mlog (s : State) (id : Nat) (f : Kernel → Kernel) : (s.modKernel id f).mlog = s.mlog := rfl
@[simp] theorem State.modKernel_mlogOverflow (s : State) (id : Nat) (f : Kernel → Kernel) : (s.modKernel id f).mlogOverflow = s.mlogOverflow := rfl
@[simp] theorem State.modKernel_identity (s : State) (id : Nat) (f : Kernel → Kernel) : (s.modKernel id f).identity = s.identity := rfl
@[simp] theorem State.modKernel_stepping (s : State) (id : Nat) (f : Kernel → Kernel) : (s.modKernel id f).stepping = s.stepping := rfl
@[simp] theorem State.modKernel_coremask (s : State) (id : Nat) (f : Kernel → Kernel) : (s.modKernel id f).coremask = s.coremask := rfl
@[simp] theorem State.modKernel_vdroop (s : State) (id : Nat) (f : Kernel → Kernel) : (s.modKernel id f).vdroop = s.vdroop := rfl
@[simp] theorem State.modKernel_minVersions (s : State) (id : Nat) (f : Kernel → Kernel) : (s.modKernel id f).minVersions = s.minVersions := rfl
@[simp] theorem State.modKernel_reserve (s : State) (id : Nat) (f : Kernel → Kernel) : (s.modKernel id f).reserve = s.reserve := rfl
@[simp] theorem State.modKernel_errdrop (s : State) (id : Nat) (f : Kernel → Kernel) : (s.modKernel id f).errdrop = s.errdrop := rfl
@[simp] theorem State.modKernel_errlog (s : State) (id : Nat) (f : Kernel → Kernel) : (s.modKernel id f).errlog = s.errlog := rfl
@[simp] theorem State.modKernel_logRead (s : State) (id : Nat) (f : Kernel → Kernel) : (s.modKernel id f).logRead = s.logRead := rfl
@[simp] theorem State.modKernel_logSeq (s : State) (id : Nat) (f : Kernel → Kernel) : (s.modKernel id f).logSeq = s.logSeq := rfl
@[simp] theorem State.modKernel_logCounts (s : State) (id : Nat) (f : Kernel → Kernel) : (s.modKernel id f).logCounts = s.logCounts := rfl
@[simp] theorem State.modKernel_hearts (s : State) (id : Nat) (f : Kernel → Kernel) : (s.modKernel id f).hearts = s.hearts := rfl
@[simp] theorem State.modKernel_blocksDown (s : State) (id : Nat) (f : Kernel → Kernel) : (s.modKernel id f).blocksDown = s.blocksDown := rfl
@[simp] theorem State.modKernel_stretched (s : State) (id : Nat) (f : Kernel → Kernel) : (s.modKernel id f).stretched = s.stretched := rfl
@[simp] theorem State.modKernel_stretches (s : State) (id : Nat) (f : Kernel → Kernel) : (s.modKernel id f).stretches = s.stretches := rfl
@[simp] theorem State.modKernel_partitions (s : State) (id : Nat) (f : Kernel → Kernel) : (s.modKernel id f).partitions = s.partitions := rfl
@[simp] theorem State.modKernel_swaps (s : State) (id : Nat) (f : Kernel → Kernel) : (s.modKernel id f).swaps = s.swaps := rfl
@[simp] theorem State.modKernel_contexts (s : State) (id : Nat) (f : Kernel → Kernel) : (s.modKernel id f).contexts = s.contexts := rfl
@[simp] theorem State.modKernel_pages (s : State) (id : Nat) (f : Kernel → Kernel) : (s.modKernel id f).pages = s.pages := rfl
@[simp] theorem State.modKernel_brine (s : State) (id : Nat) (f : Kernel → Kernel) : (s.modKernel id f).brine = s.brine := rfl
@[simp] theorem State.modKernel_brineNext (s : State) (id : Nat) (f : Kernel → Kernel) : (s.modKernel id f).brineNext = s.brineNext := rfl
@[simp] theorem State.modKernel_pools (s : State) (id : Nat) (f : Kernel → Kernel) : (s.modKernel id f).pools = s.pools := rfl
@[simp] theorem State.modKernel_mem (s : State) (id : Nat) (f : Kernel → Kernel) : (s.modKernel id f).mem = s.mem := rfl
@[simp] theorem State.modKernel_hostMem (s : State) (id : Nat) (f : Kernel → Kernel) : (s.modKernel id f).hostMem = s.hostMem := rfl
@[simp] theorem State.modKernel_codeWords (s : State) (id : Nat) (f : Kernel → Kernel) : (s.modKernel id f).codeWords = s.codeWords := rfl
@[simp] theorem State.modKernel_oldWords (s : State) (id : Nat) (f : Kernel → Kernel) : (s.modKernel id f).oldWords = s.oldWords := rfl
@[simp] theorem State.modKernel_devWrites (s : State) (id : Nat) (f : Kernel → Kernel) : (s.modKernel id f).devWrites = s.devWrites := rfl
@[simp] theorem State.modKernel_creditsOwed (s : State) (id : Nat) (f : Kernel → Kernel) : (s.modKernel id f).creditsOwed = s.creditsOwed := rfl
@[simp] theorem State.modKernel_ckpt (s : State) (id : Nat) (f : Kernel → Kernel) : (s.modKernel id f).ckpt = s.ckpt := rfl
@[simp] theorem State.modKernel_queues (s : State) (id : Nat) (f : Kernel → Kernel) : (s.modKernel id f).queues = s.queues := rfl
@[simp] theorem State.modKernel_lps (s : State) (id : Nat) (f : Kernel → Kernel) : (s.modKernel id f).lps = s.lps := rfl
@[simp] theorem State.modKernel_nextKernel (s : State) (id : Nat) (f : Kernel → Kernel) : (s.modKernel id f).nextKernel = s.nextKernel := rfl
@[simp] theorem State.modKernel_gangs (s : State) (id : Nat) (f : Kernel → Kernel) : (s.modKernel id f).gangs = s.gangs := rfl
@[simp] theorem State.modKernel_nextGang (s : State) (id : Nat) (f : Kernel → Kernel) : (s.modKernel id f).nextGang = s.nextGang := rfl
@[simp] theorem State.modKernel_cells (s : State) (id : Nat) (f : Kernel → Kernel) : (s.modKernel id f).cells = s.cells := rfl
@[simp] theorem State.modKernel_nextCell (s : State) (id : Nat) (f : Kernel → Kernel) : (s.modKernel id f).nextCell = s.nextCell := rfl
@[simp] theorem State.modKernel_cores (s : State) (id : Nat) (f : Kernel → Kernel) : (s.modKernel id f).cores = s.cores := rfl
@[simp] theorem State.modKernel_copyJobs (s : State) (id : Nat) (f : Kernel → Kernel) : (s.modKernel id f).copyJobs = s.copyJobs := rfl
@[simp] theorem State.modKernel_colls (s : State) (id : Nat) (f : Kernel → Kernel) : (s.modKernel id f).colls = s.colls := rfl
@[simp] theorem State.modKernel_nextId (s : State) (id : Nat) (f : Kernel → Kernel) : (s.modKernel id f).nextId = s.nextId := rfl
@[simp] theorem State.modKernel_late (s : State) (id : Nat) (f : Kernel → Kernel) : (s.modKernel id f).late = s.late := rfl
@[simp] theorem State.modKernel_reqs (s : State) (id : Nat) (f : Kernel → Kernel) : (s.modKernel id f).reqs = s.reqs := rfl
@[simp] theorem State.modKernel_replies (s : State) (id : Nat) (f : Kernel → Kernel) : (s.modKernel id f).replies = s.replies := rfl
@[simp] theorem State.modKernel_terms (s : State) (id : Nat) (f : Kernel → Kernel) : (s.modKernel id f).terms = s.terms := rfl
@[simp] theorem State.modKernel_batches (s : State) (id : Nat) (f : Kernel → Kernel) : (s.modKernel id f).batches = s.batches := rfl
@[simp] theorem State.modKernel_batchReplies (s : State) (id : Nat) (f : Kernel → Kernel) : (s.modKernel id f).batchReplies = s.batchReplies := rfl
@[simp] theorem State.modKernel_owners (s : State) (id : Nat) (f : Kernel → Kernel) : (s.modKernel id f).owners = s.owners := rfl
@[simp] theorem State.modKernel_rank (s : State) (id : Nat) (f : Kernel → Kernel) : (s.modKernel id f).rank = s.rank := rfl
@[simp] theorem State.modKernel_routes (s : State) (id : Nat) (f : Kernel → Kernel) : (s.modKernel id f).routes = s.routes := rfl
@[simp] theorem State.modKernel_ports (s : State) (id : Nat) (f : Kernel → Kernel) : (s.modKernel id f).ports = s.ports := rfl
@[simp] theorem State.modKernel_remote (s : State) (id : Nat) (f : Kernel → Kernel) : (s.modKernel id f).remote = s.remote := rfl
@[simp] theorem State.modKernel_asks (s : State) (id : Nat) (f : Kernel → Kernel) : (s.modKernel id f).asks = s.asks := rfl
@[simp] theorem State.modKernel_filter (s : State) (id : Nat) (f : Kernel → Kernel) : (s.modKernel id f).filter = s.filter := rfl
@[simp] theorem State.modKernel_tagHold (s : State) (id : Nat) (f : Kernel → Kernel) : (s.modKernel id f).tagHold = s.tagHold := rfl
@[simp] theorem State.modKernel_window (s : State) (id : Nat) (f : Kernel → Kernel) : (s.modKernel id f).window = s.window := rfl
@[simp] theorem State.modKernel_amSeqOut (s : State) (id : Nat) (f : Kernel → Kernel) : (s.modKernel id f).amSeqOut = s.amSeqOut := rfl
@[simp] theorem State.modKernel_amSeqIn (s : State) (id : Nat) (f : Kernel → Kernel) : (s.modKernel id f).amSeqIn = s.amSeqIn := rfl
@[simp] theorem State.modKernel_credits (s : State) (id : Nat) (f : Kernel → Kernel) : (s.modKernel id f).credits = s.credits := rfl
@[simp] theorem State.modKernel_windows (s : State) (id : Nat) (f : Kernel → Kernel) : (s.modKernel id f).windows = s.windows := rfl
@[simp] theorem State.modKernel_hostRej (s : State) (id : Nat) (f : Kernel → Kernel) : (s.modKernel id f).hostRej = s.hostRej := rfl
@[simp] theorem State.modKernel_out (s : State) (id : Nat) (f : Kernel → Kernel) : (s.modKernel id f).out = s.out := rfl
@[simp] theorem State.modKernel_agenda (s : State) (id : Nat) (f : Kernel → Kernel) : (s.modKernel id f).agenda = s.agenda := rfl
@[simp] theorem State.modKernel_issue (s : State) (id : Nat) (f : Kernel → Kernel) : (s.modKernel id f).issue = s.issue := rfl
@[simp] theorem State.modKernel_cur (s : State) (id : Nat) (f : Kernel → Kernel) : (s.modKernel id f).cur = s.cur := rfl
@[simp] theorem State.modKernel_upsets (s : State) (id : Nat) (f : Kernel → Kernel) : (s.modKernel id f).upsets = s.upsets := rfl
@[simp] theorem State.modKernel_issued (s : State) (id : Nat) (f : Kernel → Kernel) : (s.modKernel id f).issued = s.issued := rfl
@[simp] theorem State.modKernel_free (s : State) (id : Nat) (f : Kernel → Kernel) : (s.modKernel id f).free = s.free := rfl
@[simp] theorem State.modKernel_turn (s : State) (id : Nat) (f : Kernel → Kernel) : (s.modKernel id f).turn = s.turn := rfl

@[simp] theorem State.modQueue_clk (s : State) (id : Nat) (f : Queue → Queue) : (s.modQueue id f).clk = s.clk := rfl
@[simp] theorem State.modQueue_ptpOffset (s : State) (id : Nat) (f : Queue → Queue) : (s.modQueue id f).ptpOffset = s.ptpOffset := rfl
@[simp] theorem State.modQueue_bootStep (s : State) (id : Nat) (f : Queue → Queue) : (s.modQueue id f).bootStep = s.bootStep := rfl
@[simp] theorem State.modQueue_bootFailed (s : State) (id : Nat) (f : Queue → Queue) : (s.modQueue id f).bootFailed = s.bootFailed := rfl
@[simp] theorem State.modQueue_flash (s : State) (id : Nat) (f : Queue → Queue) : (s.modQueue id f).flash = s.flash := rfl
@[simp] theorem State.modQueue_mlog (s : State) (id : Nat) (f : Queue → Queue) : (s.modQueue id f).mlog = s.mlog := rfl
@[simp] theorem State.modQueue_mlogOverflow (s : State) (id : Nat) (f : Queue → Queue) : (s.modQueue id f).mlogOverflow = s.mlogOverflow := rfl
@[simp] theorem State.modQueue_identity (s : State) (id : Nat) (f : Queue → Queue) : (s.modQueue id f).identity = s.identity := rfl
@[simp] theorem State.modQueue_stepping (s : State) (id : Nat) (f : Queue → Queue) : (s.modQueue id f).stepping = s.stepping := rfl
@[simp] theorem State.modQueue_coremask (s : State) (id : Nat) (f : Queue → Queue) : (s.modQueue id f).coremask = s.coremask := rfl
@[simp] theorem State.modQueue_vdroop (s : State) (id : Nat) (f : Queue → Queue) : (s.modQueue id f).vdroop = s.vdroop := rfl
@[simp] theorem State.modQueue_minVersions (s : State) (id : Nat) (f : Queue → Queue) : (s.modQueue id f).minVersions = s.minVersions := rfl
@[simp] theorem State.modQueue_reserve (s : State) (id : Nat) (f : Queue → Queue) : (s.modQueue id f).reserve = s.reserve := rfl
@[simp] theorem State.modQueue_errdrop (s : State) (id : Nat) (f : Queue → Queue) : (s.modQueue id f).errdrop = s.errdrop := rfl
@[simp] theorem State.modQueue_errlog (s : State) (id : Nat) (f : Queue → Queue) : (s.modQueue id f).errlog = s.errlog := rfl
@[simp] theorem State.modQueue_logRead (s : State) (id : Nat) (f : Queue → Queue) : (s.modQueue id f).logRead = s.logRead := rfl
@[simp] theorem State.modQueue_logSeq (s : State) (id : Nat) (f : Queue → Queue) : (s.modQueue id f).logSeq = s.logSeq := rfl
@[simp] theorem State.modQueue_logCounts (s : State) (id : Nat) (f : Queue → Queue) : (s.modQueue id f).logCounts = s.logCounts := rfl
@[simp] theorem State.modQueue_hearts (s : State) (id : Nat) (f : Queue → Queue) : (s.modQueue id f).hearts = s.hearts := rfl
@[simp] theorem State.modQueue_blocksDown (s : State) (id : Nat) (f : Queue → Queue) : (s.modQueue id f).blocksDown = s.blocksDown := rfl
@[simp] theorem State.modQueue_stretched (s : State) (id : Nat) (f : Queue → Queue) : (s.modQueue id f).stretched = s.stretched := rfl
@[simp] theorem State.modQueue_stretches (s : State) (id : Nat) (f : Queue → Queue) : (s.modQueue id f).stretches = s.stretches := rfl
@[simp] theorem State.modQueue_partitions (s : State) (id : Nat) (f : Queue → Queue) : (s.modQueue id f).partitions = s.partitions := rfl
@[simp] theorem State.modQueue_swaps (s : State) (id : Nat) (f : Queue → Queue) : (s.modQueue id f).swaps = s.swaps := rfl
@[simp] theorem State.modQueue_contexts (s : State) (id : Nat) (f : Queue → Queue) : (s.modQueue id f).contexts = s.contexts := rfl
@[simp] theorem State.modQueue_pages (s : State) (id : Nat) (f : Queue → Queue) : (s.modQueue id f).pages = s.pages := rfl
@[simp] theorem State.modQueue_brine (s : State) (id : Nat) (f : Queue → Queue) : (s.modQueue id f).brine = s.brine := rfl
@[simp] theorem State.modQueue_brineNext (s : State) (id : Nat) (f : Queue → Queue) : (s.modQueue id f).brineNext = s.brineNext := rfl
@[simp] theorem State.modQueue_pools (s : State) (id : Nat) (f : Queue → Queue) : (s.modQueue id f).pools = s.pools := rfl
@[simp] theorem State.modQueue_mem (s : State) (id : Nat) (f : Queue → Queue) : (s.modQueue id f).mem = s.mem := rfl
@[simp] theorem State.modQueue_hostMem (s : State) (id : Nat) (f : Queue → Queue) : (s.modQueue id f).hostMem = s.hostMem := rfl
@[simp] theorem State.modQueue_codeWords (s : State) (id : Nat) (f : Queue → Queue) : (s.modQueue id f).codeWords = s.codeWords := rfl
@[simp] theorem State.modQueue_oldWords (s : State) (id : Nat) (f : Queue → Queue) : (s.modQueue id f).oldWords = s.oldWords := rfl
@[simp] theorem State.modQueue_devWrites (s : State) (id : Nat) (f : Queue → Queue) : (s.modQueue id f).devWrites = s.devWrites := rfl
@[simp] theorem State.modQueue_creditsOwed (s : State) (id : Nat) (f : Queue → Queue) : (s.modQueue id f).creditsOwed = s.creditsOwed := rfl
@[simp] theorem State.modQueue_ckpt (s : State) (id : Nat) (f : Queue → Queue) : (s.modQueue id f).ckpt = s.ckpt := rfl
@[simp] theorem State.modQueue_lps (s : State) (id : Nat) (f : Queue → Queue) : (s.modQueue id f).lps = s.lps := rfl
@[simp] theorem State.modQueue_kernels (s : State) (id : Nat) (f : Queue → Queue) : (s.modQueue id f).kernels = s.kernels := rfl
@[simp] theorem State.modQueue_nextKernel (s : State) (id : Nat) (f : Queue → Queue) : (s.modQueue id f).nextKernel = s.nextKernel := rfl
@[simp] theorem State.modQueue_gangs (s : State) (id : Nat) (f : Queue → Queue) : (s.modQueue id f).gangs = s.gangs := rfl
@[simp] theorem State.modQueue_nextGang (s : State) (id : Nat) (f : Queue → Queue) : (s.modQueue id f).nextGang = s.nextGang := rfl
@[simp] theorem State.modQueue_cells (s : State) (id : Nat) (f : Queue → Queue) : (s.modQueue id f).cells = s.cells := rfl
@[simp] theorem State.modQueue_nextCell (s : State) (id : Nat) (f : Queue → Queue) : (s.modQueue id f).nextCell = s.nextCell := rfl
@[simp] theorem State.modQueue_cores (s : State) (id : Nat) (f : Queue → Queue) : (s.modQueue id f).cores = s.cores := rfl
@[simp] theorem State.modQueue_copyJobs (s : State) (id : Nat) (f : Queue → Queue) : (s.modQueue id f).copyJobs = s.copyJobs := rfl
@[simp] theorem State.modQueue_colls (s : State) (id : Nat) (f : Queue → Queue) : (s.modQueue id f).colls = s.colls := rfl
@[simp] theorem State.modQueue_nextId (s : State) (id : Nat) (f : Queue → Queue) : (s.modQueue id f).nextId = s.nextId := rfl
@[simp] theorem State.modQueue_late (s : State) (id : Nat) (f : Queue → Queue) : (s.modQueue id f).late = s.late := rfl
@[simp] theorem State.modQueue_reqs (s : State) (id : Nat) (f : Queue → Queue) : (s.modQueue id f).reqs = s.reqs := rfl
@[simp] theorem State.modQueue_replies (s : State) (id : Nat) (f : Queue → Queue) : (s.modQueue id f).replies = s.replies := rfl
@[simp] theorem State.modQueue_terms (s : State) (id : Nat) (f : Queue → Queue) : (s.modQueue id f).terms = s.terms := rfl
@[simp] theorem State.modQueue_batches (s : State) (id : Nat) (f : Queue → Queue) : (s.modQueue id f).batches = s.batches := rfl
@[simp] theorem State.modQueue_batchReplies (s : State) (id : Nat) (f : Queue → Queue) : (s.modQueue id f).batchReplies = s.batchReplies := rfl
@[simp] theorem State.modQueue_owners (s : State) (id : Nat) (f : Queue → Queue) : (s.modQueue id f).owners = s.owners := rfl
@[simp] theorem State.modQueue_rank (s : State) (id : Nat) (f : Queue → Queue) : (s.modQueue id f).rank = s.rank := rfl
@[simp] theorem State.modQueue_routes (s : State) (id : Nat) (f : Queue → Queue) : (s.modQueue id f).routes = s.routes := rfl
@[simp] theorem State.modQueue_ports (s : State) (id : Nat) (f : Queue → Queue) : (s.modQueue id f).ports = s.ports := rfl
@[simp] theorem State.modQueue_remote (s : State) (id : Nat) (f : Queue → Queue) : (s.modQueue id f).remote = s.remote := rfl
@[simp] theorem State.modQueue_asks (s : State) (id : Nat) (f : Queue → Queue) : (s.modQueue id f).asks = s.asks := rfl
@[simp] theorem State.modQueue_filter (s : State) (id : Nat) (f : Queue → Queue) : (s.modQueue id f).filter = s.filter := rfl
@[simp] theorem State.modQueue_tagHold (s : State) (id : Nat) (f : Queue → Queue) : (s.modQueue id f).tagHold = s.tagHold := rfl
@[simp] theorem State.modQueue_window (s : State) (id : Nat) (f : Queue → Queue) : (s.modQueue id f).window = s.window := rfl
@[simp] theorem State.modQueue_amSeqOut (s : State) (id : Nat) (f : Queue → Queue) : (s.modQueue id f).amSeqOut = s.amSeqOut := rfl
@[simp] theorem State.modQueue_amSeqIn (s : State) (id : Nat) (f : Queue → Queue) : (s.modQueue id f).amSeqIn = s.amSeqIn := rfl
@[simp] theorem State.modQueue_credits (s : State) (id : Nat) (f : Queue → Queue) : (s.modQueue id f).credits = s.credits := rfl
@[simp] theorem State.modQueue_windows (s : State) (id : Nat) (f : Queue → Queue) : (s.modQueue id f).windows = s.windows := rfl
@[simp] theorem State.modQueue_hostRej (s : State) (id : Nat) (f : Queue → Queue) : (s.modQueue id f).hostRej = s.hostRej := rfl
@[simp] theorem State.modQueue_out (s : State) (id : Nat) (f : Queue → Queue) : (s.modQueue id f).out = s.out := rfl
@[simp] theorem State.modQueue_agenda (s : State) (id : Nat) (f : Queue → Queue) : (s.modQueue id f).agenda = s.agenda := rfl
@[simp] theorem State.modQueue_issue (s : State) (id : Nat) (f : Queue → Queue) : (s.modQueue id f).issue = s.issue := rfl
@[simp] theorem State.modQueue_cur (s : State) (id : Nat) (f : Queue → Queue) : (s.modQueue id f).cur = s.cur := rfl
@[simp] theorem State.modQueue_upsets (s : State) (id : Nat) (f : Queue → Queue) : (s.modQueue id f).upsets = s.upsets := rfl
@[simp] theorem State.modQueue_issued (s : State) (id : Nat) (f : Queue → Queue) : (s.modQueue id f).issued = s.issued := rfl
@[simp] theorem State.modQueue_free (s : State) (id : Nat) (f : Queue → Queue) : (s.modQueue id f).free = s.free := rfl
@[simp] theorem State.modQueue_turn (s : State) (id : Nat) (f : Queue → Queue) : (s.modQueue id f).turn = s.turn := rfl

@[simp] theorem State.modLp_clk (s : State) (lp : Nat) (f : LaunchProc → LaunchProc) : (s.modLp lp f).clk = s.clk := rfl
@[simp] theorem State.modLp_ptpOffset (s : State) (lp : Nat) (f : LaunchProc → LaunchProc) : (s.modLp lp f).ptpOffset = s.ptpOffset := rfl
@[simp] theorem State.modLp_bootStep (s : State) (lp : Nat) (f : LaunchProc → LaunchProc) : (s.modLp lp f).bootStep = s.bootStep := rfl
@[simp] theorem State.modLp_bootFailed (s : State) (lp : Nat) (f : LaunchProc → LaunchProc) : (s.modLp lp f).bootFailed = s.bootFailed := rfl
@[simp] theorem State.modLp_flash (s : State) (lp : Nat) (f : LaunchProc → LaunchProc) : (s.modLp lp f).flash = s.flash := rfl
@[simp] theorem State.modLp_mlog (s : State) (lp : Nat) (f : LaunchProc → LaunchProc) : (s.modLp lp f).mlog = s.mlog := rfl
@[simp] theorem State.modLp_mlogOverflow (s : State) (lp : Nat) (f : LaunchProc → LaunchProc) : (s.modLp lp f).mlogOverflow = s.mlogOverflow := rfl
@[simp] theorem State.modLp_identity (s : State) (lp : Nat) (f : LaunchProc → LaunchProc) : (s.modLp lp f).identity = s.identity := rfl
@[simp] theorem State.modLp_stepping (s : State) (lp : Nat) (f : LaunchProc → LaunchProc) : (s.modLp lp f).stepping = s.stepping := rfl
@[simp] theorem State.modLp_coremask (s : State) (lp : Nat) (f : LaunchProc → LaunchProc) : (s.modLp lp f).coremask = s.coremask := rfl
@[simp] theorem State.modLp_vdroop (s : State) (lp : Nat) (f : LaunchProc → LaunchProc) : (s.modLp lp f).vdroop = s.vdroop := rfl
@[simp] theorem State.modLp_minVersions (s : State) (lp : Nat) (f : LaunchProc → LaunchProc) : (s.modLp lp f).minVersions = s.minVersions := rfl
@[simp] theorem State.modLp_reserve (s : State) (lp : Nat) (f : LaunchProc → LaunchProc) : (s.modLp lp f).reserve = s.reserve := rfl
@[simp] theorem State.modLp_errdrop (s : State) (lp : Nat) (f : LaunchProc → LaunchProc) : (s.modLp lp f).errdrop = s.errdrop := rfl
@[simp] theorem State.modLp_errlog (s : State) (lp : Nat) (f : LaunchProc → LaunchProc) : (s.modLp lp f).errlog = s.errlog := rfl
@[simp] theorem State.modLp_logRead (s : State) (lp : Nat) (f : LaunchProc → LaunchProc) : (s.modLp lp f).logRead = s.logRead := rfl
@[simp] theorem State.modLp_logSeq (s : State) (lp : Nat) (f : LaunchProc → LaunchProc) : (s.modLp lp f).logSeq = s.logSeq := rfl
@[simp] theorem State.modLp_logCounts (s : State) (lp : Nat) (f : LaunchProc → LaunchProc) : (s.modLp lp f).logCounts = s.logCounts := rfl
@[simp] theorem State.modLp_hearts (s : State) (lp : Nat) (f : LaunchProc → LaunchProc) : (s.modLp lp f).hearts = s.hearts := rfl
@[simp] theorem State.modLp_blocksDown (s : State) (lp : Nat) (f : LaunchProc → LaunchProc) : (s.modLp lp f).blocksDown = s.blocksDown := rfl
@[simp] theorem State.modLp_stretched (s : State) (lp : Nat) (f : LaunchProc → LaunchProc) : (s.modLp lp f).stretched = s.stretched := rfl
@[simp] theorem State.modLp_stretches (s : State) (lp : Nat) (f : LaunchProc → LaunchProc) : (s.modLp lp f).stretches = s.stretches := rfl
@[simp] theorem State.modLp_partitions (s : State) (lp : Nat) (f : LaunchProc → LaunchProc) : (s.modLp lp f).partitions = s.partitions := rfl
@[simp] theorem State.modLp_swaps (s : State) (lp : Nat) (f : LaunchProc → LaunchProc) : (s.modLp lp f).swaps = s.swaps := rfl
@[simp] theorem State.modLp_contexts (s : State) (lp : Nat) (f : LaunchProc → LaunchProc) : (s.modLp lp f).contexts = s.contexts := rfl
@[simp] theorem State.modLp_pages (s : State) (lp : Nat) (f : LaunchProc → LaunchProc) : (s.modLp lp f).pages = s.pages := rfl
@[simp] theorem State.modLp_brine (s : State) (lp : Nat) (f : LaunchProc → LaunchProc) : (s.modLp lp f).brine = s.brine := rfl
@[simp] theorem State.modLp_brineNext (s : State) (lp : Nat) (f : LaunchProc → LaunchProc) : (s.modLp lp f).brineNext = s.brineNext := rfl
@[simp] theorem State.modLp_pools (s : State) (lp : Nat) (f : LaunchProc → LaunchProc) : (s.modLp lp f).pools = s.pools := rfl
@[simp] theorem State.modLp_mem (s : State) (lp : Nat) (f : LaunchProc → LaunchProc) : (s.modLp lp f).mem = s.mem := rfl
@[simp] theorem State.modLp_hostMem (s : State) (lp : Nat) (f : LaunchProc → LaunchProc) : (s.modLp lp f).hostMem = s.hostMem := rfl
@[simp] theorem State.modLp_codeWords (s : State) (lp : Nat) (f : LaunchProc → LaunchProc) : (s.modLp lp f).codeWords = s.codeWords := rfl
@[simp] theorem State.modLp_oldWords (s : State) (lp : Nat) (f : LaunchProc → LaunchProc) : (s.modLp lp f).oldWords = s.oldWords := rfl
@[simp] theorem State.modLp_devWrites (s : State) (lp : Nat) (f : LaunchProc → LaunchProc) : (s.modLp lp f).devWrites = s.devWrites := rfl
@[simp] theorem State.modLp_creditsOwed (s : State) (lp : Nat) (f : LaunchProc → LaunchProc) : (s.modLp lp f).creditsOwed = s.creditsOwed := rfl
@[simp] theorem State.modLp_ckpt (s : State) (lp : Nat) (f : LaunchProc → LaunchProc) : (s.modLp lp f).ckpt = s.ckpt := rfl
@[simp] theorem State.modLp_queues (s : State) (lp : Nat) (f : LaunchProc → LaunchProc) : (s.modLp lp f).queues = s.queues := rfl
@[simp] theorem State.modLp_kernels (s : State) (lp : Nat) (f : LaunchProc → LaunchProc) : (s.modLp lp f).kernels = s.kernels := rfl
@[simp] theorem State.modLp_nextKernel (s : State) (lp : Nat) (f : LaunchProc → LaunchProc) : (s.modLp lp f).nextKernel = s.nextKernel := rfl
@[simp] theorem State.modLp_gangs (s : State) (lp : Nat) (f : LaunchProc → LaunchProc) : (s.modLp lp f).gangs = s.gangs := rfl
@[simp] theorem State.modLp_nextGang (s : State) (lp : Nat) (f : LaunchProc → LaunchProc) : (s.modLp lp f).nextGang = s.nextGang := rfl
@[simp] theorem State.modLp_cells (s : State) (lp : Nat) (f : LaunchProc → LaunchProc) : (s.modLp lp f).cells = s.cells := rfl
@[simp] theorem State.modLp_nextCell (s : State) (lp : Nat) (f : LaunchProc → LaunchProc) : (s.modLp lp f).nextCell = s.nextCell := rfl
@[simp] theorem State.modLp_cores (s : State) (lp : Nat) (f : LaunchProc → LaunchProc) : (s.modLp lp f).cores = s.cores := rfl
@[simp] theorem State.modLp_copyJobs (s : State) (lp : Nat) (f : LaunchProc → LaunchProc) : (s.modLp lp f).copyJobs = s.copyJobs := rfl
@[simp] theorem State.modLp_colls (s : State) (lp : Nat) (f : LaunchProc → LaunchProc) : (s.modLp lp f).colls = s.colls := rfl
@[simp] theorem State.modLp_nextId (s : State) (lp : Nat) (f : LaunchProc → LaunchProc) : (s.modLp lp f).nextId = s.nextId := rfl
@[simp] theorem State.modLp_late (s : State) (lp : Nat) (f : LaunchProc → LaunchProc) : (s.modLp lp f).late = s.late := rfl
@[simp] theorem State.modLp_reqs (s : State) (lp : Nat) (f : LaunchProc → LaunchProc) : (s.modLp lp f).reqs = s.reqs := rfl
@[simp] theorem State.modLp_replies (s : State) (lp : Nat) (f : LaunchProc → LaunchProc) : (s.modLp lp f).replies = s.replies := rfl
@[simp] theorem State.modLp_terms (s : State) (lp : Nat) (f : LaunchProc → LaunchProc) : (s.modLp lp f).terms = s.terms := rfl
@[simp] theorem State.modLp_batches (s : State) (lp : Nat) (f : LaunchProc → LaunchProc) : (s.modLp lp f).batches = s.batches := rfl
@[simp] theorem State.modLp_batchReplies (s : State) (lp : Nat) (f : LaunchProc → LaunchProc) : (s.modLp lp f).batchReplies = s.batchReplies := rfl
@[simp] theorem State.modLp_owners (s : State) (lp : Nat) (f : LaunchProc → LaunchProc) : (s.modLp lp f).owners = s.owners := rfl
@[simp] theorem State.modLp_rank (s : State) (lp : Nat) (f : LaunchProc → LaunchProc) : (s.modLp lp f).rank = s.rank := rfl
@[simp] theorem State.modLp_routes (s : State) (lp : Nat) (f : LaunchProc → LaunchProc) : (s.modLp lp f).routes = s.routes := rfl
@[simp] theorem State.modLp_ports (s : State) (lp : Nat) (f : LaunchProc → LaunchProc) : (s.modLp lp f).ports = s.ports := rfl
@[simp] theorem State.modLp_remote (s : State) (lp : Nat) (f : LaunchProc → LaunchProc) : (s.modLp lp f).remote = s.remote := rfl
@[simp] theorem State.modLp_asks (s : State) (lp : Nat) (f : LaunchProc → LaunchProc) : (s.modLp lp f).asks = s.asks := rfl
@[simp] theorem State.modLp_filter (s : State) (lp : Nat) (f : LaunchProc → LaunchProc) : (s.modLp lp f).filter = s.filter := rfl
@[simp] theorem State.modLp_tagHold (s : State) (lp : Nat) (f : LaunchProc → LaunchProc) : (s.modLp lp f).tagHold = s.tagHold := rfl
@[simp] theorem State.modLp_window (s : State) (lp : Nat) (f : LaunchProc → LaunchProc) : (s.modLp lp f).window = s.window := rfl
@[simp] theorem State.modLp_amSeqOut (s : State) (lp : Nat) (f : LaunchProc → LaunchProc) : (s.modLp lp f).amSeqOut = s.amSeqOut := rfl
@[simp] theorem State.modLp_amSeqIn (s : State) (lp : Nat) (f : LaunchProc → LaunchProc) : (s.modLp lp f).amSeqIn = s.amSeqIn := rfl
@[simp] theorem State.modLp_credits (s : State) (lp : Nat) (f : LaunchProc → LaunchProc) : (s.modLp lp f).credits = s.credits := rfl
@[simp] theorem State.modLp_windows (s : State) (lp : Nat) (f : LaunchProc → LaunchProc) : (s.modLp lp f).windows = s.windows := rfl
@[simp] theorem State.modLp_hostRej (s : State) (lp : Nat) (f : LaunchProc → LaunchProc) : (s.modLp lp f).hostRej = s.hostRej := rfl
@[simp] theorem State.modLp_out (s : State) (lp : Nat) (f : LaunchProc → LaunchProc) : (s.modLp lp f).out = s.out := rfl
@[simp] theorem State.modLp_agenda (s : State) (lp : Nat) (f : LaunchProc → LaunchProc) : (s.modLp lp f).agenda = s.agenda := rfl
@[simp] theorem State.modLp_issue (s : State) (lp : Nat) (f : LaunchProc → LaunchProc) : (s.modLp lp f).issue = s.issue := rfl
@[simp] theorem State.modLp_cur (s : State) (lp : Nat) (f : LaunchProc → LaunchProc) : (s.modLp lp f).cur = s.cur := rfl
@[simp] theorem State.modLp_upsets (s : State) (lp : Nat) (f : LaunchProc → LaunchProc) : (s.modLp lp f).upsets = s.upsets := rfl
@[simp] theorem State.modLp_issued (s : State) (lp : Nat) (f : LaunchProc → LaunchProc) : (s.modLp lp f).issued = s.issued := rfl
@[simp] theorem State.modLp_free (s : State) (lp : Nat) (f : LaunchProc → LaunchProc) : (s.modLp lp f).free = s.free := rfl
@[simp] theorem State.modLp_turn (s : State) (lp : Nat) (f : LaunchProc → LaunchProc) : (s.modLp lp f).turn = s.turn := rfl

@[simp] theorem State.modPage_clk (s : State) (a b : Nat) (f : PageEntry → PageEntry) : (s.modPage a b f).clk = s.clk := rfl
@[simp] theorem State.modPage_ptpOffset (s : State) (a b : Nat) (f : PageEntry → PageEntry) : (s.modPage a b f).ptpOffset = s.ptpOffset := rfl
@[simp] theorem State.modPage_bootStep (s : State) (a b : Nat) (f : PageEntry → PageEntry) : (s.modPage a b f).bootStep = s.bootStep := rfl
@[simp] theorem State.modPage_bootFailed (s : State) (a b : Nat) (f : PageEntry → PageEntry) : (s.modPage a b f).bootFailed = s.bootFailed := rfl
@[simp] theorem State.modPage_flash (s : State) (a b : Nat) (f : PageEntry → PageEntry) : (s.modPage a b f).flash = s.flash := rfl
@[simp] theorem State.modPage_mlog (s : State) (a b : Nat) (f : PageEntry → PageEntry) : (s.modPage a b f).mlog = s.mlog := rfl
@[simp] theorem State.modPage_mlogOverflow (s : State) (a b : Nat) (f : PageEntry → PageEntry) : (s.modPage a b f).mlogOverflow = s.mlogOverflow := rfl
@[simp] theorem State.modPage_identity (s : State) (a b : Nat) (f : PageEntry → PageEntry) : (s.modPage a b f).identity = s.identity := rfl
@[simp] theorem State.modPage_stepping (s : State) (a b : Nat) (f : PageEntry → PageEntry) : (s.modPage a b f).stepping = s.stepping := rfl
@[simp] theorem State.modPage_coremask (s : State) (a b : Nat) (f : PageEntry → PageEntry) : (s.modPage a b f).coremask = s.coremask := rfl
@[simp] theorem State.modPage_vdroop (s : State) (a b : Nat) (f : PageEntry → PageEntry) : (s.modPage a b f).vdroop = s.vdroop := rfl
@[simp] theorem State.modPage_minVersions (s : State) (a b : Nat) (f : PageEntry → PageEntry) : (s.modPage a b f).minVersions = s.minVersions := rfl
@[simp] theorem State.modPage_reserve (s : State) (a b : Nat) (f : PageEntry → PageEntry) : (s.modPage a b f).reserve = s.reserve := rfl
@[simp] theorem State.modPage_errdrop (s : State) (a b : Nat) (f : PageEntry → PageEntry) : (s.modPage a b f).errdrop = s.errdrop := rfl
@[simp] theorem State.modPage_errlog (s : State) (a b : Nat) (f : PageEntry → PageEntry) : (s.modPage a b f).errlog = s.errlog := rfl
@[simp] theorem State.modPage_logRead (s : State) (a b : Nat) (f : PageEntry → PageEntry) : (s.modPage a b f).logRead = s.logRead := rfl
@[simp] theorem State.modPage_logSeq (s : State) (a b : Nat) (f : PageEntry → PageEntry) : (s.modPage a b f).logSeq = s.logSeq := rfl
@[simp] theorem State.modPage_logCounts (s : State) (a b : Nat) (f : PageEntry → PageEntry) : (s.modPage a b f).logCounts = s.logCounts := rfl
@[simp] theorem State.modPage_hearts (s : State) (a b : Nat) (f : PageEntry → PageEntry) : (s.modPage a b f).hearts = s.hearts := rfl
@[simp] theorem State.modPage_blocksDown (s : State) (a b : Nat) (f : PageEntry → PageEntry) : (s.modPage a b f).blocksDown = s.blocksDown := rfl
@[simp] theorem State.modPage_stretched (s : State) (a b : Nat) (f : PageEntry → PageEntry) : (s.modPage a b f).stretched = s.stretched := rfl
@[simp] theorem State.modPage_stretches (s : State) (a b : Nat) (f : PageEntry → PageEntry) : (s.modPage a b f).stretches = s.stretches := rfl
@[simp] theorem State.modPage_partitions (s : State) (a b : Nat) (f : PageEntry → PageEntry) : (s.modPage a b f).partitions = s.partitions := rfl
@[simp] theorem State.modPage_swaps (s : State) (a b : Nat) (f : PageEntry → PageEntry) : (s.modPage a b f).swaps = s.swaps := rfl
@[simp] theorem State.modPage_contexts (s : State) (a b : Nat) (f : PageEntry → PageEntry) : (s.modPage a b f).contexts = s.contexts := rfl
@[simp] theorem State.modPage_brine (s : State) (a b : Nat) (f : PageEntry → PageEntry) : (s.modPage a b f).brine = s.brine := rfl
@[simp] theorem State.modPage_brineNext (s : State) (a b : Nat) (f : PageEntry → PageEntry) : (s.modPage a b f).brineNext = s.brineNext := rfl
@[simp] theorem State.modPage_pools (s : State) (a b : Nat) (f : PageEntry → PageEntry) : (s.modPage a b f).pools = s.pools := rfl
@[simp] theorem State.modPage_mem (s : State) (a b : Nat) (f : PageEntry → PageEntry) : (s.modPage a b f).mem = s.mem := rfl
@[simp] theorem State.modPage_hostMem (s : State) (a b : Nat) (f : PageEntry → PageEntry) : (s.modPage a b f).hostMem = s.hostMem := rfl
@[simp] theorem State.modPage_codeWords (s : State) (a b : Nat) (f : PageEntry → PageEntry) : (s.modPage a b f).codeWords = s.codeWords := rfl
@[simp] theorem State.modPage_oldWords (s : State) (a b : Nat) (f : PageEntry → PageEntry) : (s.modPage a b f).oldWords = s.oldWords := rfl
@[simp] theorem State.modPage_devWrites (s : State) (a b : Nat) (f : PageEntry → PageEntry) : (s.modPage a b f).devWrites = s.devWrites := rfl
@[simp] theorem State.modPage_creditsOwed (s : State) (a b : Nat) (f : PageEntry → PageEntry) : (s.modPage a b f).creditsOwed = s.creditsOwed := rfl
@[simp] theorem State.modPage_ckpt (s : State) (a b : Nat) (f : PageEntry → PageEntry) : (s.modPage a b f).ckpt = s.ckpt := rfl
@[simp] theorem State.modPage_queues (s : State) (a b : Nat) (f : PageEntry → PageEntry) : (s.modPage a b f).queues = s.queues := rfl
@[simp] theorem State.modPage_lps (s : State) (a b : Nat) (f : PageEntry → PageEntry) : (s.modPage a b f).lps = s.lps := rfl
@[simp] theorem State.modPage_kernels (s : State) (a b : Nat) (f : PageEntry → PageEntry) : (s.modPage a b f).kernels = s.kernels := rfl
@[simp] theorem State.modPage_nextKernel (s : State) (a b : Nat) (f : PageEntry → PageEntry) : (s.modPage a b f).nextKernel = s.nextKernel := rfl
@[simp] theorem State.modPage_gangs (s : State) (a b : Nat) (f : PageEntry → PageEntry) : (s.modPage a b f).gangs = s.gangs := rfl
@[simp] theorem State.modPage_nextGang (s : State) (a b : Nat) (f : PageEntry → PageEntry) : (s.modPage a b f).nextGang = s.nextGang := rfl
@[simp] theorem State.modPage_cells (s : State) (a b : Nat) (f : PageEntry → PageEntry) : (s.modPage a b f).cells = s.cells := rfl
@[simp] theorem State.modPage_nextCell (s : State) (a b : Nat) (f : PageEntry → PageEntry) : (s.modPage a b f).nextCell = s.nextCell := rfl
@[simp] theorem State.modPage_cores (s : State) (a b : Nat) (f : PageEntry → PageEntry) : (s.modPage a b f).cores = s.cores := rfl
@[simp] theorem State.modPage_copyJobs (s : State) (a b : Nat) (f : PageEntry → PageEntry) : (s.modPage a b f).copyJobs = s.copyJobs := rfl
@[simp] theorem State.modPage_colls (s : State) (a b : Nat) (f : PageEntry → PageEntry) : (s.modPage a b f).colls = s.colls := rfl
@[simp] theorem State.modPage_nextId (s : State) (a b : Nat) (f : PageEntry → PageEntry) : (s.modPage a b f).nextId = s.nextId := rfl
@[simp] theorem State.modPage_late (s : State) (a b : Nat) (f : PageEntry → PageEntry) : (s.modPage a b f).late = s.late := rfl
@[simp] theorem State.modPage_reqs (s : State) (a b : Nat) (f : PageEntry → PageEntry) : (s.modPage a b f).reqs = s.reqs := rfl
@[simp] theorem State.modPage_replies (s : State) (a b : Nat) (f : PageEntry → PageEntry) : (s.modPage a b f).replies = s.replies := rfl
@[simp] theorem State.modPage_terms (s : State) (a b : Nat) (f : PageEntry → PageEntry) : (s.modPage a b f).terms = s.terms := rfl
@[simp] theorem State.modPage_batches (s : State) (a b : Nat) (f : PageEntry → PageEntry) : (s.modPage a b f).batches = s.batches := rfl
@[simp] theorem State.modPage_batchReplies (s : State) (a b : Nat) (f : PageEntry → PageEntry) : (s.modPage a b f).batchReplies = s.batchReplies := rfl
@[simp] theorem State.modPage_owners (s : State) (a b : Nat) (f : PageEntry → PageEntry) : (s.modPage a b f).owners = s.owners := rfl
@[simp] theorem State.modPage_rank (s : State) (a b : Nat) (f : PageEntry → PageEntry) : (s.modPage a b f).rank = s.rank := rfl
@[simp] theorem State.modPage_routes (s : State) (a b : Nat) (f : PageEntry → PageEntry) : (s.modPage a b f).routes = s.routes := rfl
@[simp] theorem State.modPage_ports (s : State) (a b : Nat) (f : PageEntry → PageEntry) : (s.modPage a b f).ports = s.ports := rfl
@[simp] theorem State.modPage_remote (s : State) (a b : Nat) (f : PageEntry → PageEntry) : (s.modPage a b f).remote = s.remote := rfl
@[simp] theorem State.modPage_asks (s : State) (a b : Nat) (f : PageEntry → PageEntry) : (s.modPage a b f).asks = s.asks := rfl
@[simp] theorem State.modPage_filter (s : State) (a b : Nat) (f : PageEntry → PageEntry) : (s.modPage a b f).filter = s.filter := rfl
@[simp] theorem State.modPage_tagHold (s : State) (a b : Nat) (f : PageEntry → PageEntry) : (s.modPage a b f).tagHold = s.tagHold := rfl
@[simp] theorem State.modPage_window (s : State) (a b : Nat) (f : PageEntry → PageEntry) : (s.modPage a b f).window = s.window := rfl
@[simp] theorem State.modPage_amSeqOut (s : State) (a b : Nat) (f : PageEntry → PageEntry) : (s.modPage a b f).amSeqOut = s.amSeqOut := rfl
@[simp] theorem State.modPage_amSeqIn (s : State) (a b : Nat) (f : PageEntry → PageEntry) : (s.modPage a b f).amSeqIn = s.amSeqIn := rfl
@[simp] theorem State.modPage_credits (s : State) (a b : Nat) (f : PageEntry → PageEntry) : (s.modPage a b f).credits = s.credits := rfl
@[simp] theorem State.modPage_windows (s : State) (a b : Nat) (f : PageEntry → PageEntry) : (s.modPage a b f).windows = s.windows := rfl
@[simp] theorem State.modPage_hostRej (s : State) (a b : Nat) (f : PageEntry → PageEntry) : (s.modPage a b f).hostRej = s.hostRej := rfl
@[simp] theorem State.modPage_out (s : State) (a b : Nat) (f : PageEntry → PageEntry) : (s.modPage a b f).out = s.out := rfl
@[simp] theorem State.modPage_agenda (s : State) (a b : Nat) (f : PageEntry → PageEntry) : (s.modPage a b f).agenda = s.agenda := rfl
@[simp] theorem State.modPage_issue (s : State) (a b : Nat) (f : PageEntry → PageEntry) : (s.modPage a b f).issue = s.issue := rfl
@[simp] theorem State.modPage_cur (s : State) (a b : Nat) (f : PageEntry → PageEntry) : (s.modPage a b f).cur = s.cur := rfl
@[simp] theorem State.modPage_upsets (s : State) (a b : Nat) (f : PageEntry → PageEntry) : (s.modPage a b f).upsets = s.upsets := rfl
@[simp] theorem State.modPage_issued (s : State) (a b : Nat) (f : PageEntry → PageEntry) : (s.modPage a b f).issued = s.issued := rfl
@[simp] theorem State.modPage_free (s : State) (a b : Nat) (f : PageEntry → PageEntry) : (s.modPage a b f).free = s.free := rfl
@[simp] theorem State.modPage_turn (s : State) (a b : Nat) (f : PageEntry → PageEntry) : (s.modPage a b f).turn = s.turn := rfl

@[simp] theorem State.emit_clk (s : State) (o : Output) : (s.emit o).clk = s.clk := rfl
@[simp] theorem State.emit_ptpOffset (s : State) (o : Output) : (s.emit o).ptpOffset = s.ptpOffset := rfl
@[simp] theorem State.emit_bootStep (s : State) (o : Output) : (s.emit o).bootStep = s.bootStep := rfl
@[simp] theorem State.emit_bootFailed (s : State) (o : Output) : (s.emit o).bootFailed = s.bootFailed := rfl
@[simp] theorem State.emit_flash (s : State) (o : Output) : (s.emit o).flash = s.flash := rfl
@[simp] theorem State.emit_mlog (s : State) (o : Output) : (s.emit o).mlog = s.mlog := rfl
@[simp] theorem State.emit_mlogOverflow (s : State) (o : Output) : (s.emit o).mlogOverflow = s.mlogOverflow := rfl
@[simp] theorem State.emit_identity (s : State) (o : Output) : (s.emit o).identity = s.identity := rfl
@[simp] theorem State.emit_stepping (s : State) (o : Output) : (s.emit o).stepping = s.stepping := rfl
@[simp] theorem State.emit_coremask (s : State) (o : Output) : (s.emit o).coremask = s.coremask := rfl
@[simp] theorem State.emit_vdroop (s : State) (o : Output) : (s.emit o).vdroop = s.vdroop := rfl
@[simp] theorem State.emit_minVersions (s : State) (o : Output) : (s.emit o).minVersions = s.minVersions := rfl
@[simp] theorem State.emit_reserve (s : State) (o : Output) : (s.emit o).reserve = s.reserve := rfl
@[simp] theorem State.emit_errdrop (s : State) (o : Output) : (s.emit o).errdrop = s.errdrop := rfl
@[simp] theorem State.emit_errlog (s : State) (o : Output) : (s.emit o).errlog = s.errlog := rfl
@[simp] theorem State.emit_logRead (s : State) (o : Output) : (s.emit o).logRead = s.logRead := rfl
@[simp] theorem State.emit_logSeq (s : State) (o : Output) : (s.emit o).logSeq = s.logSeq := rfl
@[simp] theorem State.emit_logCounts (s : State) (o : Output) : (s.emit o).logCounts = s.logCounts := rfl
@[simp] theorem State.emit_hearts (s : State) (o : Output) : (s.emit o).hearts = s.hearts := rfl
@[simp] theorem State.emit_blocksDown (s : State) (o : Output) : (s.emit o).blocksDown = s.blocksDown := rfl
@[simp] theorem State.emit_stretched (s : State) (o : Output) : (s.emit o).stretched = s.stretched := rfl
@[simp] theorem State.emit_stretches (s : State) (o : Output) : (s.emit o).stretches = s.stretches := rfl
@[simp] theorem State.emit_partitions (s : State) (o : Output) : (s.emit o).partitions = s.partitions := rfl
@[simp] theorem State.emit_swaps (s : State) (o : Output) : (s.emit o).swaps = s.swaps := rfl
@[simp] theorem State.emit_contexts (s : State) (o : Output) : (s.emit o).contexts = s.contexts := rfl
@[simp] theorem State.emit_pages (s : State) (o : Output) : (s.emit o).pages = s.pages := rfl
@[simp] theorem State.emit_brine (s : State) (o : Output) : (s.emit o).brine = s.brine := rfl
@[simp] theorem State.emit_brineNext (s : State) (o : Output) : (s.emit o).brineNext = s.brineNext := rfl
@[simp] theorem State.emit_pools (s : State) (o : Output) : (s.emit o).pools = s.pools := rfl
@[simp] theorem State.emit_mem (s : State) (o : Output) : (s.emit o).mem = s.mem := rfl
@[simp] theorem State.emit_hostMem (s : State) (o : Output) : (s.emit o).hostMem = s.hostMem := rfl
@[simp] theorem State.emit_codeWords (s : State) (o : Output) : (s.emit o).codeWords = s.codeWords := rfl
@[simp] theorem State.emit_oldWords (s : State) (o : Output) : (s.emit o).oldWords = s.oldWords := rfl
@[simp] theorem State.emit_devWrites (s : State) (o : Output) : (s.emit o).devWrites = s.devWrites := rfl
@[simp] theorem State.emit_creditsOwed (s : State) (o : Output) : (s.emit o).creditsOwed = s.creditsOwed := rfl
@[simp] theorem State.emit_ckpt (s : State) (o : Output) : (s.emit o).ckpt = s.ckpt := rfl
@[simp] theorem State.emit_queues (s : State) (o : Output) : (s.emit o).queues = s.queues := rfl
@[simp] theorem State.emit_lps (s : State) (o : Output) : (s.emit o).lps = s.lps := rfl
@[simp] theorem State.emit_kernels (s : State) (o : Output) : (s.emit o).kernels = s.kernels := rfl
@[simp] theorem State.emit_nextKernel (s : State) (o : Output) : (s.emit o).nextKernel = s.nextKernel := rfl
@[simp] theorem State.emit_gangs (s : State) (o : Output) : (s.emit o).gangs = s.gangs := rfl
@[simp] theorem State.emit_nextGang (s : State) (o : Output) : (s.emit o).nextGang = s.nextGang := rfl
@[simp] theorem State.emit_cells (s : State) (o : Output) : (s.emit o).cells = s.cells := rfl
@[simp] theorem State.emit_nextCell (s : State) (o : Output) : (s.emit o).nextCell = s.nextCell := rfl
@[simp] theorem State.emit_cores (s : State) (o : Output) : (s.emit o).cores = s.cores := rfl
@[simp] theorem State.emit_copyJobs (s : State) (o : Output) : (s.emit o).copyJobs = s.copyJobs := rfl
@[simp] theorem State.emit_colls (s : State) (o : Output) : (s.emit o).colls = s.colls := rfl
@[simp] theorem State.emit_nextId (s : State) (o : Output) : (s.emit o).nextId = s.nextId := rfl
@[simp] theorem State.emit_late (s : State) (o : Output) : (s.emit o).late = s.late := rfl
@[simp] theorem State.emit_reqs (s : State) (o : Output) : (s.emit o).reqs = s.reqs := rfl
@[simp] theorem State.emit_replies (s : State) (o : Output) : (s.emit o).replies = s.replies := rfl
@[simp] theorem State.emit_terms (s : State) (o : Output) : (s.emit o).terms = s.terms := rfl
@[simp] theorem State.emit_batches (s : State) (o : Output) : (s.emit o).batches = s.batches := rfl
@[simp] theorem State.emit_batchReplies (s : State) (o : Output) : (s.emit o).batchReplies = s.batchReplies := rfl
@[simp] theorem State.emit_owners (s : State) (o : Output) : (s.emit o).owners = s.owners := rfl
@[simp] theorem State.emit_rank (s : State) (o : Output) : (s.emit o).rank = s.rank := rfl
@[simp] theorem State.emit_routes (s : State) (o : Output) : (s.emit o).routes = s.routes := rfl
@[simp] theorem State.emit_ports (s : State) (o : Output) : (s.emit o).ports = s.ports := rfl
@[simp] theorem State.emit_remote (s : State) (o : Output) : (s.emit o).remote = s.remote := rfl
@[simp] theorem State.emit_asks (s : State) (o : Output) : (s.emit o).asks = s.asks := rfl
@[simp] theorem State.emit_filter (s : State) (o : Output) : (s.emit o).filter = s.filter := rfl
@[simp] theorem State.emit_tagHold (s : State) (o : Output) : (s.emit o).tagHold = s.tagHold := rfl
@[simp] theorem State.emit_window (s : State) (o : Output) : (s.emit o).window = s.window := rfl
@[simp] theorem State.emit_amSeqOut (s : State) (o : Output) : (s.emit o).amSeqOut = s.amSeqOut := rfl
@[simp] theorem State.emit_amSeqIn (s : State) (o : Output) : (s.emit o).amSeqIn = s.amSeqIn := rfl
@[simp] theorem State.emit_credits (s : State) (o : Output) : (s.emit o).credits = s.credits := rfl
@[simp] theorem State.emit_windows (s : State) (o : Output) : (s.emit o).windows = s.windows := rfl
@[simp] theorem State.emit_hostRej (s : State) (o : Output) : (s.emit o).hostRej = s.hostRej := rfl
@[simp] theorem State.emit_agenda (s : State) (o : Output) : (s.emit o).agenda = s.agenda := rfl
@[simp] theorem State.emit_issue (s : State) (o : Output) : (s.emit o).issue = s.issue := rfl
@[simp] theorem State.emit_cur (s : State) (o : Output) : (s.emit o).cur = s.cur := rfl
@[simp] theorem State.emit_upsets (s : State) (o : Output) : (s.emit o).upsets = s.upsets := rfl
@[simp] theorem State.emit_issued (s : State) (o : Output) : (s.emit o).issued = s.issued := rfl
@[simp] theorem State.emit_free (s : State) (o : Output) : (s.emit o).free = s.free := rfl
@[simp] theorem State.emit_turn (s : State) (o : Output) : (s.emit o).turn = s.turn := rfl

end Sys2Proof.Machine
end

