-- ==== Sys2Proof/Laws/Lookup.lean ====
section
/-! SUPPORT. What a cell, squad or thread reads as after one of them has been changed. -/
namespace Sys2Proof.Machine
open Sys2Proof

theorem find_map_id (l : List Cell) (f : Cell → Cell) (hf : ∀ c, (f c).id = c.id) (id k : Nat) :
    (l.map (fun c => if c.id == id then f c else c)).find? (fun c => c.id == k)
      = (l.find? (fun c => c.id == k)).map (fun c => if c.id == id then f c else c) := by
  induction l with
  | nil => rfl
  | cons a l ih =>
    simp only [List.map_cons, List.find?_cons]
    have : (if a.id == id then f a else a).id = a.id := by split <;> simp [hf]
    rw [this]
    split
    · rfl
    · exact ih

theorem cell_modCell (s : State) (id k : Nat) (f : Cell → Cell) (hf : ∀ c, (f c).id = c.id) :
    (s.modCell id f).cell? k = if k = id then (s.cell? k).map f else s.cell? k := by
  unfold State.cell? State.modCell
  rw [find_map_id _ _ hf]
  cases h : s.cells.find? (fun c => c.id == k) with
  | none => simp
  | some c =>
    have hk : c.id = k := by simpa using List.find?_some h
    simp only [Option.map_some, hk]
    by_cases e : k = id <;> simp [e]

theorem cell_modCell_same (s : State) (id : Nat) (f : Cell → Cell) (hf : ∀ c, (f c).id = c.id) {c : Cell} (h : s.cell? id = some c) :
    (s.modCell id f).cell? id = some (f c) := by simp [cell_modCell _ _ _ _ hf, h]

theorem cell_modCell_other (s : State) (id k : Nat) (f : Cell → Cell) (hf : ∀ c, (f c).id = c.id) (hk : k ≠ id) :
    (s.modCell id f).cell? k = s.cell? k := by simp [cell_modCell _ _ _ _ hf, hk]

theorem cell_id {s : State} {id : Nat} {c : Cell} (h : s.cell? id = some c) : c.id = id := by
  simpa using List.find?_some h

/-- A cell whose squad i is changed. -/
theorem cell_modSquad_same {s : State} {a b : Nat} {f : Squad → Squad} {c : Cell} (h : s.cell? a = some c) :
    (s.modSquad a b f).cell? a = some { c with squads := c.squads.modify b f } :=
  cell_modCell_same s a (fun c => { c with squads := c.squads.modify b f }) (fun _ => rfl) h

theorem cell_modSquad_other (s : State) (a b k : Nat) (f : Squad → Squad) (hk : k ≠ a) : (s.modSquad a b f).cell? k = s.cell? k :=
  cell_modCell_other s a k (fun c => { c with squads := c.squads.modify b f }) (fun _ => rfl) hk

theorem cell_modThread_same {s : State} {t : Tid} {f : Thread → Thread} {c : Cell} (h : s.cell? t.cell = some c) :
    (s.modThread t f).cell? t.cell
      = some { c with squads := c.squads.modify t.squad (fun q => { q with threads := q.threads.modify t.lane f }) } :=
  cell_modSquad_same (f := fun q => { q with threads := q.threads.modify t.lane f }) h

theorem cell_modThread_other (s : State) (t : Tid) (k : Nat) (f : Thread → Thread) (hk : k ≠ t.cell) :
    (s.modThread t f).cell? k = s.cell? k := cell_modSquad_other s _ _ k _ hk

theorem squad_of_cell {s : State} {a b : Nat} {c : Cell} (h : s.cell? a = some c) : s.squad? a b = c.squads[b]? := by
  simp [State.squad?, h]

theorem thread_of_squad {s : State} {t : Tid} {q : Squad} (h : s.squad? t.cell t.squad = some q) : s.thread? t = q.threads[t.lane]? := by
  simp [State.thread?, h]

end Sys2Proof.Machine
end

