-- ==== Sys2Proof/Laws/Issue.lean ====
section
/-! SUPPORT. What issuing an instruction does: to a thread alone at it. -/
namespace Sys2Proof.Machine
open Sys2Proof

/-- From e to s' only one cell has changed. -/
def OnlyCell (e s' : State) (id : Nat) : Prop := { s' with cells := e.cells } = e ∧ ∀ k, k ≠ id → s'.cell? k = e.cell? k

theorem OnlyCell.refl (e : State) (id : Nat) : OnlyCell e e id := ⟨rfl, fun _ _ => rfl⟩

theorem OnlyCell.trans {a b c : State} {id : Nat} (h : OnlyCell a b id) (k : OnlyCell b c id) : OnlyCell a c id := by
  obtain ⟨h1, h2⟩ := h
  obtain ⟨k1, k2⟩ := k
  refine ⟨?_, fun n hn => (k2 n hn).trans (h2 n hn)⟩
  have k3 := congrArg (fun s : State => { s with cells := a.cells }) k1
  simp only at k3
  exact k3.trans h1

theorem onlyCell_modCell (e : State) (id : Nat) (f : Cell → Cell) (hf : ∀ c, (f c).id = c.id) : OnlyCell e (e.modCell id f) id :=
  ⟨rfl, fun k hk => cell_modCell_other e id k f hf hk⟩

theorem onlyCell_modSquad (e : State) (a b : Nat) (f : Squad → Squad) : OnlyCell e (e.modSquad a b f) a :=
  onlyCell_modCell e a (fun c => { c with squads := c.squads.modify b f }) (fun _ => rfl)

theorem onlyCell_modThread (e : State) (t : Tid) (f : Thread → Thread) : OnlyCell e (e.modThread t f) t.cell :=
  onlyCell_modSquad e t.cell t.squad (fun q => { q with threads := q.threads.modify t.lane f })

theorem onlyCell_orFlags (e : State) (t : Tid) (f : Flags) : OnlyCell e (orFlags e t f) t.cell := by
  unfold orFlags
  split
  · exact OnlyCell.refl _ _
  · exact onlyCell_modSquad e t.cell t.squad _

/-- The squad and thread of t in a state. -/
structure At (s : State) (t : Tid) (c : Cell) (q : Squad) (th : Thread) : Prop where
  cell : s.cell? t.cell = some c
  squad : c.squads[t.squad]? = some q
  thread : q.threads[t.lane]? = some th

theorem At.squad? {s : State} {t : Tid} {c : Cell} {q : Squad} {th : Thread} (h : At s t c q th) : s.squad? t.cell t.squad = some q := by
  simp [State.squad?, h.cell, h.squad]

theorem At.thread? {s : State} {t : Tid} {c : Cell} {q : Squad} {th : Thread} (h : At s t c q th) : s.thread? t = some th := by
  simp [State.thread?, h.squad?, h.thread]

/-- The thread of t is changed: where it then stands. -/
theorem At.modThread {s : State} {t : Tid} {c : Cell} {q : Squad} {th : Thread} (h : At s t c q th) (f : Thread → Thread) :
    At (s.modThread t f) t
      { c with squads := c.squads.modify t.squad (fun q => { q with threads := q.threads.modify t.lane f }) }
      { q with threads := q.threads.modify t.lane f } (f th) :=
  ⟨cell_modThread_same h.cell, by simp [h.squad], by simp [h.thread]⟩

/-- The squad of t is changed, its threads kept. -/
theorem At.modSquad {s : State} {t : Tid} {c : Cell} {q : Squad} {th : Thread} (h : At s t c q th) (f : Squad → Squad)
    (hf : (f q).threads = q.threads) :
    At (s.modSquad t.cell t.squad f) t { c with squads := c.squads.modify t.squad f } (f q) th :=
  ⟨cell_modSquad_same h.cell, by simp [h.squad], by simp [hf, h.thread]⟩

/-- From e to s' only thread t has changed, and what its squad holds beside the threads. -/
structure Stage (e s' : State) (t : Tid) (c c' : Cell) (q q' : Squad) (th th' : Thread) : Prop where
  only : OnlyCell e s' t.cell
  before : At e t c q th
  after : At s' t c' q' th'
  same : { c' with squads := c.squads } = c
  squads : ∀ i, i ≠ t.squad → c'.squads[i]? = c.squads[i]?
  threads : ∀ l, l ≠ t.lane → q'.threads[l]? = q.threads[l]?

theorem At.stage {e : State} {t : Tid} {c : Cell} {q : Squad} {th : Thread} (h : At e t c q th) : Stage e e t c c q q th th :=
  ⟨OnlyCell.refl _ _, h, h, rfl, fun _ _ => rfl, fun _ _ => rfl⟩

theorem Stage.modThread {e s' : State} {t : Tid} {c c' : Cell} {q q' : Squad} {th th' : Thread} (h : Stage e s' t c c' q q' th th')
    (f : Thread → Thread) :
    Stage e (s'.modThread t f) t c { c' with squads := c'.squads.modify t.squad (fun q => { q with threads := q.threads.modify t.lane f }) }
      q { q' with threads := q'.threads.modify t.lane f } th (f th') where
  only := h.only.trans (onlyCell_modThread _ _ _)
  before := h.before
  after := h.after.modThread f
  same := h.same
  squads i hi := by simp [Ne.symm hi, h.squads i hi]
  threads l hl := by simp [Ne.symm hl, h.threads l hl]

theorem Stage.modSquad {e s' : State} {t : Tid} {c c' : Cell} {q q' : Squad} {th th' : Thread} (h : Stage e s' t c c' q q' th th')
    (f : Squad → Squad) (hf : (f q').threads = q'.threads) :
    Stage e (s'.modSquad t.cell t.squad f) t c { c' with squads := c'.squads.modify t.squad f } q (f q') th th' where
  only := h.only.trans (onlyCell_modSquad _ _ _ _)
  before := h.before
  after := h.after.modSquad f hf
  same := h.same
  squads i hi := by simp [Ne.symm hi, h.squads i hi]
  threads l hl := by rw [hf]; exact h.threads l hl

@[simp] theorem dropAsks_cells (s : State) (w : Asker) : (dropAsks s w).cells = s.cells := by unfold dropAsks; split <;> rfl
@[simp] theorem dropAsks_clk (s : State) (w : Asker) : (dropAsks s w).clk = s.clk := by unfold dropAsks; split <;> rfl
@[simp] theorem dropAsks_issued (s : State) (w : Asker) : (dropAsks s w).issued = s.issued := by unfold dropAsks; split <;> rfl

theorem At.dropAsks {s : State} {t : Tid} {c : Cell} {q : Squad} {th : Thread} (h : At s t c q th) (w : Asker) : At (dropAsks s w) t c q th :=
  ⟨by simpa [State.cell?] using h.cell, h.squad, h.thread⟩

/-- Flags join the squad's. -/
theorem Stage.orFlags {e s' : State} {t : Tid} {c c' : Cell} {q q' : Squad} {th th' : Thread} (h : Stage e s' t c c' q q' th th')
    (f : Flags) : ∃ c'', Stage e (orFlags s' t f) t c c'' q { q' with fflags := q'.fflags ||| f } th th' := by
  unfold Sys2Proof.Machine.orFlags
  split
  · next hf => subst hf; exact ⟨c', by simpa using h⟩
  · exact ⟨_, h.modSquad (fun q => { q with fflags := q.fflags ||| f }) rfl⟩

theorem popsOf_unbound {q : Squad} (h : ∀ n, q.bound n = 0) (rs : List Reg) : popsOf q rs = [] := by
  unfold popsOf
  rw [List.filterMap_eq_nil_iff.2]
  · rfl
  · intro r _
    cases r <;> simp [h]

theorem hazardOf_clear {f : Form} {xr xw xall : List Reg} {long : Bool} {q : Squad} {th : Thread} {lane : Nat}
    (h : ∀ x ∈ q.threads, x.board = []) (ht : th.board = []) : hazardOf f xr xw xall long q th lane = .free := by
  simp only [hazardOf, ht]
  generalize hc : f.crossReads.any _ = x
  generalize hd : q.threads.any _ = y
  have hx : x = false := by
    rw [← hc]
    apply List.any_eq_false.2
    intro y _
    split
    · next o ho =>
      obtain ⟨l, _, hl⟩ := Option.bind_eq_some_iff.1 ho
      simp [h o (List.mem_of_getElem? hl)]
    · simp
  have hy : y = false := by
    rw [← hd]
    apply List.any_eq_false.2
    intro o ho
    simp [h o ho]
  simp [hx, hy]

theorem regSound_clear {q : Squad} {th : Thread} (h : th.vres = [] ∧ th.wres = [] ∧ th.ppar = false) (hk : q.kres = []) (r : Reg) :
    regSound q th r = true := by
  obtain ⟨h1, h2, h3⟩ := h
  cases r with
  | v n => simp [regSound, Thread.residue, h1]
  | w n =>
    simp only [regSound, List.all_eq_true, List.mem_range, decide_eq_true_eq]
    intro j hj
    have e1 : (8 * n + j) / 8 = n := by omega
    have e2 : (8 * n + j) % 8 = j := by omega
    simp [Thread.sampleResidue, h2, e1, e2]
  | k n => simp [regSound, Squad.residue, hk]
  | p n => simp [regSound, h3]

/-- An operand of a squad in whose registers no error stands carries none. -/
theorem operandResidue_clear {f : Form} {q : Squad} {th : Thread} (h : ∀ x ∈ q.threads, x.vres = []) (ht : th ∈ q.threads)
    (hk : q.kres = []) (t : Tid) (wide : Bool) (y : Src) : (operandResidue f q th t wide y).2 = 0 := by
  unfold operandResidue
  simp only [hk]
  split
  · split
    · next o ho =>
      have ho : o ∈ q.threads := by
        split at ho
        · exact Option.some.inj ho ▸ ht
        · obtain ⟨l, _, hl⟩ := Option.bind_eq_some_iff.1 ho
          exact List.mem_of_getElem? hl
      cases wide <;> simp [h o ho]
    · rfl
  · cases wide <;> simp only [List.map_cons, List.map_nil, List.find?_nil, Option.map_none, Option.getD_none] <;> repeat (split; try rfl)
    all_goals rfl

theorem readsSound_clear {f : Form} {xr xall : List Reg} {q : Squad} {th : Thread} {t : Tid}
    (h : ∀ x ∈ q.threads, x.vres = [] ∧ x.wres = [] ∧ x.ppar = false) (ht : th ∈ q.threads) (hk : q.kres = []) :
    readsSound f xr xall q th t = true := by
  have each : ∀ (x : Thread), x ∈ q.threads → ∀ l : List Reg, l.all (regSound q x) = true :=
    fun x hx l => List.all_eq_true.2 (fun r _ => regSound_clear (h x hx) hk r)
  unfold readsSound
  simp only [each th ht]
  split
  · rfl
  · split
    · simp [predictionHolds, operandResidue_clear (fun x hx => (h x hx).1) ht hk]
    · simp only [Bool.true_and, Bool.and_eq_true, List.all_eq_true]
      refine ⟨fun y _ => ?_, fun o ho r _ => regSound_clear (h o ho) hk r⟩
      split
      · next o ho =>
        obtain ⟨l, _, hl⟩ := Option.bind_eq_some_iff.1 ho
        exact each o (List.mem_of_getElem? hl) _
      · simp

theorem settleSquad_clear {s : State} {cell sq : Nat} {c : Cell} (hc : s.cell? cell = some c)
    (h : ∀ x ∈ c.squads, ∀ r ∈ x.collected, r.cause ≠ .machineCheck) : settleSquad s cell sq = s := by
  unfold settleSquad
  rw [squad_of_cell hc]
  split
  · next q hq =>
    have : q.collected.filter (fun r => r.cause = .machineCheck && !q.issueOpen r.issue) = [] := by
      rw [List.filter_eq_nil_iff]
      intro r hr
      simp [h q (List.mem_of_getElem? hq) r hr]
    simp only [this, List.isEmpty_nil, if_true]
  · rfl

/-- A cell in which no nested cause is unsettled stays as it is. -/
theorem settleNested_clear {s : State} {cell : Nat} {c : Cell} (hc : s.cell? cell = some c)
    (h : ∀ x ∈ c.squads, ∀ r ∈ x.collected, r.cause ≠ .machineCheck) : settleNested s cell = s := by
  unfold settleNested
  rw [hc]
  suffices ∀ l : List Nat, l.foldl (fun s i => settleSquad s cell i) s = s from this _
  intro l
  induction l with
  | nil => rfl
  | cons a l ih => rw [List.foldl_cons, settleSquad_clear hc h]; exact ih

/-- After a stage no nested cause is unsettled, when none was and the squad of t has collected none. -/
theorem Stage.settle {e s' : State} {t : Tid} {c c' : Cell} {q q' : Squad} {th th' : Thread} (h : Stage e s' t c c' q q' th th')
    (hn : ∀ x ∈ c.squads, ∀ r ∈ x.collected, r.cause ≠ .machineCheck) (hq : ∀ r ∈ q'.collected, r.cause ≠ .machineCheck) :
    settleNested s' t.cell = s' := by
  refine settleNested_clear h.after.cell (fun x hx r hr => ?_)
  obtain ⟨i, hi, rfl⟩ := List.getElem_of_mem hx
  have hx' : c'.squads[i]? = some c'.squads[i] := List.getElem?_eq_getElem hi
  by_cases e : i = t.squad
  · subst e
    have : c'.squads[t.squad] = q' := Option.some.inj (hx'.symm.trans h.after.squad)
    exact hq r (this ▸ hr)
  · rw [h.squads i e] at hx'
    exact hn _ (List.mem_of_getElem? hx') r hr

theorem byLane_one {t : Tid} (h : t.lane < 32) : byLane [t] = [t] := by
  have key : ∀ n, (List.range n).filterMap (fun l => ([t].find? (fun u => u.lane == l))) = if t.lane < n then [t] else [] := by
    intro n
    induction n with
    | zero => simp
    | succ n ih =>
      rw [List.range_succ, List.filterMap_append, ih]
      by_cases e : t.lane = n
      · subst e; simp
      · have : ([t].find? (fun u => u.lane == n)) = none := by simp [e]
        simp only [List.filterMap_cons, this, List.filterMap_nil, List.append_nil]
        by_cases k : t.lane < n
        · simp [k, Nat.lt_succ_of_lt k]
        · have : ¬ t.lane < n + 1 := by omega
          simp [k, this]
  unfold byLane
  rw [key]; simp [h]

theorem formBundle_one {s : State} {t : Tid} (hc : canIssue s t = true) (hl : t.lane < 32) : formBundle s [t] = [t] := by
  simp [formBundle, hc, byLane_one hl]

theorem takesTurn_collective {f : Form} {strict : Bool} (h : (strict && f.collective strict) = false) : f.takesTurn strict = false := by
  cases hs : strict
  · unfold Form.takesTurn
    cases f <;> simp
  · subst hs
    rw [Bool.true_and] at h
    cases f <;> simp_all [Form.takesTurn, Form.collective, Form.opx, Form.extended]

theorem dedup_one {α : Type} [DecidableEq α] (a : α) : dedup [a] = [a] := by simp [dedup]

/-- A thread after its instruction's writes, by how it goes on. -/
def Thread.left (th : Thread) (go : Go) (next : Word) (now num : Nat) (lanes : Dword) : Thread :=
  match go with
  | .hold w => { th with state := .stalled, wait := some w, waitAt := num, waitLanes := lanes }
  | .next => th.goTo next now
  | .jump pc => th.goTo pc now
  | .wait w => { th with state := .waiting, wait := some w, waitAt := num }
  | .yielded => { th with pc := next, state := .yielded, wait := none }
  | .exit => th

/-- A thread alone performs: from what its effect leaves to what stands after its writes. -/
theorem laneStep_stage {sp : Spec} {s e : State} {t : Tid} {c ce : Cell} {q qe : Squad} {th the : Thread} {w : Writes} {aw : Awaits} {go : Go}
    (hat : At (issuedOnce s) t c q th) (hbind : ∀ n, q.bound n = 0)
    (hsem : sp.sem (soloRd s t c q th sp.form) (atIssue s t sp.form) = .ok e w go aw) (hgo : go ≠ .exit)
    (hf : w.flags &&& q.fptrap = 0) (he : At e t ce qe the) :
    ∃ c' ths lanes, Stage (dropAsks e (.thread t)) (laneStep sp (issuedOnce s) [t] [t] (issuedOnce s) t) t ce c' qe
        { qe with fflags := qe.fflags ||| w.flags, threads := ths } the
        (Thread.left (the.perform w ((soloRd s t c q th sp.form).tainted sp.form) []
          (boardEntry (sp.form.extended && longLatency sp.form.opx) (sp.form.writes ++ sp.xw) sp.form.la aw)) go (th.pc + word sp.form.len) s.clk
          (s.issued + 1) lanes) := by
  have hpops : popsOf q (sp.form.reads ++ sp.xr) = [] := popsOf_unbound hbind _
  have hpc : pcOf s t = th.pc := by
    have : s.thread? t = some th := hat.thread?
    simp [pcOf, this]
  have horph : orphanOf c q th [] = none := rfl
  have hempty : emptyPop th [] = false := rfl
  rw [atIssue, hpc] at hsem
  unfold soloRd at hsem
  unfold laneStep
  simp only [hat.cell, hat.squad?, hat.thread?, hpops, horph, hempty, hsem, hf]
  obtain ⟨c1, h1⟩ := (he.dropAsks (.thread t)).stage.orFlags w.flags
  have hnone : (if ([] : List Nat).isEmpty then ([] : List Nat) else []) = [] := rfl
  cases go with
  | exit => exact absurd rfl hgo
  | wait x => simp only [ite_self]; exact ⟨_, _, 0, (h1.modThread _).modThread _⟩
  | hold x => exact ⟨_, _, _, (h1.modThread _).modThread _⟩
  | _ => exact ⟨_, _, 0, (h1.modThread _).modThread _⟩

/-- The squad of t is changed to one with the same threads. -/
theorem Stage.squadTo {e s' : State} {t : Tid} {c c' : Cell} {q q' q'' : Squad} {th th' : Thread} (h : Stage e s' t c c' q q' th th')
    (f : Squad → Squad) (hf : f q' = q'') (ht : q''.threads = q'.threads) :
    ∃ c'', Stage e (s'.modSquad t.cell t.squad f) t c c'' q q'' th th' :=
  ⟨_, hf ▸ h.modSquad f (hf ▸ ht)⟩

/-- Progress words of a squad that has collected no cause stay as they are. -/
theorem Stage.patchProgress {e s' : State} {t : Tid} {c c' : Cell} {q q' : Squad} {th th' : Thread} (h : Stage e s' t c c' q q' th th')
    (hq : q'.collected = []) (n : Nat) (a b : List Tid) :
    ∃ c'', Stage e (Machine.patchProgress s' n a b ⟨t.cell, t.squad, 0⟩) t c c'' q q' th th' := by
  unfold Machine.patchProgress
  exact h.squadTo _ (by cases q'; simp_all) rfl

theorem Solo.at' {s : State} {t : Tid} {c : Cell} {q : Squad} {th : Thread} {f : Form} (h : Solo s t c q th f) : At (issuedOnce s) t c q th :=
  ⟨h.cell, h.squad, h.thread⟩

theorem Solo.standing {s : State} {t : Tid} {c : Cell} {q : Squad} {th : Thread} {sp : Spec} (h : Solo s t c q th sp.form)
    (hx : sp.extra (issuedOnce s) t = none) : standing sp (issuedOnce s) t = .on := by
  unfold Machine.standing
  simp only [h.at'.cell, h.at'.squad?, h.at'.thread?, hx, h.decode]
  rw [hazardOf_clear h.board (h.board th (List.mem_of_getElem? h.thread))]
  simp [h.guard]

/-- A thread alone that is to perform its instruction meets no cause of another thread's. -/
theorem spreadCause_on (t : Tid) : spreadCause [(t, .on)] = [(t, .on)] := rfl

/-- What a held thread notes of its bundle's lanes changes nothing else. -/
theorem Thread.left_held {th : Thread} {go : Go} {next : Word} {now num : Nat} {lanes : Dword} (hgo : go ≠ .exit) (m : Dword) :
    ∃ l, (Thread.left th go next now num lanes).noteLanes m = Thread.left th go next now num l := by
  cases go with
  | exit => exact absurd rfl hgo
  | hold w =>
    by_cases e : w = .ask
    · exact ⟨lanes, by simp [Thread.noteLanes, Thread.left, Thread.heldPeer, e]⟩
    · exact ⟨m, by simp [Thread.noteLanes, Thread.left, Thread.heldPeer, e]⟩
  | _ => exact ⟨lanes, by simp [Thread.noteLanes, Thread.left, Thread.goTo, Thread.heldPeer]⟩

/-- After noting its lanes, a thread stands as before but for them. -/
theorem Stage.noteHeld {e s' : State} {t : Tid} {c c' : Cell} {q q' : Squad} {th th0 : Thread} {go : Go} {next : Word} {now num : Nat}
    {lanes : Dword} (h : Stage e s' t c c' q q' th (Thread.left th0 go next now num lanes)) (hgo : go ≠ .exit) (bundle : List Tid) :
    ∃ c'' ths l, Stage e (Machine.noteHeld s' bundle [t] ⟨t.cell, t.squad, 0⟩) t c c'' q { q' with threads := ths } th
      (Thread.left th0 go next now num l) := by
  unfold Machine.noteHeld
  simp only [List.filter_cons, List.filter_nil, decide_true, Bool.and_self, if_true, List.foldl_cons, List.foldl_nil]
  obtain ⟨l, hl⟩ := Thread.left_held (th := th0) (next := next) (now := now) (num := num) (lanes := lanes) hgo _
  exact ⟨_, _, l, hl ▸ h.modThread (fun th => th.noteLanes _)⟩

/-- A squad's uniform tags are set anew: nothing else of it changes. -/
theorem retag_eq (f : Form) (xw : List Reg) (q : Squad) (n : Nat) : ∃ tags, retag f xw q n = { q with tags := tags } := by
  unfold retag
  split
  · exact ⟨q.tags, rfl⟩
  · exact ⟨_, rfl⟩

/-- A thread alone at an instruction that a strict kernel does not group performs it: the stage that stands at the end. -/
theorem issueLanes_stage {sp : Spec} {s e : State} {t : Tid} {c ce : Cell} {q qe : Squad} {th the : Thread} {w : Writes} {aw : Awaits} {go : Go}
    (h : Solo s t c q th sp.form) (hx : sp.extra (issuedOnce s) t = none)
    (hsem : sp.sem (soloRd s t c q th sp.form) (atIssue s t sp.form) = .ok e w go aw) (hgo : go ≠ .exit)
    (hf : w.flags &&& q.fptrap = 0) (he : At e t ce qe the) (hq : qe.collected = [])
    (hn : ∀ x ∈ ce.squads, ∀ r ∈ x.collected, r.cause ≠ .machineCheck) :
    ∃ c' ths tags lanes, Stage (dropAsks e (.thread t)) (issueLanes sp s [t]) t ce c' qe
        { qe with fflags := qe.fflags ||| w.flags, threads := ths, tags := tags } the
        (Thread.left (the.perform w ((soloRd s t c q th sp.form).tainted sp.form) []
          (boardEntry (sp.form.extended && longLatency sp.form.opx) (sp.form.writes ++ sp.xw) sp.form.la aw)) go (th.pc + word sp.form.len) s.clk
          (s.issued + 1) lanes) := by
  obtain ⟨c1, ths, lanes, h1⟩ := laneStep_stage h.at' h.bind hsem hgo hf he
  have hu : takeUpset (issuedOnce s) = none := by simp [takeUpset, issuedOnce, h.upsets]
  have hstrict : ((s.cell? t.cell).map (·.strict)).getD false = c.strict := by simp [h.cell]
  have hst := h.standing hx
  have hfree := h.free
  have hturn := takesTurn_collective h.free
  have hwait : (c.strict && sp.form.collective c.strict) = false := h.free
  have hsound : readsSound sp.form sp.xr sp.xall q th t = true :=
    readsSound_clear h.residues (List.mem_of_getElem? h.thread) h.kres
  have hfilt : [t].filter (fun u => decide (u.cell = t.cell) && decide (u.squad = t.squad)) = [t] := by simp
  have hheld : ∀ x : Bool, (sp.form.collective c.strict && (c.strict && x)) = false := by
    intro x
    revert hwait
    cases c.strict <;> cases sp.form.collective _ <;> simp
  have hsq : squadsOf [t] = [⟨t.cell, t.squad, 0⟩] := by simp [squadsOf, dedup_one]
  have run : issueLanes sp s [t] = issueChecked sp (issuedOnce s) [t] t c.strict (sp.form.collective c.strict) := by
    unfold issueLanes
    rw [formBundle_one h.can h.lane]
    simp only [hstrict, hfilt, ite_self]
    rw [show ({ s with issued := s.issued + 1, free := s.free + 1 } : State) = issuedOnce s from rfl, hu]
    simp only [h.at'.squad?, h.at'.thread?, hst, hsound, List.all_cons, List.all_nil, Bool.or_true, Bool.and_true, if_true]
  rw [run]
  unfold issueChecked
  simp only [List.map_cons, List.map_nil, hst, spreadCause_on, List.filter_cons, List.filter_nil, hwait, hturn, hsq, List.any_cons, List.any_nil, reduceCtorEq,
    decide_false, Bool.or_false, Bool.false_or, Bool.false_and, hheld, Bool.false_eq_true, if_false, Option.isSome_none, decide_true, if_true,
    List.foldl_cons, List.foldl_nil, dedup_one, Option.getD_none]
  have fin : ∀ (n : Nat) {s' : State} {c' : Cell} {ths : List Thread} {l : Dword}, Stage (dropAsks e (.thread t)) s' t ce c' qe
        { qe with fflags := qe.fflags ||| w.flags, threads := ths } the
        (Thread.left (the.perform w ((soloRd s t c q th sp.form).tainted sp.form) []
          (boardEntry (sp.form.extended && longLatency sp.form.opx) (sp.form.writes ++ sp.xw) sp.form.la aw)) go (th.pc + word sp.form.len) s.clk
          (s.issued + 1) l) →
      ∃ c'' ths tags lanes, Stage (dropAsks e (.thread t)) (settleNested (s'.modSquad t.cell t.squad (fun q => retag sp.form sp.xw q n)) t.cell)
        t ce c'' qe { qe with fflags := qe.fflags ||| w.flags, threads := ths, tags := tags } the
        (Thread.left (the.perform w ((soloRd s t c q th sp.form).tainted sp.form) []
          (boardEntry (sp.form.extended && longLatency sp.form.opx) (sp.form.writes ++ sp.xw) sp.form.la aw)) go (th.pc + word sp.form.len) s.clk
          (s.issued + 1) lanes) := by
    intro n s' c' ths l hs
    obtain ⟨tags, ht⟩ := retag_eq sp.form sp.xw { qe with fflags := qe.fflags ||| w.flags, threads := ths } n
    obtain ⟨c2, h2⟩ := hs.squadTo (fun q => retag sp.form sp.xw q n) ht rfl
    rw [h2.settle hn (by simp [hq])]
    exact ⟨c2, _, _, _, h2⟩
  by_cases hc : countsLanes sp.form = true
  · simp only [hc, if_true]
    obtain ⟨c2, ths2, l2, h2⟩ := h1.noteHeld hgo [t]
    obtain ⟨c3, h3⟩ := h2.patchProgress (by simpa using hq) (issuedOnce s).issued [t] _
    exact fin _ h3
  · simp only [hc]
    exact fin _ h1

/-- A stage in which the thread has performed an instruction is what Wrote says. -/
theorem Stage.wrote {e s' : State} {t : Tid} {c c' : Cell} {q : Squad} {th : Thread} {w : Writes} {taint : Bool} {entry : List Outstanding}
    {go : Go} {next : Word} {now num : Nat} {lanes : Dword} {ths : List Thread} {tags : List Bool}
    (h : Stage e s' t c c' q { q with fflags := q.fflags ||| w.flags, threads := ths, tags := tags } th
      (Thread.left (th.perform w taint [] entry) go next now num lanes))
    (hb : th.board = []) (hs : th.state ≠ .stopped) (hgo : go ≠ .exit) :
    Wrote e s' t w (go.ends next th.pc).1 entry (go.ends next th.pc).2.1 (go.ends next th.pc).2.2 where
  package := h.only.1
  cells := h.only.2
  own := by
    refine ⟨c, c', q, _, th, _, h.before.cell, h.after.cell, h.same, h.before.squad, h.after.squad, h.squads, rfl, rfl, h.before.thread,
      h.after.thread, h.threads, ?_⟩
    have hst : (if th.state = ThreadState.stopped then ThreadState.stopped else ThreadState.ready) = .ready := by simp [hs]
    cases go with
    | exit => exact absurd rfl hgo
    | _ =>
      simp only [Thread.left, Go.ends, Thread.perform, Thread.goTo, Thread.apply, Thread.countIssue, Thread.popQueues, Thread.written, hb, hst]
      simp

/-- What issuing a lane instruction does for a thread alone at it: it completes with its writes, and nothing else changes. -/
theorem issue_solo {sp : Spec} {s e : State} {t : Tid} {c ce : Cell} {q qe : Squad} {th the : Thread} {w : Writes} {aw : Awaits} {go : Go}
    (hu : sp.form.uniform = false) (h : Solo s t c q th sp.form) (hx : sp.extra (issuedOnce s) t = none)
    (hsem : sp.sem (soloRd s t c q th sp.form) (atIssue s t sp.form) = .ok e w go aw) (hgo : go ≠ .exit)
    (hf : w.flags &&& q.fptrap = 0) (he : At e t ce qe the) (hq : qe.collected = []) (hb : the.board = []) (hs : the.state ≠ .stopped)
    (hp : the.pc = th.pc) (hn : ∀ x ∈ ce.squads, ∀ r ∈ x.collected, r.cause ≠ .machineCheck) :
    ∃ s', issue sp s = .next s' ∧ Wrote (dropAsks e (.thread t)) s' t w (go.ends (th.pc + word sp.form.len) th.pc).1
      (boardEntry (sp.form.extended && longLatency sp.form.opx) (sp.form.writes ++ sp.xw) sp.form.la aw)
      (go.ends (th.pc + word sp.form.len) th.pc).2.1 (go.ends (th.pc + word sp.form.len) th.pc).2.2 := by
  obtain ⟨c', ths, tags, lanes, hst⟩ := issueLanes_stage h hx hsem hgo hf he hq hn
  refine ⟨issueLanes sp s [t], ?_, hp ▸ hst.wrote hb hs hgo⟩
  simp [issue, h.cur, hu, curBundle]

/-- A cell's unsettled nested causes are those of its squads; a change of one thread brings none. -/
theorem nested_modThread {c : Cell} {i l : Nat} (f : Thread → Thread) (h : ∀ x ∈ c.squads, ∀ r ∈ x.collected, r.cause ≠ .machineCheck) :
    ∀ x ∈ c.squads.modify i (fun q => { q with threads := q.threads.modify l f }), ∀ r ∈ x.collected, r.cause ≠ .machineCheck := by
  intro x hx r hr
  obtain ⟨j, hj⟩ := List.getElem?_of_mem hx
  rw [List.getElem?_modify] at hj
  obtain ⟨y, hy, rfl⟩ := Option.map_eq_some_iff.1 hj
  refine h y (List.mem_of_getElem? hy) r ?_
  split at hr <;> exact hr

/-- The thread at the issue, with the following offset noted. -/
theorem Solo.atIssue {s : State} {t : Tid} {c : Cell} {q : Squad} {th : Thread} {f : Form} (h : Solo s t c q th f) :
    ∃ c' q' th', At (atIssue s t f) t c' q' th' ∧ q'.collected = [] ∧ th'.board = [] ∧ th'.state = th.state ∧ th'.pc = th.pc ∧
      ∀ x ∈ c'.squads, ∀ r ∈ x.collected, r.cause ≠ .machineCheck := by
  have hb := h.board th (List.mem_of_getElem? h.thread)
  exact ⟨_, _, _, h.at'.modThread _, h.collected, hb, rfl, rfl, nested_modThread _ h.nested⟩

/-- A thread alone at an instruction has not stopped on a cause, and its squad is not stopping or a peer has answered it. -/
theorem Solo.ready {s : State} {t : Tid} {c : Cell} {q : Squad} {th : Thread} {f : Form} (h : Solo s t c q th f) :
    (th.state = .ready ∨ th.state = .stalled) ∧ (q.trap ≠ .stopping ∨ th.wait = some .ask) := by
  have := h.can
  simp only [canIssue, h.cell, State.squad?, State.thread?, h.squad, h.thread, Option.bind_some, Bool.and_eq_true, Bool.or_eq_true,
    Thread.triesAgain, decide_eq_true_eq] at this
  refine ⟨this.1.1.2.imp id And.left, ?_⟩
  by_cases e : th.wait = some .ask
  · exact .inr e
  · simp only [e, if_false, decide_eq_true_eq] at this
    exact .inl this.2

theorem Solo.going {s : State} {t : Tid} {c : Cell} {q : Squad} {th : Thread} {f : Form} (h : Solo s t c q th f) : th.state ≠ .stopped := by
  rcases h.ready.1 with e | e <;> simp [e]

/-- An instruction whose effect on a thread is to write registers and to go on does so. -/
theorem computes_of_sem {i : Instr} {ok : Rd → Prop} {w : Rd → Writes} {x : State → Tid → Option Cause} {xw : List Reg} {sem : LaneSem}
    (hi : ∀ s, exec i s = issue { form := formOf i, xw := xw, extra := x, sem := sem } s)
    (hl : xw = [] ∨ ((formOf i).extended && longLatency (formOf i).opx) = false)
    (hx : ∀ s t c q th, Solo s t c q th (formOf i) → x (issuedOnce s) t = none)
    (hsem : formOk (formOf i) = true → ∀ r s, ok r → sem r s = .ok s (w r) .next .unit) : ComputesWhen i ok w := by
  intro s t c q th hu h ho hf
  obtain ⟨c', q', th', ha, hq, hb, hst, hp, hn⟩ := h.atIssue
  obtain ⟨s', hs, hw⟩ := issue_solo (sp := { form := formOf i, xw := xw, extra := x, sem := sem }) (aw := .unit) hu h (hx s t c q th h)
    (hsem h.form _ _ ho) (by simp) hf ha hq hb (hst ▸ h.going) hp hn
  refine ⟨s', (hi s).trans hs, ?_⟩
  rcases hl with rfl | hl
  · simpa using hw
  · simpa [boardEntry, hl] using hw

/-! ## Uniform steps -/

theorem stepOutstanding_clear {q : Squad} (h : ∀ x ∈ q.threads, x.board = []) : stepOutstanding q = false := by
  unfold stepOutstanding
  apply List.any_eq_false.2
  intro x hx
  rw [h x hx]
  cases hw : x.wait with
  | none => simp
  | some w => cases w <;> simp

theorem passStep_stage {e : State} {t : Tid} {c c' : Cell} {q q' : Squad} {th th' : Thread} {s' : State}
    (h : Stage e s' t c c' q q' th th') (ks : List (Nat × Dword)) (old : Option (Nat × Dword)) :
    ∃ c'' ths, Stage e (passStep s' t ks old) t c c'' q
      { q' with k := ks.foldl (fun l x => l.set x.1 x.2) q'.k, kres := fixResidues q'.kres (ks.flatMap (fun x => [2 * x.1, 2 * x.1 + 1])), ustep := q'.ustep + 1, threads := ths,
                ring := (q'.ring ++ [UStep.mk (q'.ustep + 1) th'.pc (ks.map (fun x => (x.1, q'.k.getD x.1 0))) old]).drop (q'.ring.length + 1 - 8) }
      th { th' with ustep := q'.ustep + 1 } := by
  have hp : pcOf s' t = th'.pc := by simp [pcOf, h.after.thread?]
  unfold passStep
  simp only [h.after.squad?, hp]
  exact ⟨_, _, (h.modSquad (fun q => { q with
    k := ks.foldl (fun l x => l.set x.1 x.2) q.k, ustep := q.ustep + 1,
    kres := fixResidues q.kres (ks.flatMap (fun x => [2 * x.1, 2 * x.1 + 1])),
    ring := (q.ring ++ [UStep.mk (q'.ustep + 1) th'.pc (ks.map (fun x => (x.1, q'.k.getD x.1 0))) old]).drop ((q.ring.length + 1) - 8) }) rfl).modThread _⟩

/-- A thread alone that leads a uniform step executes it: it completes with its writes, and nothing else changes. -/
theorem issueUniform_solo {sp : Spec} {s e : State} {t : Tid} {c ce : Cell} {q qe : Squad} {th the : Thread} {w : Writes} {go : Go} {aw : Awaits}
    {oldCsr : Squad → Option (Nat × Dword)}
    (h : Solo s t c q th sp.form) (hx : sp.extra (issuedOnce s) t = none) (hl : Leads q th)
    (hsem : sp.sem (soloRd s t c q th sp.form) (atIssue s t sp.form) = .ok e w go aw) (hgo : ∀ w, go ≠ .hold w)
    (hf : w.flags &&& q.fptrap = 0) (he : At e t ce qe the) (hq : qe.collected = []) (hb : the.board = []) (hs : the.state ≠ .stopped)
    (hn : ∀ x ∈ ce.squads, ∀ r ∈ x.collected, r.cause ≠ .machineCheck) :
    Stepped (dropAsks e (.thread t)) (issueUniform sp oldCsr s [t]) t w.k w.flags (oldCsr q) (th.pc + word sp.form.len)
      (boardEntry (sp.form.extended && longLatency sp.form.opx) (sp.form.writes ++ sp.xw) sp.form.la aw) := by
  have hst := h.standing hx
  have hpc : pcOf s t = th.pc := by
    have : s.thread? t = some th := h.at'.thread?
    simp [pcOf, this]
  have hr := h.ready
  rw [Machine.atIssue, hpc] at hsem
  unfold soloRd at hsem
  obtain ⟨c1, h1⟩ := (he.dropAsks (.thread t)).stage.orFlags w.flags
  obtain ⟨c2, ths, h2⟩ := passStep_stage h1 w.k (oldCsr q)
  have h3 := h2.modThread (fun x => { (x.countIssue).goTo (th.pc + word sp.form.len) s.clk with
    board := x.countIssue.board ++ boardEntry (sp.form.extended && longLatency sp.form.opx) (sp.form.writes ++ sp.xw) sp.form.la aw })
  have key : ∃ c' q' th', Stage (dropAsks e (.thread t)) (uniformStep sp oldCsr (issuedOnce s) t) t ce c' qe q' the th' ∧ q'.collected = [] ∧
      ({ q' with threads := qe.threads, fflags := qe.fflags, k := qe.k, kres := qe.kres, ustep := qe.ustep, ring := qe.ring } = qe
      ∧ q'.kres = fixResidues qe.kres (w.k.flatMap (fun x => [2 * x.1, 2 * x.1 + 1]))
      ∧ q'.fflags = qe.fflags ||| w.flags ∧ q'.k = w.k.foldl (fun l x => l.set x.1 x.2) qe.k ∧ q'.ustep = qe.ustep + 1
      ∧ q'.ring = (qe.ring ++ [UStep.mk (qe.ustep + 1) the.pc (w.k.map (fun x => (x.1, qe.k.getD x.1 0))) (oldCsr q)]).drop (qe.ring.length + 1 - 8)
      ∧ th' = { the with ustep := qe.ustep + 1, npc := th'.npc, readyAt := th'.readyAt, wants := th'.wants, pc := th.pc + word sp.form.len, state := .ready, wait := none, board := boardEntry (sp.form.extended && longLatency sp.form.opx) (sp.form.writes ++ sp.xw) sp.form.la aw }) := by
    have heq : uniformStep sp oldCsr (issuedOnce s) t = (passStep (orFlags (dropAsks e (.thread t)) t w.flags) t w.k (oldCsr q)).modThread t
        (fun x => { (x.countIssue).goTo (th.pc + word sp.form.len) s.clk with
          board := x.countIssue.board ++ boardEntry (sp.form.extended && longLatency sp.form.opx) (sp.form.writes ++ sp.xw) sp.form.la aw }) := by
      have hon : (decide (q.trap = .stopping) && decide (th.state ≠ .ready) && decide (th.wait ≠ some .ask)) = false := by
        rcases hr.2 with e | e <;> simp [e]
      unfold uniformStep leaderStep
      simp only [hst, h.at'.squad?, h.at'.thread?, h.at'.cell, hon, hl.1, hl.2, stepOutstanding_clear h.board, hsem, hf]
      simp only [ne_eq, not_true_eq_false, decide_false, Bool.false_and, Bool.false_eq_true, if_false, if_true, decide_true, Bool.not_false, Bool.and_self]
      cases go with
      | hold w => exact absurd rfl (hgo w)
      | _ => rfl
    rw [heq]
    refine ⟨_, _, _, h3, hq, rfl, rfl, rfl, rfl, rfl, rfl, ?_⟩
    simp [Thread.goTo, Thread.countIssue, hb, hs]
  obtain ⟨c', q', th', hstage, hcol, hq1, hq2, hq3, hq4, hq5, hq6, hth⟩ := key
  have hno : stepFailed sp (issuedOnce s) (issuedOnce s) [t] t = false := by
    have ht : (issuedOnce s).thread? t = some th := h.at'.thread?
    simp [stepFailed, ht, h.going]
  have hu : takeUpset (issuedOnce s) = none := by simp [takeUpset, issuedOnce, h.upsets]
  have hsound : readsSound sp.form sp.xr sp.xall q th t = true :=
    readsSound_clear h.residues (List.mem_of_getElem? h.thread) h.kres
  have hsq : squadsOf [t] = [⟨t.cell, t.squad, 0⟩] := by simp [squadsOf, dedup_one]
  have fin : ∃ c'', Stage (dropAsks e (.thread t)) (issueUniform sp oldCsr s [t]) t ce c'' qe q' the th' := by
    have run : issueUniform sp oldCsr s [t] = uniformChecked sp oldCsr (issuedOnce s) [t] := by
      unfold issueUniform
      rw [formBundle_one h.can h.lane]
      simp only
      rw [show ({ s with issued := s.issued + 1, free := s.free + 1 } : State) = issuedOnce s from rfl, hu]
      simp only [h.at'.squad?, h.at'.thread?, hsound, List.all_cons, List.all_nil, Bool.or_true, Bool.and_true, if_true]
    rw [run]
    unfold uniformChecked
    simp only [List.foldl_cons, List.foldl_nil, hno, Bool.false_eq_true, if_false, hsq, List.map_cons, List.map_nil, dedup_one]
    split
    · obtain ⟨c3, h4⟩ := hstage.patchProgress hcol (issuedOnce s).issued [t] _
      rw [h4.settle hn (by simp [hcol])]
      exact ⟨c3, h4⟩
    · rw [hstage.settle hn (by simp [hcol])]
      exact ⟨_, hstage⟩
  obtain ⟨c'', hfin⟩ := fin
  exact ⟨hfin.only.1, hfin.only.2, ce, c'', qe, q', the, th', hfin.before.cell, hfin.after.cell, hfin.same, hfin.before.squad, hfin.after.squad,
    hfin.squads, hq1, hq2, hq3, hq4, hq5, hq6, hfin.before.thread, hfin.after.thread, hfin.threads, hth⟩

/-- A uniform step whose effect is to write registers and to go on does so. -/
theorem computesUniform_of_sem {i : Instr} {ok : Rd → Prop} {w : Rd → Writes} {x : State → Tid → Option Cause} {sem : LaneSem}
    (hi : ∀ s, exec i s = issue { form := formOf i, extra := x, sem := sem } s)
    (hx : ∀ s t c q th, Solo s t c q th (formOf i) → x (issuedOnce s) t = none)
    (hsem : formOk (formOf i) = true → ∀ r s, ok r → sem r s = .ok s (w r) .next .unit) : ComputesUniformWhen i ok w := by
  intro s t c q th hu h hl ho hf
  obtain ⟨c', q', th', ha, hq, hb, hst, hp, hn⟩ := h.atIssue
  have := issueUniform_solo (sp := { form := formOf i, extra := x, sem := sem }) (oldCsr := fun _ => none) (go := .next) (aw := .unit)
    h (hx s t c q th h) hl (hsem h.form _ _ ho) (by simp) hf ha hq hb (hst ▸ h.going) hn
  refine ⟨issueUniform { form := formOf i, extra := x, sem := sem } (fun _ => none) s [t], ?_, ?_⟩
  · rw [hi s]; simp [issue, h.cur, hu, curBundle]
  · simpa using this

/-- An instruction that only computes registers does so, in its lane forms and its uniform forms. -/
theorem gives_of_sem {i : Instr} {ok : Rd → Prop} {w : Rd → Writes} {sem : LaneSem}
    (hi : ∀ s, exec i s = issue { form := formOf i, sem := sem } s) (hsem : formOk (formOf i) = true → ∀ r s, ok r → sem r s = .ok s (w r) .next .unit) :
    GivesWhen i ok w :=
  ⟨computes_of_sem hi (.inl rfl) (fun _ _ _ _ _ _ => rfl) hsem, computesUniform_of_sem hi (fun _ _ _ _ _ _ => rfl) hsem⟩

end Sys2Proof.Machine
end

