-- ==== Sys2Proof/Laws/Memory.lean ====
section
/-! SUPPORT. The byte memories: what a write leaves to be read, and that every operation on a memory keeps its canonical form. -/
namespace Sys2Proof.Machine
open Sys2Proof

/-- The canonical form as a property of the list: addresses rising, no zero byte. -/
theorem memory_wf_iff (m : Memory) : Memory.wf m = true ↔ m.Pairwise (fun c d => c.1 < d.1) ∧ ∀ c ∈ m, c.2 ≠ 0 := by
  induction m with
  | nil => simp [Memory.wf]
  | cons c r ih =>
    cases r with
    | nil => simp [Memory.wf]
    | cons d r =>
      simp only [Memory.wf, Bool.and_eq_true, ih, decide_eq_true_eq, List.pairwise_cons, List.mem_cons, forall_eq_or_imp]
      constructor
      · rintro ⟨⟨hc, hcd⟩, ⟨hd, hr⟩, hz⟩
        exact ⟨⟨⟨hcd, fun e he => Nat.lt_trans hcd (hd e he)⟩, hd, hr⟩, hc, hz⟩
      · rintro ⟨⟨⟨hcd, -⟩, hd, hr⟩, hc, hz⟩
        exact ⟨⟨hc, hcd⟩, ⟨hd, hr⟩, hz⟩

/-- A write keeps every lower bound of the addresses that the written address meets. -/
theorem memWrite_mem {m : Memory} {a : Nat} {b : Byte} {c : Host.Cell} (h : c ∈ memWrite m a b) : c ∈ m ∨ (c = (a, b) ∧ b ≠ 0) := by
  induction m with
  | nil => simp only [memWrite] at h; split at h <;> simp_all
  | cons d r ih =>
    obtain ⟨x, y⟩ := d
    simp only [memWrite] at h
    split at h
    · split at h
      · exact .inl h
      · rcases List.mem_cons.1 h with h | h
        · exact .inr ⟨h, by assumption⟩
        · exact .inl h
    · split at h
      · split at h
        · exact .inl (List.mem_cons_of_mem _ h)
        · rcases List.mem_cons.1 h with h | h
          · exact .inr ⟨h, by assumption⟩
          · exact .inl (List.mem_cons_of_mem _ h)
      · rcases List.mem_cons.1 h with h | h
        · exact .inl (h ▸ List.mem_cons_self ..)
        · exact (ih h).imp (List.mem_cons_of_mem _) id

theorem memWrite_wf {m : Memory} (a : Nat) (b : Byte) (h : Memory.wf m = true) : Memory.wf (memWrite m a b) = true := by
  rw [memory_wf_iff] at h ⊢
  induction m with
  | nil =>
    simp only [memWrite]
    split
    · exact h
    · rename_i hb
      exact ⟨List.pairwise_singleton _ _, by simpa using hb⟩
  | cons d r ih =>
    obtain ⟨x, y⟩ := d
    obtain ⟨hp, hz⟩ := h
    rw [List.pairwise_cons] at hp
    have hr := ih ⟨hp.2, fun c hc => hz c (List.mem_cons_of_mem _ hc)⟩
    simp only [memWrite]
    split
    · rename_i hlt
      split
      · exact ⟨List.pairwise_cons.2 hp, hz⟩
      · rename_i hb
        refine ⟨List.pairwise_cons.2 ⟨fun c hc => ?_, List.pairwise_cons.2 hp⟩, fun c hc => ?_⟩
        · rcases List.mem_cons.1 hc with rfl | hc
          · exact hlt
          · exact Nat.lt_trans hlt (hp.1 c hc)
        · rcases List.mem_cons.1 hc with rfl | hc
          · exact hb
          · exact hz c hc
    · split
      · rename_i hax
        subst hax
        split
        · exact ⟨hp.2, fun c hc => hz c (List.mem_cons_of_mem _ hc)⟩
        · rename_i hb
          refine ⟨List.pairwise_cons.2 hp, fun c hc => ?_⟩
          rcases List.mem_cons.1 hc with rfl | hc
          · exact hb
          · exact hz c (List.mem_cons_of_mem _ hc)
      · refine ⟨List.pairwise_cons.2 ⟨fun c hc => ?_, hr.1⟩, fun c hc => ?_⟩
        · rcases memWrite_mem hc with hc | ⟨rfl, -⟩
          · exact hp.1 c hc
          · show x < a
            omega
        · rcases List.mem_cons.1 hc with rfl | hc
          · exact hz _ (List.mem_cons_self ..)
          · exact hr.2 c hc

theorem memWriteL_wf {m : Memory} (a : Nat) (l : List Byte) (h : Memory.wf m = true) : Memory.wf (memWriteL m a l) = true := by
  induction l generalizing m a with
  | nil => exact h
  | cons b r ih => exact ih (a + 1) (memWrite_wf a b h)

/-- No entry reads as zero where every listed address lies above. -/
theorem memRead_above {m : Memory} {x : Nat} (h : ∀ c ∈ m, x < c.1) : memRead m x = 0 := by
  unfold memRead
  rw [List.find?_eq_none.2]
  intro c hc
  have := h c hc
  simp; omega

theorem memRead_cons (x : Nat) (y : Byte) (r : Memory) (k : Nat) : memRead ((x, y) :: r) k = if x = k then y else memRead r k := by
  unfold memRead
  by_cases h : x = k <;> simp [h]

/-- A byte read after a byte written: the one written at its address, the one before everywhere else. -/
theorem memRead_memWrite {m : Memory} (a : Nat) (b : Byte) (x : Nat) (h : Memory.wf m = true) :
    memRead (memWrite m a b) x = if x = a then b else memRead m x := by
  rw [memory_wf_iff] at h
  induction m with
  | nil =>
    simp only [memWrite]
    split
    · rename_i hb
      subst hb
      split <;> rfl
    · rw [memRead_cons]
      exact if_congr eq_comm rfl rfl
  | cons d r ih =>
    obtain ⟨k, y⟩ := d
    obtain ⟨hp, hz⟩ := h
    rw [List.pairwise_cons] at hp
    have ih := ih ⟨hp.2, fun c hc => hz c (List.mem_cons_of_mem _ hc)⟩
    have hlow : ∀ z, z ≤ k → memRead r z = 0 := fun z hk =>
      memRead_above fun c hc => Nat.lt_of_le_of_lt hk (hp.1 c hc)
    simp only [memWrite]
    split
    · rename_i hlt
      by_cases hb : b = 0
      · by_cases hx : x = a
        · subst hx
          simp [hb, memRead_cons, Nat.ne_of_gt hlt, hlow x (Nat.le_of_lt hlt)]
        · simp [hb, hx]
      · simp only [hb, if_false, memRead_cons a, eq_comm (a := a)]
    · split
      · rename_i hax
        subst hax
        by_cases hb : b = 0
        · by_cases hx : x = a
          · subst hx; simp [hb, hlow x (Nat.le_refl _)]
          · simp [hb, hx, memRead_cons, Ne.symm hx]
        · simp only [hb, if_false, memRead_cons, eq_comm (a := a)]
          split <;> rfl
      · rename_i hax
        simp only [memRead_cons, ih]
        by_cases hk : k = x
        · subst hk
          simp [Ne.symm hax]
        · simp [hk]

theorem memFrame_wf {m : Memory} (base : Nat) (h : Memory.wf m = true) : Memory.wf (memFrame m base) = true := by
  rw [memory_wf_iff] at h ⊢
  unfold memFrame
  constructor
  · rw [List.pairwise_map]
    refine (h.1.filter _).imp_of_mem ?_
    intro c d hc hd hcd
    simp only [List.mem_filter, Bool.and_eq_true, decide_eq_true_eq] at hc hd
    show c.1 - base < d.1 - base
    omega
  · intro c hc
    simp only [List.mem_map, List.mem_filter] at hc
    obtain ⟨d, ⟨hd, -⟩, rfl⟩ := hc
    exact h.2 d hd

theorem memPaste_wf {m f : Memory} (base : Nat) (hm : Memory.wf m = true) (hf : Memory.wf f = true) :
    Memory.wf (memPaste m base f) = true := by
  rw [memory_wf_iff] at hm hf ⊢
  unfold memPaste
  constructor
  · simp only [List.pairwise_append, List.pairwise_map, List.mem_append, List.mem_map, List.mem_filter, decide_eq_true_eq]
    refine ⟨⟨hm.1.filter _, (hf.1.filter _).imp fun h => by show base + _ < base + _; omega, ?_⟩, hm.1.filter _, ?_⟩
    · rintro c ⟨-, hc⟩ d ⟨e, -, rfl⟩
      show c.1 < base + e.1
      omega
    · rintro c (⟨-, hc⟩ | ⟨e, ⟨-, he⟩, rfl⟩) d ⟨-, hd⟩
      · omega
      · show base + e.1 < d.1
        omega
  · simp only [List.mem_append, List.mem_map, List.mem_filter]
    rintro c ((⟨hc, -⟩ | ⟨e, ⟨he, -⟩, rfl⟩) | ⟨hc, -⟩)
    · exact hm.2 c hc
    · exact hf.2 e he
    · exact hm.2 c hc

/-- Bytes written from a on read back there, and every other address reads as before. -/
theorem memRead_memWriteL {m : Memory} (a : Nat) (l : List Byte) (x : Nat) (h : Memory.wf m = true) :
    memRead (memWriteL m a l) x = if a ≤ x then l.getD (x - a) (memRead m x) else memRead m x := by
  induction l generalizing m a with
  | nil => simp [memWriteL]
  | cons b r ih =>
    rw [memWriteL, ih (a + 1) (memWrite_wf a b h), memRead_memWrite a b x h]
    by_cases hx : x = a
    · subst hx
      simp
    · by_cases hl : a ≤ x
      · obtain ⟨n, rfl⟩ : ∃ n, x = a + 1 + n := ⟨x - (a + 1), by omega⟩
        have e : a + 1 + n - a = n + 1 := by omega
        have e' : a + 1 + n - (a + 1) = n := by omega
        simp [hx, hl, e, e']
      · simp [hx, hl, show ¬ a + 1 ≤ x by omega]

/-- An immediate access that sets out changes nothing but the list of those on their way and the fresh number (R440). -/
@[simp] theorem setOut_late (s : State) (t : Tid) (a : Access) (use : LateUse) :
    (setOut s t a use).late = s.late ++ [⟨s.nextId, t, s.issued, Config.homeDelay s.nextId, a, use⟩] := rfl
@[simp] theorem setOut_cells (s : State) (t : Tid) (a : Access) (use : LateUse) : (setOut s t a use).cells = s.cells := rfl
@[simp] theorem setOut_mem (s : State) (t : Tid) (a : Access) (use : LateUse) : (setOut s t a use).mem = s.mem := rfl

/-- Marking pages changes no byte of memory. -/
@[simp] theorem markPages_mem (s : State) (w : Bool) (l : List (Nat × Nat)) : (markPages s w l).mem = s.mem := by
  induction l generalizing s with
  | nil => rfl
  | cons x r ih => exact ih _

/-- An immediate store performed at its home is the write there; an immediate load changes no byte of memory (R220). -/
theorem performOne_store (s : State) {e : LateAccess} {data : List Byte} (h : e.use = .store data) : performOne s e = immWrite s e.t e.access data := by
  simp only [performOne, h]
theorem performOne_load_mem (s : State) {e : LateAccess} {d : Code} {signed taint consume : Bool} (h : e.use = .load d signed taint consume) :
    (performOne s e).mem = s.mem := by
  simp only [performOne, h]
  exact markPages_mem s false e.access.pages

/-- The memories at power-good list nothing. -/
theorem reset_mem : State.reset.mem = [] ∧ State.reset.hostMem = [] ∧ State.reset.brine = [] := ⟨rfl, rfl, rfl⟩

end Sys2Proof.Machine
end

