-- ==== Sys2Proof/Laws/PerInstr.lean ====
section
/-! SUPPORT. The family WordCount: how many words each instruction takes (R55, R249), one lemma per constructor. -/
namespace Sys2Proof.Laws.WordCount
open Sys2Proof Sys2Proof.Machine

/-- The words of a form are as many as the LEN of the first of them announces; a transfer word is two words long, and an event of the device has
none. -/
def OfForm (F : Form) : Prop :=
  match F with
  | .event => encodeForm F = []
  | .xp _ _ => (encodeForm F).length = 2
  | _ => ∃ w0 rest, encodeForm F = w0 :: rest ∧ (encodeForm F).length = lenWords w0

/-- An instruction takes as many words as the LEN of its first word announces (R55); a transfer word is two words long (R249). -/
def Statement (i : Instr) : Prop := OfForm (formOf i)

theorem len_baseWord (op : Nat) (l : Bool) (d a b : Code) : lenWords (baseWord op l d a b) = if l then 3 else 1 := by
  have h : fld (baseWord op l d a b) 1 0 = if l then 1 else 0 := by
    simp only [fld, baseWord, BitVec.toNat_ofNat]
    split <;> omega
  unfold lenWords
  rw [h]
  cases l <;> rfl

theorem len_extWord0 (fn : BitVec 4) (d : Code) (la : BitVec 4) (g : Guard) (op : Nat) (l : Bool) :
    lenWords (extWord0 fn d la g op l) = if l then 5 else 3 := by
  have h : fld (extWord0 fn d la g op l) 1 0 = if l then 3 else 2 := by
    simp only [fld, extWord0, BitVec.toNat_ofNat]
    split <;> split <;> omega
  unfold lenWords
  rw [h]
  cases l <;> rfl

theorem len_baseBr (op : Nat) (f : BaseBranch) :
    lenWords (.ofNat 32 (f.off.toNat * 2 ^ 13 + (if f.gn then 2 ^ 12 else 0) + f.g.toNat * 2 ^ 8 + op * 4)) = 1 := by
  have h : fld (.ofNat 32 (f.off.toNat * 2 ^ 13 + (if f.gn then 2 ^ 12 else 0) + f.g.toNat * 2 ^ 8 + op * 4)) 1 0 = 0 := by
    simp only [fld, BitVec.toNat_ofNat]
    split <;> omega
  unfold lenWords
  rw [h]
  rfl

/-- The count of a form's words, for every form. -/
theorem ofForm (F : Form) : OfForm F := by
  cases F with
  | event => rfl
  | xp op f => rfl
  | baseNone op => exact ⟨_, _, rfl, by rw [len_baseWord]; rfl⟩
  | base1 op f => exact ⟨_, _, rfl, by rw [len_baseWord]; rfl⟩
  | base2 op f => exact ⟨_, _, rfl, by rw [len_baseWord]; rfl⟩
  | imm8 op f => exact ⟨_, _, rfl, by rw [len_baseWord]; rfl⟩
  | shift op f => exact ⟨_, _, rfl, by rw [len_baseWord]; rfl⟩
  | imm16 op f => exact ⟨_, _, rfl, by rw [len_baseWord]; rfl⟩
  | baseBr op f => exact ⟨_, _, rfl, by rw [len_baseBr]; rfl⟩
  | baseRet a => exact ⟨_, _, rfl, by rw [len_baseWord]; rfl⟩
  | baseLit op f => exact ⟨_, _, rfl, by rw [len_baseWord]; rfl⟩
  | ext op f => cases h : f.lit <;> exact ⟨_, _, rfl, by rw [len_extWord0]; simp [encodeForm, litWords, h]⟩
  | mem op f => cases h : f.lit <;> exact ⟨_, _, rfl, by rw [len_extWord0]; simp [encodeForm, litWords, h]⟩
  | br op f => cases h : f.lit <;> exact ⟨_, _, rfl, by rw [len_extWord0]; simp [encodeForm, litWords, h]⟩
  | sweep op f => exact ⟨_, _, rfl, by rw [len_extWord0]; rfl⟩

end Sys2Proof.Laws.WordCount

section PerConstructor
open Sys2Proof Sys2Proof.Machine Sys2Proof.Laws.WordCount

/-! ## One lemma per constructor -/

theorem Sys2Proof.Laws.WordCount.nop : Statement .nop := ofForm _
theorem Sys2Proof.Laws.WordCount.movBase (f : Base1) : Statement (.movBase f) := ofForm _
theorem Sys2Proof.Laws.WordCount.iaddBase (f : Base2) : Statement (.iaddBase f) := ofForm _
theorem Sys2Proof.Laws.WordCount.isubBase (f : Base2) : Statement (.isubBase f) := ofForm _
theorem Sys2Proof.Laws.WordCount.imulBase (f : Base2) : Statement (.imulBase f) := ofForm _
theorem Sys2Proof.Laws.WordCount.andBase (f : Base2) : Statement (.andBase f) := ofForm _
theorem Sys2Proof.Laws.WordCount.orBase (f : Base2) : Statement (.orBase f) := ofForm _
theorem Sys2Proof.Laws.WordCount.xorBase (f : Base2) : Statement (.xorBase f) := ofForm _
theorem Sys2Proof.Laws.WordCount.andnBase (f : Base2) : Statement (.andnBase f) := ofForm _
theorem Sys2Proof.Laws.WordCount.shlBase (f : Base2) : Statement (.shlBase f) := ofForm _
theorem Sys2Proof.Laws.WordCount.shrNBase (f : Base2) : Statement (.shrNBase f) := ofForm _
theorem Sys2Proof.Laws.WordCount.shrSBase (f : Base2) : Statement (.shrSBase f) := ofForm _
theorem Sys2Proof.Laws.WordCount.iminSBase (f : Base2) : Statement (.iminSBase f) := ofForm _
theorem Sys2Proof.Laws.WordCount.imaxSBase (f : Base2) : Statement (.imaxSBase f) := ofForm _
theorem Sys2Proof.Laws.WordCount.iminNBase (f : Base2) : Statement (.iminNBase f) := ofForm _
theorem Sys2Proof.Laws.WordCount.imaxNBase (f : Base2) : Statement (.imaxNBase f) := ofForm _
theorem Sys2Proof.Laws.WordCount.faddBase (f : Base2) : Statement (.faddBase f) := ofForm _
theorem Sys2Proof.Laws.WordCount.fsubBase (f : Base2) : Statement (.fsubBase f) := ofForm _
theorem Sys2Proof.Laws.WordCount.fmulBase (f : Base2) : Statement (.fmulBase f) := ofForm _
theorem Sys2Proof.Laws.WordCount.fminBase (f : Base2) : Statement (.fminBase f) := ofForm _
theorem Sys2Proof.Laws.WordCount.fmaxBase (f : Base2) : Statement (.fmaxBase f) := ofForm _
theorem Sys2Proof.Laws.WordCount.clzBase (f : Base1) : Statement (.clzBase f) := ofForm _
theorem Sys2Proof.Laws.WordCount.ctzBase (f : Base1) : Statement (.ctzBase f) := ofForm _
theorem Sys2Proof.Laws.WordCount.popcBase (f : Base1) : Statement (.popcBase f) := ofForm _
theorem Sys2Proof.Laws.WordCount.brevBase (f : Base1) : Statement (.brevBase f) := ofForm _
theorem Sys2Proof.Laws.WordCount.rolBase (f : Base2) : Statement (.rolBase f) := ofForm _
theorem Sys2Proof.Laws.WordCount.rorBase (f : Base2) : Statement (.rorBase f) := ofForm _
theorem Sys2Proof.Laws.WordCount.iaddBaseImm (f : BaseImm8) : Statement (.iaddBaseImm f) := ofForm _
theorem Sys2Proof.Laws.WordCount.shlBaseImm (f : BaseShift) : Statement (.shlBaseImm f) := ofForm _
theorem Sys2Proof.Laws.WordCount.shrNBaseImm (f : BaseShift) : Statement (.shrNBaseImm f) := ofForm _
theorem Sys2Proof.Laws.WordCount.shrSBaseImm (f : BaseShift) : Statement (.shrSBaseImm f) := ofForm _
theorem Sys2Proof.Laws.WordCount.andBaseImm (f : BaseImm8) : Statement (.andBaseImm f) := ofForm _
theorem Sys2Proof.Laws.WordCount.orBaseImm (f : BaseImm8) : Statement (.orBaseImm f) := ofForm _
theorem Sys2Proof.Laws.WordCount.xorBaseImm (f : BaseImm8) : Statement (.xorBaseImm f) := ofForm _
theorem Sys2Proof.Laws.WordCount.movi (f : BaseImm16) : Statement (.movi f) := ofForm _
theorem Sys2Proof.Laws.WordCount.movhi (f : BaseImm16) : Statement (.movhi f) := ofForm _
theorem Sys2Proof.Laws.WordCount.braBase (f : BaseBranch) : Statement (.braBase f) := ofForm _
theorem Sys2Proof.Laws.WordCount.callBase (f : BaseBranch) : Statement (.callBase f) := ofForm _
theorem Sys2Proof.Laws.WordCount.retBase (a : Code) : Statement (.retBase a) := ofForm _
theorem Sys2Proof.Laws.WordCount.exitBase : Statement .exitBase := ofForm _
theorem Sys2Proof.Laws.WordCount.iaddBaseLit (f : BaseLit) : Statement (.iaddBaseLit f) := ofForm _
theorem Sys2Proof.Laws.WordCount.isubBaseLit (f : BaseLit) : Statement (.isubBaseLit f) := ofForm _
theorem Sys2Proof.Laws.WordCount.imulBaseLit (f : BaseLit) : Statement (.imulBaseLit f) := ofForm _
theorem Sys2Proof.Laws.WordCount.andBaseLit (f : BaseLit) : Statement (.andBaseLit f) := ofForm _
theorem Sys2Proof.Laws.WordCount.orBaseLit (f : BaseLit) : Statement (.orBaseLit f) := ofForm _
theorem Sys2Proof.Laws.WordCount.xorBaseLit (f : BaseLit) : Statement (.xorBaseLit f) := ofForm _
theorem Sys2Proof.Laws.WordCount.andnBaseLit (f : BaseLit) : Statement (.andnBaseLit f) := ofForm _
theorem Sys2Proof.Laws.WordCount.shlBaseLit (f : BaseLit) : Statement (.shlBaseLit f) := ofForm _
theorem Sys2Proof.Laws.WordCount.shrNBaseLit (f : BaseLit) : Statement (.shrNBaseLit f) := ofForm _
theorem Sys2Proof.Laws.WordCount.shrSBaseLit (f : BaseLit) : Statement (.shrSBaseLit f) := ofForm _
theorem Sys2Proof.Laws.WordCount.iminSBaseLit (f : BaseLit) : Statement (.iminSBaseLit f) := ofForm _
theorem Sys2Proof.Laws.WordCount.imaxSBaseLit (f : BaseLit) : Statement (.imaxSBaseLit f) := ofForm _
theorem Sys2Proof.Laws.WordCount.iminNBaseLit (f : BaseLit) : Statement (.iminNBaseLit f) := ofForm _
theorem Sys2Proof.Laws.WordCount.imaxNBaseLit (f : BaseLit) : Statement (.imaxNBaseLit f) := ofForm _
theorem Sys2Proof.Laws.WordCount.faddBaseLit (f : BaseLit) : Statement (.faddBaseLit f) := ofForm _
theorem Sys2Proof.Laws.WordCount.fsubBaseLit (f : BaseLit) : Statement (.fsubBaseLit f) := ofForm _
theorem Sys2Proof.Laws.WordCount.fmulBaseLit (f : BaseLit) : Statement (.fmulBaseLit f) := ofForm _
theorem Sys2Proof.Laws.WordCount.fminBaseLit (f : BaseLit) : Statement (.fminBaseLit f) := ofForm _
theorem Sys2Proof.Laws.WordCount.fmaxBaseLit (f : BaseLit) : Statement (.fmaxBaseLit f) := ofForm _
theorem Sys2Proof.Laws.WordCount.rolBaseLit (f : BaseLit) : Statement (.rolBaseLit f) := ofForm _
theorem Sys2Proof.Laws.WordCount.rorBaseLit (f : BaseLit) : Statement (.rorBaseLit f) := ofForm _
theorem Sys2Proof.Laws.WordCount.iadd (f : Ext) : Statement (.iadd f) := ofForm _
theorem Sys2Proof.Laws.WordCount.isub (f : Ext) : Statement (.isub f) := ofForm _
theorem Sys2Proof.Laws.WordCount.imul (f : Ext) : Statement (.imul f) := ofForm _
theorem Sys2Proof.Laws.WordCount.imulh (f : Ext) : Statement (.imulh f) := ofForm _
theorem Sys2Proof.Laws.WordCount.imad (f : Ext) : Statement (.imad f) := ofForm _
theorem Sys2Proof.Laws.WordCount.imin (f : Ext) : Statement (.imin f) := ofForm _
theorem Sys2Proof.Laws.WordCount.imax (f : Ext) : Statement (.imax f) := ofForm _
theorem Sys2Proof.Laws.WordCount.iabs (f : Ext) : Statement (.iabs f) := ofForm _
theorem Sys2Proof.Laws.WordCount.ineg (f : Ext) : Statement (.ineg f) := ofForm _
theorem Sys2Proof.Laws.WordCount.and (f : Ext) : Statement (.and f) := ofForm _
theorem Sys2Proof.Laws.WordCount.or (f : Ext) : Statement (.or f) := ofForm _
theorem Sys2Proof.Laws.WordCount.xor (f : Ext) : Statement (.xor f) := ofForm _
theorem Sys2Proof.Laws.WordCount.andn (f : Ext) : Statement (.andn f) := ofForm _
theorem Sys2Proof.Laws.WordCount.shl (f : Ext) : Statement (.shl f) := ofForm _
theorem Sys2Proof.Laws.WordCount.shr (f : Ext) : Statement (.shr f) := ofForm _
theorem Sys2Proof.Laws.WordCount.rol (f : Ext) : Statement (.rol f) := ofForm _
theorem Sys2Proof.Laws.WordCount.ror (f : Ext) : Statement (.ror f) := ofForm _
theorem Sys2Proof.Laws.WordCount.clz (f : Ext) : Statement (.clz f) := ofForm _
theorem Sys2Proof.Laws.WordCount.ctz (f : Ext) : Statement (.ctz f) := ofForm _
theorem Sys2Proof.Laws.WordCount.popc (f : Ext) : Statement (.popc f) := ofForm _
theorem Sys2Proof.Laws.WordCount.brev (f : Ext) : Statement (.brev f) := ofForm _
theorem Sys2Proof.Laws.WordCount.bfx (f : Ext) : Statement (.bfx f) := ofForm _
theorem Sys2Proof.Laws.WordCount.bfi (f : Ext) : Statement (.bfi f) := ofForm _
theorem Sys2Proof.Laws.WordCount.bitil (f : Ext) : Statement (.bitil f) := ofForm _
theorem Sys2Proof.Laws.WordCount.bitdil (f : Ext) : Statement (.bitdil f) := ofForm _
theorem Sys2Proof.Laws.WordCount.sel (f : Ext) : Statement (.sel f) := ofForm _
theorem Sys2Proof.Laws.WordCount.mov (f : Ext) : Statement (.mov f) := ofForm _
theorem Sys2Proof.Laws.WordCount.isetp (f : Ext) : Statement (.isetp f) := ofForm _
theorem Sys2Proof.Laws.WordCount.plop (f : Ext) : Statement (.plop f) := ofForm _
theorem Sys2Proof.Laws.WordCount.vote (f : Ext) : Statement (.vote f) := ofForm _
theorem Sys2Proof.Laws.WordCount.cvt (f : Ext) : Statement (.cvt f) := ofForm _
theorem Sys2Proof.Laws.WordCount.pack (f : Ext) : Statement (.pack f) := ofForm _
theorem Sys2Proof.Laws.WordCount.unpack (f : Ext) : Statement (.unpack f) := ofForm _
theorem Sys2Proof.Laws.WordCount.refmk (f : Ext) : Statement (.refmk f) := ofForm _
theorem Sys2Proof.Laws.WordCount.refadd (f : Ext) : Statement (.refadd f) := ofForm _
theorem Sys2Proof.Laws.WordCount.refget (f : Ext) : Statement (.refget f) := ofForm _
theorem Sys2Proof.Laws.WordCount.fadd (f : Ext) : Statement (.fadd f) := ofForm _
theorem Sys2Proof.Laws.WordCount.fsub (f : Ext) : Statement (.fsub f) := ofForm _
theorem Sys2Proof.Laws.WordCount.fmul (f : Ext) : Statement (.fmul f) := ofForm _
theorem Sys2Proof.Laws.WordCount.ffma (f : Ext) : Statement (.ffma f) := ofForm _
theorem Sys2Proof.Laws.WordCount.fmin (f : Ext) : Statement (.fmin f) := ofForm _
theorem Sys2Proof.Laws.WordCount.fmax (f : Ext) : Statement (.fmax f) := ofForm _
theorem Sys2Proof.Laws.WordCount.fsetp (f : Ext) : Statement (.fsetp f) := ofForm _
theorem Sys2Proof.Laws.WordCount.frnd (f : Ext) : Statement (.frnd f) := ofForm _
theorem Sys2Proof.Laws.WordCount.fclass (f : Ext) : Statement (.fclass f) := ofForm _
theorem Sys2Proof.Laws.WordCount.ftwosum (f : Ext) : Statement (.ftwosum f) := ofForm _
theorem Sys2Proof.Laws.WordCount.ftwoprod (f : Ext) : Statement (.ftwoprod f) := ofForm _
theorem Sys2Proof.Laws.WordCount.fdivR (f : Ext) : Statement (.fdivR f) := ofForm _
theorem Sys2Proof.Laws.WordCount.fsqrtR (f : Ext) : Statement (.fsqrtR f) := ofForm _
theorem Sys2Proof.Laws.WordCount.rcpF (f : Ext) : Statement (.rcpF f) := ofForm _
theorem Sys2Proof.Laws.WordCount.rcpR (f : Ext) : Statement (.rcpR f) := ofForm _
theorem Sys2Proof.Laws.WordCount.rsqF (f : Ext) : Statement (.rsqF f) := ofForm _
theorem Sys2Proof.Laws.WordCount.rsqR (f : Ext) : Statement (.rsqR f) := ofForm _
theorem Sys2Proof.Laws.WordCount.exp2F (f : Ext) : Statement (.exp2F f) := ofForm _
theorem Sys2Proof.Laws.WordCount.exp2R (f : Ext) : Statement (.exp2R f) := ofForm _
theorem Sys2Proof.Laws.WordCount.log2F (f : Ext) : Statement (.log2F f) := ofForm _
theorem Sys2Proof.Laws.WordCount.log2R (f : Ext) : Statement (.log2R f) := ofForm _
theorem Sys2Proof.Laws.WordCount.sinpiF (f : Ext) : Statement (.sinpiF f) := ofForm _
theorem Sys2Proof.Laws.WordCount.sinpiR (f : Ext) : Statement (.sinpiR f) := ofForm _
theorem Sys2Proof.Laws.WordCount.cospiF (f : Ext) : Statement (.cospiF f) := ofForm _
theorem Sys2Proof.Laws.WordCount.cospiR (f : Ext) : Statement (.cospiR f) := ofForm _
theorem Sys2Proof.Laws.WordCount.tanhF (f : Ext) : Statement (.tanhF f) := ofForm _
theorem Sys2Proof.Laws.WordCount.tanhR (f : Ext) : Statement (.tanhR f) := ofForm _
theorem Sys2Proof.Laws.WordCount.hfma2 (f : Ext) : Statement (.hfma2 f) := ofForm _
theorem Sys2Proof.Laws.WordCount.hadd2 (f : Ext) : Statement (.hadd2 f) := ofForm _
theorem Sys2Proof.Laws.WordCount.hmul2 (f : Ext) : Statement (.hmul2 f) := ofForm _
theorem Sys2Proof.Laws.WordCount.bfma2 (f : Ext) : Statement (.bfma2 f) := ofForm _
theorem Sys2Proof.Laws.WordCount.swFadd (f : Sweep) : Statement (.swFadd f) := ofForm _
theorem Sys2Proof.Laws.WordCount.swFmul (f : Sweep) : Statement (.swFmul f) := ofForm _
theorem Sys2Proof.Laws.WordCount.swFfma (f : Sweep) : Statement (.swFfma f) := ofForm _
theorem Sys2Proof.Laws.WordCount.swFmax (f : Sweep) : Statement (.swFmax f) := ofForm _
theorem Sys2Proof.Laws.WordCount.swCvt (f : Sweep) : Statement (.swCvt f) := ofForm _
theorem Sys2Proof.Laws.WordCount.swCopy (f : Sweep) : Statement (.swCopy f) := ofForm _
theorem Sys2Proof.Laws.WordCount.swSum (f : Sweep) : Statement (.swSum f) := ofForm _
theorem Sys2Proof.Laws.WordCount.ld (f : Mem) : Statement (.ld f) := ofForm _
theorem Sys2Proof.Laws.WordCount.st (f : Mem) : Statement (.st f) := ofForm _
theorem Sys2Proof.Laws.WordCount.lds (f : Mem) : Statement (.lds f) := ofForm _
theorem Sys2Proof.Laws.WordCount.sts (f : Mem) : Statement (.sts f) := ofForm _
theorem Sys2Proof.Laws.WordCount.ldw (f : Mem) : Statement (.ldw f) := ofForm _
theorem Sys2Proof.Laws.WordCount.stw (f : Mem) : Statement (.stw f) := ofForm _
theorem Sys2Proof.Laws.WordCount.uld (f : Mem) : Statement (.uld f) := ofForm _
theorem Sys2Proof.Laws.WordCount.ust (f : Mem) : Statement (.ust f) := ofForm _
theorem Sys2Proof.Laws.WordCount.pref (f : Mem) : Statement (.pref f) := ofForm _
theorem Sys2Proof.Laws.WordCount.fence (f : Mem) : Statement (.fence f) := ofForm _
theorem Sys2Proof.Laws.WordCount.atom (f : Mem) : Statement (.atom f) := ofForm _
theorem Sys2Proof.Laws.WordCount.atomb (f : Mem) : Statement (.atomb f) := ofForm _
theorem Sys2Proof.Laws.WordCount.cas (f : Mem) : Statement (.cas f) := ofForm _
theorem Sys2Proof.Laws.WordCount.red (f : Mem) : Statement (.red f) := ofForm _
theorem Sys2Proof.Laws.WordCount.filmadd (f : Mem) : Statement (.filmadd f) := ofForm _
theorem Sys2Proof.Laws.WordCount.monarm (f : Mem) : Statement (.monarm f) := ofForm _
theorem Sys2Proof.Laws.WordCount.monwait (f : Mem) : Statement (.monwait f) := ofForm _
theorem Sys2Proof.Laws.WordCount.wadd (f : Ext) : Statement (.wadd f) := ofForm _
theorem Sys2Proof.Laws.WordCount.wsub (f : Ext) : Statement (.wsub f) := ofForm _
theorem Sys2Proof.Laws.WordCount.wmul (f : Ext) : Statement (.wmul f) := ofForm _
theorem Sys2Proof.Laws.WordCount.wfma (f : Ext) : Statement (.wfma f) := ofForm _
theorem Sys2Proof.Laws.WordCount.wmin (f : Ext) : Statement (.wmin f) := ofForm _
theorem Sys2Proof.Laws.WordCount.wmax (f : Ext) : Statement (.wmax f) := ofForm _
theorem Sys2Proof.Laws.WordCount.wsel (f : Ext) : Statement (.wsel f) := ofForm _
theorem Sys2Proof.Laws.WordCount.wmov (f : Ext) : Statement (.wmov f) := ofForm _
theorem Sys2Proof.Laws.WordCount.wext (f : Ext) : Statement (.wext f) := ofForm _
theorem Sys2Proof.Laws.WordCount.wins (f : Ext) : Statement (.wins f) := ofForm _
theorem Sys2Proof.Laws.WordCount.wlambda (f : Ext) : Statement (.wlambda f) := ofForm _
theorem Sys2Proof.Laws.WordCount.wsum (f : Ext) : Statement (.wsum f) := ofForm _
theorem Sys2Proof.Laws.WordCount.wxyz (f : Ext) : Statement (.wxyz f) := ofForm _
theorem Sys2Proof.Laws.WordCount.wmueller (f : Ext) : Statement (.wmueller f) := ofForm _
theorem Sys2Proof.Laws.WordCount.wrcpF (f : Ext) : Statement (.wrcpF f) := ofForm _
theorem Sys2Proof.Laws.WordCount.wrcpR (f : Ext) : Statement (.wrcpR f) := ofForm _
theorem Sys2Proof.Laws.WordCount.wexp2F (f : Ext) : Statement (.wexp2F f) := ofForm _
theorem Sys2Proof.Laws.WordCount.wexp2R (f : Ext) : Statement (.wexp2R f) := ofForm _
theorem Sys2Proof.Laws.WordCount.wsetp (f : Ext) : Statement (.wsetp f) := ofForm _
theorem Sys2Proof.Laws.WordCount.wcvt (f : Ext) : Statement (.wcvt f) := ofForm _
theorem Sys2Proof.Laws.WordCount.samplew (f : Ext) : Statement (.samplew f) := ofForm _
theorem Sys2Proof.Laws.WordCount.sample (f : Ext) : Statement (.sample f) := ofForm _
theorem Sys2Proof.Laws.WordCount.texld (f : Ext) : Statement (.texld f) := ofForm _
theorem Sys2Proof.Laws.WordCount.specup (f : Ext) : Statement (.specup f) := ofForm _
theorem Sys2Proof.Laws.WordCount.trace (f : Ext) : Statement (.trace f) := ofForm _
theorem Sys2Proof.Laws.WordCount.trcont (f : Ext) : Statement (.trcont f) := ofForm _
theorem Sys2Proof.Laws.WordCount.trget (f : Ext) : Statement (.trget f) := ofForm _
theorem Sys2Proof.Laws.WordCount.mxbld (f : Ext) : Statement (.mxbld f) := ofForm _
theorem Sys2Proof.Laws.WordCount.mxmE4m3 (f : Ext) : Statement (.mxmE4m3 f) := ofForm _
theorem Sys2Proof.Laws.WordCount.mxmE5m2 (f : Ext) : Statement (.mxmE5m2 f) := ofForm _
theorem Sys2Proof.Laws.WordCount.mxmE2m1 (f : Ext) : Statement (.mxmE2m1 f) := ofForm _
theorem Sys2Proof.Laws.WordCount.mxmI8g (f : Ext) : Statement (.mxmI8g f) := ofForm _
theorem Sys2Proof.Laws.WordCount.mxmI4g (f : Ext) : Statement (.mxmI4g f) := ofForm _
theorem Sys2Proof.Laws.WordCount.mxmBf16 (f : Ext) : Statement (.mxmBf16 f) := ofForm _
theorem Sys2Proof.Laws.WordCount.mxmF16 (f : Ext) : Statement (.mxmF16 f) := ofForm _
theorem Sys2Proof.Laws.WordCount.mxmv (f : Ext) : Statement (.mxmv f) := ofForm _
theorem Sys2Proof.Laws.WordCount.mxz (f : Ext) : Statement (.mxz f) := ofForm _
theorem Sys2Proof.Laws.WordCount.mxrd (f : Ext) : Statement (.mxrd f) := ofForm _
theorem Sys2Proof.Laws.WordCount.mxwr (f : Ext) : Statement (.mxwr f) := ofForm _
theorem Sys2Proof.Laws.WordCount.mxst (f : Ext) : Statement (.mxst f) := ofForm _
theorem Sys2Proof.Laws.WordCount.mxqry (f : Ext) : Statement (.mxqry f) := ofForm _
theorem Sys2Proof.Laws.WordCount.barinit (f : Ext) : Statement (.barinit f) := ofForm _
theorem Sys2Proof.Laws.WordCount.bararv (f : Ext) : Statement (.bararv f) := ofForm _
theorem Sys2Proof.Laws.WordCount.barwait (f : Ext) : Statement (.barwait f) := ofForm _
theorem Sys2Proof.Laws.WordCount.bartest (f : Ext) : Statement (.bartest f) := ofForm _
theorem Sys2Proof.Laws.WordCount.barinv (f : Ext) : Statement (.barinv f) := ofForm _
theorem Sys2Proof.Laws.WordCount.barqry (f : Ext) : Statement (.barqry f) := ofForm _
theorem Sys2Proof.Laws.WordCount.sync (f : Ext) : Statement (.sync f) := ofForm _
theorem Sys2Proof.Laws.WordCount.phase (f : Ext) : Statement (.phase f) := ofForm _
theorem Sys2Proof.Laws.WordCount.xprunStart (f : Ext) : Statement (.xprunStart f) := ofForm _
theorem Sys2Proof.Laws.WordCount.xprunResume (f : Ext) : Statement (.xprunResume f) := ofForm _
theorem Sys2Proof.Laws.WordCount.xprunQry (f : Ext) : Statement (.xprunQry f) := ofForm _
theorem Sys2Proof.Laws.WordCount.xprunKill (f : Ext) : Statement (.xprunKill f) := ofForm _
theorem Sys2Proof.Laws.WordCount.tcopy (f : Ext) : Statement (.tcopy f) := ofForm _
theorem Sys2Proof.Laws.WordCount.qmapBind (f : Ext) : Statement (.qmapBind f) := ofForm _
theorem Sys2Proof.Laws.WordCount.qmapUnbind (f : Ext) : Statement (.qmapUnbind f) := ofForm _
theorem Sys2Proof.Laws.WordCount.amsend (f : Ext) : Statement (.amsend f) := ofForm _
theorem Sys2Proof.Laws.WordCount.bra (f : Branch) : Statement (.bra f) := ofForm _
theorem Sys2Proof.Laws.WordCount.brx (f : Branch) : Statement (.brx f) := ofForm _
theorem Sys2Proof.Laws.WordCount.call (f : Branch) : Statement (.call f) := ofForm _
theorem Sys2Proof.Laws.WordCount.callx (f : Branch) : Statement (.callx f) := ofForm _
theorem Sys2Proof.Laws.WordCount.ret (f : Ext) : Statement (.ret f) := ofForm _
theorem Sys2Proof.Laws.WordCount.exit (f : Ext) : Statement (.exit f) := ofForm _
theorem Sys2Proof.Laws.WordCount.yield (f : Ext) : Statement (.yield f) := ofForm _
theorem Sys2Proof.Laws.WordCount.trap (f : Ext) : Statement (.trap f) := ofForm _
theorem Sys2Proof.Laws.WordCount.tret (f : Ext) : Statement (.tret f) := ofForm _
theorem Sys2Proof.Laws.WordCount.brk (f : Ext) : Statement (.brk f) := ofForm _
theorem Sys2Proof.Laws.WordCount.csrr (f : Ext) : Statement (.csrr f) := ofForm _
theorem Sys2Proof.Laws.WordCount.csrw (f : Ext) : Statement (.csrw f) := ofForm _
theorem Sys2Proof.Laws.WordCount.clk (f : Ext) : Statement (.clk f) := ofForm _
theorem Sys2Proof.Laws.WordCount.ptpnow (f : Ext) : Statement (.ptpnow f) := ofForm _
theorem Sys2Proof.Laws.WordCount.xnop (f : Xp) : Statement (.xnop f) := ofForm _
theorem Sys2Proof.Laws.WordCount.xli (f : Xp) : Statement (.xli f) := ofForm _
theorem Sys2Proof.Laws.WordCount.xadd (f : Xp) : Statement (.xadd f) := ofForm _
theorem Sys2Proof.Laws.WordCount.xaddi (f : Xp) : Statement (.xaddi f) := ofForm _
theorem Sys2Proof.Laws.WordCount.xsub (f : Xp) : Statement (.xsub f) := ofForm _
theorem Sys2Proof.Laws.WordCount.xmul (f : Xp) : Statement (.xmul f) := ofForm _
theorem Sys2Proof.Laws.WordCount.xand (f : Xp) : Statement (.xand f) := ofForm _
theorem Sys2Proof.Laws.WordCount.xior (f : Xp) : Statement (.xior f) := ofForm _
theorem Sys2Proof.Laws.WordCount.xxor (f : Xp) : Statement (.xxor f) := ofForm _
theorem Sys2Proof.Laws.WordCount.xshl (f : Xp) : Statement (.xshl f) := ofForm _
theorem Sys2Proof.Laws.WordCount.xshr (f : Xp) : Statement (.xshr f) := ofForm _
theorem Sys2Proof.Laws.WordCount.xb (f : Xp) : Statement (.xb f) := ofForm _
theorem Sys2Proof.Laws.WordCount.xbeq (f : Xp) : Statement (.xbeq f) := ofForm _
theorem Sys2Proof.Laws.WordCount.xbne (f : Xp) : Statement (.xbne f) := ofForm _
theorem Sys2Proof.Laws.WordCount.xblt (f : Xp) : Statement (.xblt f) := ofForm _
theorem Sys2Proof.Laws.WordCount.xbge (f : Xp) : Statement (.xbge f) := ofForm _
theorem Sys2Proof.Laws.WordCount.xloop (f : Xp) : Statement (.xloop f) := ofForm _
theorem Sys2Proof.Laws.WordCount.xlend (f : Xp) : Statement (.xlend f) := ofForm _
theorem Sys2Proof.Laws.WordCount.xld (f : Xp) : Statement (.xld f) := ofForm _
theorem Sys2Proof.Laws.WordCount.xst (f : Xp) : Statement (.xst f) := ofForm _
theorem Sys2Proof.Laws.WordCount.xgset (f : Xp) : Statement (.xgset f) := ofForm _
theorem Sys2Proof.Laws.WordCount.xgpos (f : Xp) : Statement (.xgpos f) := ofForm _
theorem Sys2Proof.Laws.WordCount.xgstep (f : Xp) : Statement (.xgstep f) := ofForm _
theorem Sys2Proof.Laws.WordCount.xcopy (f : Xp) : Statement (.xcopy f) := ofForm _
theorem Sys2Proof.Laws.WordCount.xgath (f : Xp) : Statement (.xgath f) := ofForm _
theorem Sys2Proof.Laws.WordCount.xmcast (f : Xp) : Statement (.xmcast f) := ofForm _
theorem Sys2Proof.Laws.WordCount.xqpush (f : Xp) : Statement (.xqpush f) := ofForm _
theorem Sys2Proof.Laws.WordCount.xconv (f : Xp) : Statement (.xconv f) := ofForm _
theorem Sys2Proof.Laws.WordCount.xbarv (f : Xp) : Statement (.xbarv f) := ofForm _
theorem Sys2Proof.Laws.WordCount.xbwait (f : Xp) : Statement (.xbwait f) := ofForm _
theorem Sys2Proof.Laws.WordCount.xmxm (f : Xp) : Statement (.xmxm f) := ofForm _
theorem Sys2Proof.Laws.WordCount.xstamp (f : Xp) : Statement (.xstamp f) := ofForm _
theorem Sys2Proof.Laws.WordCount.xqfence (f : Xp) : Statement (.xqfence f) := ofForm _
theorem Sys2Proof.Laws.WordCount.xwait (f : Xp) : Statement (.xwait f) := ofForm _
theorem Sys2Proof.Laws.WordCount.xtrap (f : Xp) : Statement (.xtrap f) := ofForm _
theorem Sys2Proof.Laws.WordCount.xexit (f : Xp) : Statement (.xexit f) := ofForm _
theorem Sys2Proof.Laws.WordCount.longLatencyRetire (t : Tid) : Statement (.longLatencyRetire t) := ofForm _
theorem Sys2Proof.Laws.WordCount.curdle (core : Nat) : Statement (.curdle core) := ofForm _
theorem Sys2Proof.Laws.WordCount.arrayOpPerform (core : Nat) : Statement (.arrayOpPerform core) := ofForm _
theorem Sys2Proof.Laws.WordCount.subarrayGate (core : Nat) : Statement (.subarrayGate core) := ofForm _
theorem Sys2Proof.Laws.WordCount.transferLand (x : Xid) (run : Nat) : Statement (.transferLand x run) := ofForm _
theorem Sys2Proof.Laws.WordCount.slotWake (cell slot : Nat) : Statement (.slotWake cell slot) := ofForm _
theorem Sys2Proof.Laws.WordCount.phaseComplete (gang : Nat) : Statement (.phaseComplete gang) := ofForm _
theorem Sys2Proof.Laws.WordCount.xmxmEntry (x : Xid) : Statement (.xmxmEntry x) := ofForm _
theorem Sys2Proof.Laws.WordCount.xpWaitEnd (x : Xid) : Statement (.xpWaitEnd x) := ofForm _
theorem Sys2Proof.Laws.WordCount.tcopyService (core : Nat) : Statement (.tcopyService core) := ofForm _
theorem Sys2Proof.Laws.WordCount.combineTimeout (req : Nat) : Statement (.combineTimeout req) := ofForm _
theorem Sys2Proof.Laws.WordCount.atomicPerform (req : Nat) : Statement (.atomicPerform req) := ofForm _
theorem Sys2Proof.Laws.WordCount.replySplit (reply : Nat) : Statement (.replySplit reply) := ofForm _
theorem Sys2Proof.Laws.WordCount.monwaitTimeout (t : Tid) : Statement (.monwaitTimeout t) := ofForm _
theorem Sys2Proof.Laws.WordCount.batchTermArrival (term : Nat) : Statement (.batchTermArrival term) := ofForm _
theorem Sys2Proof.Laws.WordCount.batchTimeout (batch : Nat) : Statement (.batchTimeout batch) := ofForm _
theorem Sys2Proof.Laws.WordCount.batchReply (reply : Nat) : Statement (.batchReply reply) := ofForm _
theorem Sys2Proof.Laws.WordCount.trapDelivery (cell squad : Nat) : Statement (.trapDelivery cell squad) := ofForm _
theorem Sys2Proof.Laws.WordCount.placement : Statement .placement := ofForm _
theorem Sys2Proof.Laws.WordCount.reservation (kernel : Nat) : Statement (.reservation kernel) := ofForm _
theorem Sys2Proof.Laws.WordCount.recall (cell squad : Nat) : Statement (.recall cell squad) := ofForm _
theorem Sys2Proof.Laws.WordCount.cellExit (cell : Nat) : Statement (.cellExit cell) := ofForm _
theorem Sys2Proof.Laws.WordCount.cooperativeSave (gang : Nat) : Statement (.cooperativeSave gang) := ofForm _
theorem Sys2Proof.Laws.WordCount.forcedSave (gang : Nat) : Statement (.forcedSave gang) := ofForm _
theorem Sys2Proof.Laws.WordCount.ctxCreate (desc : List Byte) : Statement (.ctxCreate desc) := ofForm _
theorem Sys2Proof.Laws.WordCount.ctxBind (ctx : Nat) (pset : BitVec 24) : Statement (.ctxBind ctx pset) := ofForm _
theorem Sys2Proof.Laws.WordCount.ctxUnbind (ctx : Nat) : Statement (.ctxUnbind ctx) := ofForm _
theorem Sys2Proof.Laws.WordCount.ctxSwap (part : Nat) : Statement (.ctxSwap part) := ofForm _
theorem Sys2Proof.Laws.WordCount.caveExchange (part : Nat) : Statement (.caveExchange part) := ofForm _
theorem Sys2Proof.Laws.WordCount.ctxPark (ctx : Nat) : Statement (.ctxPark ctx) := ofForm _
theorem Sys2Proof.Laws.WordCount.ctxUnpark (ctx : Nat) : Statement (.ctxUnpark ctx) := ofForm _
theorem Sys2Proof.Laws.WordCount.ctxKill (ctx : Nat) : Statement (.ctxKill ctx) := ofForm _
theorem Sys2Proof.Laws.WordCount.teardownComplete (ctx : Nat) : Statement (.teardownComplete ctx) := ofForm _
theorem Sys2Proof.Laws.WordCount.ctxFree (ctx : Nat) : Statement (.ctxFree ctx) := ofForm _
theorem Sys2Proof.Laws.WordCount.qCreate (shadow : List Byte) : Statement (.qCreate shadow) := ofForm _
theorem Sys2Proof.Laws.WordCount.qReset (qid : Nat) (skip : Bool) : Statement (.qReset qid skip) := ofForm _
theorem Sys2Proof.Laws.WordCount.qDestroy (qid : Nat) : Statement (.qDestroy qid) := ofForm _
theorem Sys2Proof.Laws.WordCount.queueWake (qid : Nat) : Statement (.queueWake qid) := ofForm _
theorem Sys2Proof.Laws.WordCount.nopEntry (qid : Nat) : Statement (.nopEntry qid) := ofForm _
theorem Sys2Proof.Laws.WordCount.launch (qid : Nat) : Statement (.launch qid) := ofForm _
theorem Sys2Proof.Laws.WordCount.launchInd (qid : Nat) : Statement (.launchInd qid) := ofForm _
theorem Sys2Proof.Laws.WordCount.prologueBudget (lp : Nat) : Statement (.prologueBudget lp) := ofForm _
theorem Sys2Proof.Laws.WordCount.xplaunch (qid : Nat) : Statement (.xplaunch qid) := ofForm _
theorem Sys2Proof.Laws.WordCount.copy (qid : Nat) : Statement (.copy qid) := ofForm _
theorem Sys2Proof.Laws.WordCount.copyComplete (copy : Nat) : Statement (.copyComplete copy) := ofForm _
theorem Sys2Proof.Laws.WordCount.qfence (qid : Nat) : Statement (.qfence qid) := ofForm _
theorem Sys2Proof.Laws.WordCount.qfenceRelease (qid : Nat) : Statement (.qfenceRelease qid) := ofForm _
theorem Sys2Proof.Laws.WordCount.signal (qid : Nat) : Statement (.signal qid) := ofForm _
theorem Sys2Proof.Laws.WordCount.wait (qid : Nat) : Statement (.wait qid) := ofForm _
theorem Sys2Proof.Laws.WordCount.waitRelease (qid : Nat) : Statement (.waitRelease qid) := ofForm _
theorem Sys2Proof.Laws.WordCount.waitTimeout (qid : Nat) : Statement (.waitTimeout qid) := ofForm _
theorem Sys2Proof.Laws.WordCount.timed (qid : Nat) : Statement (.timed qid) := ofForm _
theorem Sys2Proof.Laws.WordCount.timedRelease (qid : Nat) : Statement (.timedRelease qid) := ofForm _
theorem Sys2Proof.Laws.WordCount.collective (qid : Nat) : Statement (.collective qid) := ofForm _
theorem Sys2Proof.Laws.WordCount.collectiveComplete (peers : PeerShards) : Statement (.collectiveComplete peers) := ofForm _
theorem Sys2Proof.Laws.WordCount.heldRelease (qid : Nat) : Statement (.heldRelease qid) := ofForm _
theorem Sys2Proof.Laws.WordCount.btSet (ctx index : Nat) (entry : List Byte) : Statement (.btSet ctx index entry) := ofForm _
theorem Sys2Proof.Laws.WordCount.pgMap (ctx index page : Nat) (frame : Nat) (zero : Bool) : Statement (.pgMap ctx index page frame zero) := ofForm _
theorem Sys2Proof.Laws.WordCount.pgUnmap (ctx index page : Nat) : Statement (.pgUnmap ctx index page) := ofForm _
theorem Sys2Proof.Laws.WordCount.pgBrine (ctx index page : Nat) : Statement (.pgBrine ctx index page) := ofForm _
theorem Sys2Proof.Laws.WordCount.brineDone (root page : Nat) : Statement (.brineDone root page) := ofForm _
theorem Sys2Proof.Laws.WordCount.pgMigrate (ctx index page : Nat) (frame : Nat) : Statement (.pgMigrate ctx index page frame) := ofForm _
theorem Sys2Proof.Laws.WordCount.migrateDone (root page : Nat) : Statement (.migrateDone root page) := ofForm _
theorem Sys2Proof.Laws.WordCount.pgPool (pool : StackPool) (frames : List Nat) : Statement (.pgPool pool frames) := ofForm _
theorem Sys2Proof.Laws.WordCount.pgScan (ctx index first count : Nat) (clear : Bool) : Statement (.pgScan ctx index first count clear) := ofForm _
theorem Sys2Proof.Laws.WordCount.ckpt (ctx : Nat) (buffers : List Nat) (target : Dword) (full : Bool) : Statement (.ckpt ctx buffers target full) := ofForm _
theorem Sys2Proof.Laws.WordCount.expansionDone (root page : Nat) : Statement (.expansionDone root page) := ofForm _
theorem Sys2Proof.Laws.WordCount.winSet (seg : Nat) (entry : List Byte) : Statement (.winSet seg entry) := ofForm _
theorem Sys2Proof.Laws.WordCount.hostRead (off len : Nat) : Statement (.hostRead off len) := ofForm _
theorem Sys2Proof.Laws.WordCount.hostWrite (off : Nat) (data : List Byte) : Statement (.hostWrite off data) := ofForm _
theorem Sys2Proof.Laws.WordCount.hostAtomicop (off : Nat) : Statement (.hostAtomicop off) := ofForm _
theorem Sys2Proof.Laws.WordCount.linkCfg (rank : Nat) : Statement (.linkCfg rank) := ofForm _
theorem Sys2Proof.Laws.WordCount.linkRoute (rank : Nat) (ports : BitVec 8) : Statement (.linkRoute rank ports) := ofForm _
theorem Sys2Proof.Laws.WordCount.linkEnable (port : Nat) : Statement (.linkEnable port) := ofForm _
theorem Sys2Proof.Laws.WordCount.trainingDone (port lanes : Nat) : Statement (.trainingDone port lanes) := ofForm _
theorem Sys2Proof.Laws.WordCount.trainingTimeout (port : Nat) : Statement (.trainingTimeout port) := ofForm _
theorem Sys2Proof.Laws.WordCount.linkError (port : Nat) : Statement (.linkError port) := ofForm _
theorem Sys2Proof.Laws.WordCount.retrainingDone (port lanes : Nat) : Statement (.retrainingDone port lanes) := ofForm _
theorem Sys2Proof.Laws.WordCount.retrainingTimeout (port : Nat) : Statement (.retrainingTimeout port) := ofForm _
theorem Sys2Proof.Laws.WordCount.linkFence (port : Nat) : Statement (.linkFence port) := ofForm _
theorem Sys2Proof.Laws.WordCount.linkUnfence (port : Nat) : Statement (.linkUnfence port) := ofForm _
theorem Sys2Proof.Laws.WordCount.linkDisable (port : Nat) : Statement (.linkDisable port) := ofForm _
theorem Sys2Proof.Laws.WordCount.isolate (port : Nat) : Statement (.isolate port) := ofForm _
theorem Sys2Proof.Laws.WordCount.release (port : Nat) : Statement (.release port) := ofForm _
theorem Sys2Proof.Laws.WordCount.linkQry (port : Nat) : Statement (.linkQry port) := ofForm _
theorem Sys2Proof.Laws.WordCount.remoteRequestArrival (r : Arrived PeerRequest) : Statement (.remoteRequestArrival r) := ofForm _
theorem Sys2Proof.Laws.WordCount.remoteResponse (r : Arrived PeerResponse) : Statement (.remoteResponse r) := ofForm _
theorem Sys2Proof.Laws.WordCount.remoteRetransmit (req : Nat) : Statement (.remoteRetransmit req) := ofForm _
theorem Sys2Proof.Laws.WordCount.amArrival (m : AmPacket) : Statement (.amArrival m) := ofForm _
theorem Sys2Proof.Laws.WordCount.amBatchTimeout (cell hidx : Nat) : Statement (.amBatchTimeout cell hidx) := ofForm _
theorem Sys2Proof.Laws.WordCount.handlerSquadStart (cell hidx : Nat) : Statement (.handlerSquadStart cell hidx) := ofForm _
theorem Sys2Proof.Laws.WordCount.creditReturn : Statement .creditReturn := ofForm _
theorem Sys2Proof.Laws.WordCount.powerGood : Statement .powerGood := ofForm _
theorem Sys2Proof.Laws.WordCount.heartbeat (block : Nat) : Statement (.heartbeat block) := ofForm _
theorem Sys2Proof.Laws.WordCount.heartbeatTimeout (block : Nat) : Statement (.heartbeatTimeout block) := ofForm _
theorem Sys2Proof.Laws.WordCount.fwReload (block : Nat) : Statement (.fwReload block) := ofForm _
theorem Sys2Proof.Laws.WordCount.sectorReset (sector : Nat) : Statement (.sectorReset sector) := ofForm _
theorem Sys2Proof.Laws.WordCount.attest (nonce : List Byte) : Statement (.attest nonce) := ofForm _
theorem Sys2Proof.Laws.WordCount.csrSet (csr : SetCsr) (value : Nat) : Statement (.csrSet csr value) := ofForm _
theorem Sys2Proof.Laws.WordCount.pwrQry : Statement .pwrQry := ofForm _
theorem Sys2Proof.Laws.WordCount.droopDetect (sector : Nat) : Statement (.droopDetect sector) := ofForm _
theorem Sys2Proof.Laws.WordCount.droopRecover (sector : Nat) : Statement (.droopRecover sector) := ofForm _
theorem Sys2Proof.Laws.WordCount.scrub (stack : Nat) : Statement (.scrub stack) := ofForm _
theorem Sys2Proof.Laws.WordCount.ppsInput (sec : Nat) (nsec : Nat) : Statement (.ppsInput sec nsec) := ofForm _
theorem Sys2Proof.Laws.WordCount.preqClear (gang : Nat) : Statement (.preqClear gang) := ofForm _
theorem Sys2Proof.Laws.WordCount.replayFilterExpiry (entry : Nat) : Statement (.replayFilterExpiry entry) := ofForm _
theorem Sys2Proof.Laws.WordCount.ckptPageRead : Statement .ckptPageRead := ofForm _
theorem Sys2Proof.Laws.WordCount.ckptComplete : Statement .ckptComplete := ofForm _
theorem Sys2Proof.Laws.WordCount.parkCopyDone (ctx : Nat) : Statement (.parkCopyDone ctx) := ofForm _
theorem Sys2Proof.Laws.WordCount.hostConfigRequest : Statement .hostConfigRequest := ofForm _
theorem Sys2Proof.Laws.WordCount.errorLogRead : Statement .errorLogRead := ofForm _

end PerConstructor
end

