-- ==== Sys2Proof/Laws/Transfer.lean ====
section
/-! SUPPORT. What a transfer word does to its context: updates of one context compose, and a word in execution answers the next state of its effect. -/
namespace Sys2Proof.Machine
open Sys2Proof

/-- Two updates of a cell that keep its number are one. -/
theorem modCell_modCell (s : State) (id : Nat) (f g : Cell → Cell) (hf : ∀ c, (f c).id = c.id) :
    (s.modCell id f).modCell id g = s.modCell id (fun c => g (f c)) := by
  simp only [State.modCell, List.map_map]
  congr 1
  apply List.map_congr_left
  intro c _
  by_cases h : (c.id == id) = true
  · simp [Function.comp, h, hf]
  · simp [Function.comp, h]

theorem modXp_modXp (s : State) (x : Xid) (f g : XpCtx → XpCtx) : (s.modXp x f).modXp x g = s.modXp x (fun q => g (f q)) := by
  unfold State.modXp
  rw [modCell_modCell _ _ _ _ (by intro c; split <;> rfl)]
  congr 1
  funext c
  split
  · rfl
  · simp only [List.modify_modify_eq]; rfl

/-- A context reads as the update of what it was. -/
theorem xp_modXp (s : State) (x : Xid) (f : XpCtx → XpCtx) : (s.modXp x f).xp? x = (s.xp? x).map f := by
  unfold State.xp? State.modXp
  rw [cell_modCell _ _ _ _ (by intro c; split <;> rfl)]
  cases s.cell? x.cell with
  | none => simp
  | some c =>
    by_cases h : x.ctx = 0
    · simp [h]
    · simp [h]

/-- The word of the context in execution answers a next state: that of its effect. -/
theorem onXp_next {s : State} {x : Xid} {c : Cell} {p : XpCtx} (g : Xid → Cell → XpCtx → State) (h : s.cur = .xp x)
    (hc : s.cell? x.cell = some c) (hp : s.xp? x = some p) : onXp s g = .next (g x c p) := by simp [onXp, h, hc, hp]

end Sys2Proof.Machine
end

