-- ==== Sys2Proof/Tests/Slice0.lean ====
section
/-! SUPPORT. Tests: words written out from the encoding tables, ill-formed terms, and concrete states that meet the hypotheses of the
statements. -/
namespace Sys2Proof.Tests
open Sys2Proof Sys2Proof.Machine Sys2Proof.Claims
set_option Elab.async false

/-! ## States in which an instruction can run -/

/-- One running cell (number 1) of 192 lane registers, four tiles, a bank and three transfer contexts, thread 0 of squad 0 in execution. -/
def base : State := { (State.reset.withFetchWord 32 0) with issue := [], out := [], cur := .bundle [⟨1, 0, 0⟩] }
def t0 : Tid := ⟨1, 0, 0⟩
/-- A lane register, a uniform register or the squad of thread 0 changed. -/
def onThread (s : State) (f : Thread → Thread) : State := s.modThread t0 f
def onSquad (s : State) (f : Squad → Squad) : State := s.modSquad 1 0 f
def withV (s : State) (xs : List (Nat × Word)) : State := onThread s (fun th => { th with v := xs.foldl (fun l x => l.set x.1 x.2) th.v })
def withK (s : State) (n : Nat) (x : Dword) : State := onSquad s (fun q => { q with k := q.k.set n x })

/-- The conditions of Solo as a check. -/
def soloCheck (s : State) (t : Tid) (F : Form) (c : Cell) (q : Squad) (th : Thread) : Bool :=
  decide (s.cur = .bundle [t]) && decide (s.upsets = []) && decide (t.lane < 32) && canIssue s t
    && q.threads.all (fun x => x.board.isEmpty && x.vres.isEmpty && x.wres.isEmpty && !x.ppar) && q.bind.all (fun x => x == 0) && q.collected.isEmpty
    && c.squads.all (fun x => x.collected.all (fun r => decide (r.cause ≠ .machineCheck))) && q.kres.isEmpty && formOk F && decide (decodeCause F none c q th = none) && !(c.strict && F.collective c.strict)

/-- A check on the cell, squad and thread of a thread. -/
def atThread (s : State) (t : Tid) (P : Cell → Squad → Thread → Bool) : Bool :=
  match s.cell? t.cell with
  | none => false
  | some c =>
    match c.squads[t.squad]? with
    | none => false
    | some q =>
      match q.threads[t.lane]? with
      | none => false
      | some th => P c q th

theorem atThread_spec {s : State} {t : Tid} {P : Cell → Squad → Thread → Bool} (h : atThread s t P = true) :
    ∃ c q th, s.cell? t.cell = some c ∧ c.squads[t.squad]? = some q ∧ q.threads[t.lane]? = some th ∧ P c q th = true := by
  unfold atThread at h
  split at h
  · cases h
  · rename_i c hc
    split at h
    · cases h
    · rename_i q hq
      split at h
      · cases h
      · rename_i th hth
        exact ⟨c, q, th, hc, hq, hth, h⟩

theorem bound_zero {q : Squad} (h : q.bind.all (fun x => x == 0) = true) (n : Nat) : q.bound n = 0 := by
  unfold Squad.bound
  split
  · rw [List.getD_eq_getElem?_getD]
    cases hx : q.bind[n - 176]? with
    | none => rfl
    | some x => simpa using List.all_eq_true.1 h x (List.mem_of_getElem? hx)
  · rfl

/-- Instruction i stands in thread 0 alone, as a lane form, with P of what it reads. -/
def laneWhen (s : State) (i : Instr) (P : Rd → Bool := fun _ => true) : Bool :=
  !(formOf i).uniform && atThread s t0 (fun c q th => soloCheck s t0 (formOf i) c q th && guardHolds (formOf i).guard th
    && P (soloRd s t0 c q th (formOf i)))

/-- What the check shows of the files, the causes and the residues. -/
theorem sound_of {q : Squad} (h : q.threads.all (fun x => x.board.isEmpty && x.vres.isEmpty && x.wres.isEmpty && !x.ppar) = true) :
    (∀ x ∈ q.threads, x.board = []) ∧ ∀ x ∈ q.threads, x.vres = [] ∧ x.wres = [] ∧ x.ppar = false := by
  have h' : ∀ x ∈ q.threads, ((x.board = [] ∧ x.vres = []) ∧ x.wres = []) ∧ x.ppar = false := by simpa using h
  exact ⟨fun x hx => (h' x hx).1.1.1, fun x hx => ⟨(h' x hx).1.1.2, (h' x hx).1.2, (h' x hx).2⟩⟩
theorem nested_of {c : Cell} (h : c.squads.all (fun x => x.collected.all (fun r => decide (r.cause ≠ .machineCheck))) = true) :
    ∀ x ∈ c.squads, ∀ r ∈ x.collected, r.cause ≠ .machineCheck := by simpa using h

theorem solo_of {s : State} {t : Tid} {i : Instr} {c : Cell} {q : Squad} {th : Thread} (hc : s.cell? t.cell = some c)
    (hq : c.squads[t.squad]? = some q) (ht : q.threads[t.lane]? = some th) (h : soloCheck s t (formOf i) c q th = true)
    (hg : guardHolds (formOf i).guard th = true) : Solo s t c q th (formOf i) := by
  simp only [soloCheck, Bool.and_eq_true, decide_eq_true_eq, List.isEmpty_iff, Bool.not_eq_true'] at h
  obtain ⟨⟨⟨⟨⟨⟨⟨⟨⟨⟨⟨h1, h2⟩, h3⟩, h4⟩, h5⟩, h6⟩, h7⟩, h8⟩, h9⟩, h10⟩, h11⟩, h12⟩ := h
  exact ⟨h1, h2, hc, hq, ht, h3, h4, (sound_of h5).1, bound_zero h6, h7, nested_of h8, (sound_of h5).2, h9, h10, h11, hg, h12⟩

/-- What a check of a lane form shows. -/
theorem laneWhen_spec {s : State} {i : Instr} {P : Rd → Bool} (h : laneWhen s i P = true) :
    ∃ c q th, (formOf i).uniform = false ∧ Solo s t0 c q th (formOf i) ∧ P (soloRd s t0 c q th (formOf i)) = true := by
  simp only [laneWhen, Bool.and_eq_true, Bool.not_eq_true'] at h
  obtain ⟨c, q, th, hc, hq, ht, h'⟩ := atThread_spec h.2
  simp only [Bool.and_eq_true] at h'
  exact ⟨c, q, th, h.1, solo_of hc hq ht h'.1.1 h'.1.2, h'.2⟩

/-- The same of a uniform step that thread 0 leads. -/
def stepWhen (s : State) (i : Instr) (P : Rd → Bool := fun _ => true) : Bool :=
  (formOf i).uniform && atThread s t0 (fun c q th => soloCheck s t0 (formOf i) c q th && guardHolds (formOf i).guard th
    && decide (th.ustep = q.ustep) && decide (q.ustep - uMin q < 8) && P (soloRd s t0 c q th (formOf i)))

theorem stepWhen_spec {s : State} {i : Instr} {P : Rd → Bool} (h : stepWhen s i P = true) :
    ∃ c q th, (formOf i).uniform = true ∧ Solo s t0 c q th (formOf i) ∧ Leads q th ∧ P (soloRd s t0 c q th (formOf i)) = true := by
  simp only [stepWhen, Bool.and_eq_true] at h
  obtain ⟨c, q, th, hc, hq, ht, h'⟩ := atThread_spec h.2
  simp only [Bool.and_eq_true, decide_eq_true_eq] at h'
  obtain ⟨⟨⟨⟨h1, h2⟩, h3⟩, h4⟩, h5⟩ := h'
  exact ⟨c, q, th, h.1, solo_of hc hq ht h1 h2, ⟨h3, h4⟩, h5⟩

/-- An instruction of three lane operands, v4 from v8, v10 and v12, by FN; one that writes p4; one of spectral registers; and a uniform one. -/
def e (fn : BitVec 4 := 0) (imm : BitVec 16 := 0) : Ext := ⟨fn, 4, 0, ⟨false, 0⟩, ⟨8, 0, 0⟩, ⟨10, 0, 0⟩, ⟨12, 0, 0⟩, imm, none⟩
def e2 (fn : BitVec 4 := 0) (imm : BitVec 16 := 0) : Ext := { e fn imm with c := ⟨0, 0, 0⟩ }
def e1 (fn : BitVec 4 := 0) (imm : BitVec 16 := 0) : Ext := { e2 fn imm with b := ⟨0, 0, 0⟩ }
def u2 (fn : BitVec 4 := 0) (imm : BitVec 16 := 0) : Ext := ⟨fn, 0xC4, 0, ⟨false, 0⟩, ⟨0xC8, 0, 0⟩, ⟨0xCA, 0, 0⟩, ⟨0, 0, 0⟩, imm, none⟩
def u1 (fn : BitVec 4 := 0) (imm : BitVec 16 := 0) : Ext := { u2 fn imm with b := ⟨0, 0, 0⟩ }
/-- A literal as operand. -/
def litA (x : Dword) (f : Ext) : Ext := { f with a := ⟨0xFF, 0, 0⟩, lit := some x }
def litB (x : Dword) (f : Ext) : Ext := { f with b := ⟨0xFF, 0, 0⟩, lit := some x }

/-! ## Hypotheses of the statements about computation -/

/-- The instruction answers a next state of which P holds. -/
def after (i : Instr) (s : State) (P : State → Bool := fun _ => true) : Bool := match exec i s with
  | .next t => P t
  | _ => false

theorem witness_Integers_32 : [Instr.iadd (e2 2), .isub (e2 6), .imul (e2 0), .imulh (e2 2), .imad (e 0), .imin (e2 2), .imax (e2 0),
    .iabs (e1 2), .ineg (e1 2), .and (e2 0), .or (e2 0), .xor (e2 0), .andn (e2 0), .shl (e2 0), .shr (e2 2), .rol (e2 0), .ror (e2 0),
    .clz (e1 0), .ctz (e1 0), .popc (e1 0), .brev (e1 0), .mov (e1 0)].all (fun i => laneWhen base i) = true := by decide +kernel
theorem witness_Integers_64 : [Instr.iadd (e2 3), .isub (e2 7), .imul (e2 1), .imulh (e2 3), .imad (e 1), .imin (e2 3), .imax (e2 1),
    .iabs (e1 3), .ineg (e1 3), .and (e2 1), .shl (e2 1), .shr (e2 3), .rol (e2 1), .clz (e1 1), .mov (e1 1)].all
    (fun i => laneWhen base i) = true := by decide +kernel
theorem witness_Integers_uniform : [Instr.iadd (u2 1), .isub (u2 1), .imul (u2 1), .and (u2 1), .or (u2 0), .shl (u2 0), .popc (u1 1), .mov (u1 1)].all
    (fun i => stepWhen base i) = true := by decide +kernel

/-! ### Selections, references, base words -/

theorem witness_Selections : [Instr.sel { e 1 with c := ⟨3, 0, 0⟩ }, .sel { e 0 with c := ⟨15, 0, 0⟩ }, .isetp { e2 5 0x0051 with d := 15 }, .isetp { e2 10 0 with d := 0 },
    .plop { e 0 0xE8 with a := ⟨1, 0, 0⟩, b := ⟨2, 0, 0⟩, c := ⟨3, 0, 0⟩ }, .vote { e1 0 with a := ⟨1, 0, 0⟩ }, .vote { e1 3 with a := ⟨0, 0, 0⟩ },
    .vote { e1 4 with a := ⟨1, 0, 0⟩ }, .cvt (e1 0 0x0430), .cvt (e1 0 0x0064), .cvt (e1 0 0x00AD), .pack (e2 0 0x8888), .pack (e2 1), .pack (e2 2),
    .unpack (e1 0 3), .unpack (e1 1 7), .unpack (e1 2 1), .unpack (e1 3)].all (fun i => laneWhen base i) = true := by decide +kernel
theorem witness_BitFields : [Instr.bfx (e2 2), .bfx (e2 3), .bfi (e 0), .bfi (e 1), .bitil (e 0), .bitil (e2 4), .bitdil (e1 0 2), .bitdil (e1 4 1)].all
    (fun i => laneWhen base i) = true := by decide +kernel
/-- The new index and offset within their fields, at their last values, and one beyond. -/
theorem witness_References_made : laneWhen base (.refmk (litA 0xFFFFF (e2 0))) (fun r => (r.x32 ⟨0xFF, 0, 0⟩).toNat < 2 ^ 20) = true
    ∧ laneWhen base (.refmk (litB 0xFFFFFFFFFFF (e2 0))) (fun r => (r.x64 ⟨0xFF, 0, 0⟩).toNat < 2 ^ 44) = true := by decide +kernel
theorem witness_References_refused : laneWhen base (.refmk (litA 0x100000 (e2 0))) (fun r => 2 ^ 20 ≤ (r.x32 ⟨0xFF, 0, 0⟩).toNat) = true
    ∧ laneWhen base (.refmk (litB 0x100000000000 (e2 0))) (fun r => 2 ^ 44 ≤ (r.x64 ⟨0xFF, 0, 0⟩).toNat) = true := by decide +kernel
theorem witness_References_moved :
    laneWhen base (.refadd (litB 0xFFFFFFFFFFF (e2 1))) (fun r => decide (0 ≤ moved (litB 0xFFFFFFFFFFF (e2 1)) r ∧ moved (litB 0xFFFFFFFFFFF (e2 1)) r < 2 ^ 44)) = true
    ∧ laneWhen base (.refadd (litB 0xFFFFFFFF (e2 0))) (fun r => decide (moved (litB 0xFFFFFFFF (e2 0)) r < 0)) = true
    ∧ laneWhen base (.refadd (litB 0x100000000000 (e2 1))) (fun r => decide (2 ^ 44 ≤ moved (litB 0x100000000000 (e2 1)) r)) = true
    ∧ [Instr.refget (e1 0), .refget (e1 1)].all (fun i => laneWhen base i) = true := by decide +kernel

def b2 : Base2 := ⟨4, 8, 10⟩
def bl : BaseLit := ⟨4, 8, 0xFFFFFFFF00000001⟩
theorem witness_BaseWords : [Instr.iaddBase b2, .isubBase b2, .imulBase b2, .andBase b2, .orBase b2, .xorBase b2, .andnBase b2, .shlBase b2, .shrNBase b2,
    .shrSBase b2, .iminSBase b2, .imaxSBase b2, .iminNBase b2, .imaxNBase b2, .rolBase b2, .rorBase b2, .movBase ⟨4, 8⟩, .clzBase ⟨4, 8⟩, .ctzBase ⟨4, 8⟩,
    .popcBase ⟨4, 8⟩, .brevBase ⟨4, 8⟩, .nop].all (fun i => laneWhen base i) = true := by decide +kernel
theorem witness_BaseWords_uniform : [Instr.iaddBase ⟨0xC4, 0xC8, 0xFC⟩, .movBase ⟨0xFB, 0xC0⟩, .iaddBaseImm ⟨0xC4, 0xC8, 0x80⟩, .movi ⟨0xC4, 0x8000⟩,
    .movhi ⟨0xC4, 0x8000⟩].all (fun i => stepWhen base i) = true := by decide +kernel
theorem witness_BaseWords_literal : [Instr.iaddBaseLit bl, .isubBaseLit bl, .imulBaseLit bl, .andBaseLit bl, .orBaseLit bl, .xorBaseLit bl, .andnBaseLit bl,
    .shlBaseLit bl, .shrNBaseLit bl, .shrSBaseLit bl, .iminSBaseLit bl, .imaxSBaseLit bl, .iminNBaseLit bl, .imaxNBaseLit bl, .rolBaseLit bl, .rorBaseLit bl].all
    (fun i => laneWhen base i) = true := by decide +kernel
theorem witness_BaseWords_immediate : [Instr.iaddBaseImm ⟨4, 8, 0xFF⟩, .andBaseImm ⟨4, 8, 0xFF⟩, .orBaseImm ⟨4, 8, 0xFF⟩, .xorBaseImm ⟨4, 8, 0xFF⟩,
    .shlBaseImm ⟨4, 8, 63⟩, .shrNBaseImm ⟨4, 8, 31⟩, .shrSBaseImm ⟨4, 8, 32⟩, .movi ⟨191, 0x8000⟩, .movhi ⟨4, 0x8000⟩].all
    (fun i => laneWhen base i) = true := by decide +kernel

/-! ### Floating point and packets -/

theorem witness_Floats : [Instr.fadd (e2 1), .fsub (e2), .fmul (e2), .ffma (e 3), .fmin (e2), .fmax (e2), .fsetp { e2 8 with d := 0 }, .fsetp { e2 10 with d := 3 },
    .frnd (e1 3), .fclass (e1 2), .ftwosum (e2), .ftwoprod (e2), .fdivR (e2), .fsqrtR (e1), .faddBase b2, .fsubBase b2, .fmulBase b2, .fminBase b2, .fmaxBase b2,
    .faddBaseLit bl, .fsubBaseLit bl, .fmulBaseLit bl, .fminBaseLit bl, .fmaxBaseLit bl].all (fun i => laneWhen base i) = true := by decide +kernel
theorem witness_TranscendentalsAndHalves : [Instr.rcpF (e1), .rcpR (e1), .rsqF (e1), .rsqR (e1), .exp2F (e1), .exp2R (e1), .log2F (e1), .log2R (e1), .sinpiF (e1),
    .sinpiR (e1), .cospiF (e1), .cospiR (e1), .tanhF (e1), .tanhR (e1), .hfma2 (e 1), .hadd2 (e2), .hmul2 (e2), .bfma2 (e)].all
    (fun i => laneWhen base i) = true := by decide +kernel
theorem witness_Packets : [Instr.wadd (e2 3), .wsub (e2), .wmul (e2), .wfma (e 7), .wmin (e2 2), .wmax (e2), .wrcpF (e1), .wrcpR (e1), .wexp2F (e1), .wexp2R (e1),
    .wsel (e), .wmov (e1), .wmov (e1 1), .wext (e1 0 7), .wext (e2 1), .wins (e1 0 7), .wins (e2 1), .wsetp (e2 11), .wsetp { e2 1 1 with d := 0 },
    .wsetp { e2 0 2 with d := 15 }, .wcvt (e1 0 8), .wcvt (e1 1 9), .wcvt (e1 0 0xB), .wlambda (e1), .wsum (e1)].all
    (fun i => laneWhen base i) = true := by decide +kernel
theorem witness_Packets_groups : laneWhen base (.wlambda { e1 1 with d := 62 }) (fun r => decide (63 < r.th.w.length)) = true
    ∧ laneWhen base (.wmueller { e2 with a := ⟨16, 0, 0⟩, b := ⟨8, 0, 0⟩ }) = true := by decide +kernel
/-- FP_EXC: a division by zero with DZ enabled, of zeros with NV. -/
theorem witness_Traps_float : laneWhen (onSquad base (fun q => { q with fptrap := 0x3F })) (.fdivR (e2)) (fun r => decide (r.q.trap = .idle)
    && decide ((float2 (fdivV fp32) (e2) r).flags &&& r.q.fptrap ≠ 0)) = true
  ∧ laneWhen (withV (onSquad base (fun q => { q with fptrap := 0x3F })) [(8, 0x7F7FFFFF), (10, 0x7F7FFFFF)]) (.fadd (e2)) (fun r =>
      decide ((float2 (faddV fp32) (e2) r).flags &&& r.q.fptrap ≠ 0) && decide ((float2 (fmulV fp32) (e2) r).flags &&& r.q.fptrap ≠ 0)) = true
  ∧ laneWhen (withV (onSquad base (fun q => { q with fptrap := 0x3F })) [(8, 0xBF800000)]) (.fsqrtR (e1)) (fun r =>
      decide ((float1 (fun x => fsqrtV fp32 (f32 x)) (e1) r).flags &&& r.q.fptrap ≠ 0)) = true := by decide +kernel

/-! ### Operands, guards, followers -/

/-- Lane patterns at the ends of their ranges: rotation from lane 0, the last lane of a shift, and the first beyond. -/
theorem witness_Operands : laneWhen base (.iadd { e2 with a := ⟨8, 2, 1⟩ }) (fun r => decide ((r.q.threads[31]?).isSome ∧ (r.t.lane + 32 - 1) % 32 = 31)) = true
    ∧ laneWhen base (.iadd { e2 with a := ⟨8, 5, 31⟩ }) (fun r => decide (r.t.lane + 31 ≤ 31 ∧ (r.q.threads[31]?).isSome)) = true
    ∧ atThread base ⟨1, 0, 1⟩ (fun _ q _ => decide (31 < 1 + 31 ∧ q.ring = [])) = true := by decide +kernel
theorem witness_Operands_views :
    (∀ q : Squad, q.ring = [⟨1, 0, [(3, 7)], none⟩] → ∀ th : Thread, th.ustep = 0 → th.ustep < 1 ∧ q.ring = [] ++ [⟨1, 0, [(3, 7)], none⟩])
    ∧ isV 191 = true ∧ isK 0xC0 = true ∧ isK 0xFB = true ∧ isV cZ = false := by
  refine ⟨fun q h th h' => ⟨by omega, h⟩, rfl, rfl, rfl, rfl⟩

/-- The guard p1, false at reset. -/
def offG (f : Ext) : Ext := { f with g := ⟨false, 1⟩ }
def skipWhen (s : State) (i : Instr) : Bool :=
  !(formOf i).uniform && atThread s t0 (fun c q th => soloCheck s t0 (formOf i) c q th && !guardHolds (formOf i).guard th)
theorem skipWhen_spec {s : State} {i : Instr} (h : skipWhen s i = true) :
    ∃ c q th, (formOf i).uniform = false ∧ OffGuard s t0 c q th (formOf i) := by
  simp only [skipWhen, Bool.and_eq_true, Bool.not_eq_true'] at h
  obtain ⟨c, q, th, hc, hq, ht, h'⟩ := atThread_spec h.2
  simp only [soloCheck, Bool.and_eq_true, decide_eq_true_eq, List.isEmpty_iff, Bool.not_eq_true'] at h'
  obtain ⟨⟨⟨⟨⟨⟨⟨⟨⟨⟨⟨⟨h1, h2⟩, h3⟩, h4⟩, h5⟩, h6⟩, h7⟩, h8⟩, -⟩, h10⟩, h11⟩, h12⟩, hg⟩ := h'
  exact ⟨c, q, th, h.1, h1, h2, hc, hq, ht, h3, h4, (sound_of h5).1, bound_zero h6, h7, nested_of h8, (sound_of h5).2, h10, h11, hg, h12⟩
def offM : Mem := ⟨2, 4, 0, ⟨false, 1⟩, ⟨8, 0, 0⟩, ⟨0xFC, 0, 0⟩, 0, 0, 0, 0, none⟩
def offS : Mem := { offM with d := 0, c := 4 }
def offB : Branch := ⟨0, ⟨false, 15⟩, 0, 0, none⟩
theorem witness_GuardsAndFollowers_off : [Instr.iadd (offG (e2)), .isub (offG (e2)), .imul (offG (e2)), .and (offG (e2)), .or (offG (e2)), .shl (offG (e2)),
    .sel (offG { e with c := ⟨3, 0, 0⟩ }), .mov (offG (e1)), .isetp (offG { e2 with d := 3 }), .cvt (offG (e1 0 0x0A4)), .refadd (offG (e2)), .fadd (offG (e2)), .ffma (offG (e)),
    .fdivR (offG (e2)), .wadd (offG (e2)), .wsum (offG (e1)), .exit ⟨0, 0, 0, ⟨true, 0⟩, ⟨0, 0, 0⟩, ⟨0, 0, 0⟩, ⟨0, 0, 0⟩, 0, none⟩,
    .trap ⟨0, 0, 0, ⟨true, 0⟩, ⟨0, 0, 0⟩, ⟨0, 0, 0⟩, ⟨0, 0, 0⟩, 5, none⟩, .ld offM, .st offS, .lds offM, .sts offS, .ldw { offM with fn := 0 }, .stw { offS with fn := 0 },
    .bra offB, .brx { offB with a := 8 }, .call { offB with d := 4 }, .callx { offB with d := 4, a := 8 }].all (fun i => skipWhen base i) = true := by decide +kernel

/-- A squad one uniform step ahead of its thread: the step stood at the thread's instruction, and at another. -/
def ahead (pc : Word) : State := onSquad base (fun q => { q with ustep := 1, ring := [⟨1, pc, [], none⟩] })
def followWhen (s : State) (i : Instr) (P : Squad → Thread → Bool) : Bool :=
  (formOf i).uniform && atThread s t0 (fun c q th => soloCheck s t0 (formOf i) c q th && guardHolds (formOf i).guard th && decide (th.ustep < q.ustep) && P q th)
def kM : Mem := ⟨2, 0xC4, 0, ⟨false, 0⟩, ⟨0xC8, 0, 0⟩, ⟨0xFC, 0, 0⟩, 0, 0, 0, 0, none⟩
def kS : Mem := { kM with d := 0, c := 0xC4 }
def csrI (n : BitVec 16) (fn : BitVec 4 := 0) : Ext := ⟨fn, 0, 0, ⟨false, 0⟩, ⟨0xC2, 0, 0⟩, ⟨0, 0, 0⟩, ⟨0, 0, 0⟩, n, none⟩
def csrR (d : Code) (n : BitVec 16) (fn : BitVec 4 := 0) : Ext := ⟨fn, d, 0, ⟨false, 0⟩, ⟨0, 0, 0⟩, ⟨0, 0, 0⟩, ⟨0, 0, 0⟩, n, none⟩
theorem witness_GuardsAndFollowers_steps : [Instr.iadd (u2 1), .mov (u1 1), .refmk (u2), .csrr (csrR 0xC4 1), .csrw (csrI 2), .clk (csrR 0xC4 0), .uld kM, .ust kS].all (fun i =>
    followWhen (ahead 0) i (fun q th => q.ring.all (fun x => decide (x.num = th.ustep + 1 ∧ x.pc = th.pc)))
    && followWhen (ahead 4) i (fun q th => decide (q.trap = .idle) && q.ring.all (fun x => decide (x.num = th.ustep + 1 ∧ x.pc ≠ th.pc)))) = true := by decide +kernel

/-! #### Bundles of several threads (R333) -/

/-- Instruction i stands in the threads of a bundle, with P of what each reads. -/
def togetherWhen (s : State) (b : List Tid) (i : Instr) (P : Rd → Bool := fun _ => true) : Bool :=
  !(formOf i).uniform && decide (s.cur = .bundle b) && decide (formBundle s b = b) && !b.isEmpty
    && b.all (fun t => atThread { s with cur := .bundle [t] } t (fun c q th => soloCheck { s with cur := .bundle [t] } t (formOf i) c q th && guardHolds (formOf i).guard th)
      && (rdIn s b (formOf i) t).any P)
theorem togetherWhen_spec {s : State} {b : List Tid} {i : Instr} {P : Rd → Bool} (h : togetherWhen s b i P = true) :
    (formOf i).uniform = false ∧ Together s b (formOf i) ∧ ∀ t ∈ b, ∃ r, rdIn s b (formOf i) t = some r ∧ P r = true := by
  simp only [togetherWhen, Bool.and_eq_true, Bool.not_eq_true', decide_eq_true_eq, List.all_eq_true] at h
  obtain ⟨⟨⟨⟨h1, h2⟩, h3⟩, h4⟩, h5⟩ := h
  refine ⟨h1, ⟨h2, h3, by simpa using h4, fun t ht => ?_⟩, fun t ht => by simpa [Option.any_eq_true] using (h5 t ht).2⟩
  obtain ⟨c, q, th, hc, hq, ht', h'⟩ := atThread_spec (h5 t ht).1
  rw [Bool.and_eq_true] at h'
  exact ⟨c, q, th, solo_of hc hq ht' h'.1 h'.2⟩
def pair : List Tid := [⟨1, 0, 0⟩, ⟨1, 0, 1⟩]
def paired (s : State := base) : State := { s with cur := .bundle pair }
theorem witness_GuardsAndFollowers_bundles : [Instr.iadd (e2), .isub (e2), .and (e2), .sel { e with c := ⟨3, 0, 0⟩ }, .isetp { e2 with d := 3 }, .fadd (e2), .fmul (e2), .wadd (e2),
      .vote { e1 0 with d := 3, a := ⟨1, 0, 0⟩ }, .vote { e1 3 with a := ⟨1, 0, 0⟩ }, .iadd { e2 with a := ⟨8, 1, 1⟩ }].all (fun i => togetherWhen paired pair i (fun r => decide (r.q.fptrap = 0))) = true := by decide +kernel
theorem witness_GuardsAndFollowers_squads : oneSquad pair := by unfold oneSquad; decide

/-! #### Queue registers and errors in registers -/

/-- v176 is bound to transfer context 1, which stands in a state and has sent words. -/
def queued176 (st : XState) (l : List Word) : State := onThread (onSquad (base.modCell 1 (fun c => { c with xps := c.xps.set 0 { (c.xps.getD 0 XpCtx.start) with state := st } }))
  (fun q => { q with bind := 1 :: List.replicate 15 0 })) (fun th => { th with queues := l :: th.queues.drop 1 })
def reads176 : Ext := { e2 with a := ⟨176, 0, 0⟩ }
def queueWhen (s : State) (P : Cell → Squad → Thread → Bool) : Bool := let F := formOf (.iadd reads176)
  !F.uniform && decide (s.cur = .bundle [t0]) && decide (s.upsets = []) && canIssue s t0 && formOk F && atThread s t0 (fun c q th => decide (th.state = .ready)
    && q.threads.all (fun x => x.board.isEmpty && x.vres.isEmpty && x.wres.isEmpty && !x.ppar) && decide (q.bound 176 ≠ 0) && decide (q.bind.drop 1 = List.replicate 15 0) && q.collected.isEmpty
    && c.squads.all (fun x => x.collected.isEmpty) && q.kres.isEmpty && decide (decodeCause F none c q th = none) && guardHolds F.guard th && !c.strict && P c q th)
theorem witness_Operands_queues : [(XState.running, [(7 : Word), 8]), (.running, []), (.exited, []), (.killed, []), (.exited, [9])].all (fun y =>
      queueWhen (queued176 y.1 y.2) (fun c q th => decide ((th.queues.getD 0 [] = y.2 ∧ (c.xps[q.bound 176 - 1]?).map XpCtx.state = some y.1 ∧ q.trap = .idle)))) = true
    ∧ after (.iadd reads176) (queued176 .running [7, 8]) (fun t => (t.thread? t0).any (fun th => th.v.getD 4 0 = 7 && th.queues.getD 0 [] = [8])) = true
    ∧ after (.iadd reads176) (queued176 .running []) (fun t => (t.thread? t0).any (fun th => th.state = .stalled && th.wants = [176])) = true
    ∧ after (.iadd reads176) (queued176 .killed []) (fun t => (t.squad? 1 0).any (fun q => decide (q.trap ≠ .idle))) = true := by decide +kernel
/-- Thread 0 with errors in v8 and v10, or in the predicate file. -/
def marred (l : List (Nat × Nat)) (ppar : Bool := false) : State := onThread base (fun th => { th with vres := l, ppar := ppar })
def marredWhen (s : State) (i : Instr) (P : Thread → Bool) : Bool := let F := formOf i
  !F.uniform && decide (s.cur = .bundle [t0]) && decide (s.upsets = []) && canIssue s t0 && formOk F && atThread s t0 (fun c q th => q.threads.all (fun x => x.board.isEmpty)
    && q.bind.all (fun x => x == 0) && q.collected.isEmpty && c.squads.all (fun x => x.collected.isEmpty) && decide (decodeCause F none c q th = none) && !c.strict && P th)
theorem witness_Operands_errors : [[(8, 1)], [(8, 2)]].all (fun l => marredWhen (marred l) (.and e2) (fun th => guardHolds ⟨false, 0⟩ th && decide (errorOf th 8 ≠ 0))) = true
    ∧ marredWhen (marred [] true) (.and { e2 with g := ⟨true, 1⟩ }) (fun th => th.ppar) = true
    ∧ [([(8, 1)], 1), ([(8, 1), (10, 2)], 0), ([(8, 2), (10, 2)], 1)].all (fun y => marredWhen (marred y.1) (.iadd e2) (fun th => decide ((errorOf th 8 + errorOf th 10) % 3 = y.2))) = true
    ∧ laneWhen { base with upsets := [] } (.iadd e2) (fun r => decide (r.q.fptrap = 0)) = true
    ∧ after (.and e2) (marred [(8, 1)]) (fun t => (t.ctx? 0).any (fun c => c.state = .faulted)) = true
    ∧ after (.iadd e2) (marred [(8, 1), (10, 2)]) (fun t => (t.thread? t0).any (fun th => decide (th.state = .ready))) = true
    ∧ after (.iadd e2) { base with upsets := [.residue true] } (fun t => t.upsets.isEmpty && (t.thread? t0).any (fun th => th.pc = 12)) = true := by decide +kernel

/-! ### Sweeps and memory -/

/-- A sweep of three iterations of stride 128 over the cell's scratch, from offsets 0, 4096, 8192 and 12288 of k4, k8, k10 and k12. -/
def sw (sel : BitVec 12 := 0) : Sweep := ⟨0, 0xC4, 0, ⟨false, 0⟩, 0xC8, 0xCA, 0xCC, 3, sel, 128, 128, 128, 128⟩
def swb (sel : BitVec 12 := 0) : Sweep := { sw sel with c := 0, stepC := 0 }
def swa (sel : BitVec 12 := 0) : Sweep := { swb sel with b := 0, stepB := 0 }
def swbase : State := withK (withK (withK base 8 4096) 10 8192) 12 12288
def reachB (r : Rd) (n : Nat) (xs : List (Code × BitVec 16 × Nat)) : Bool :=
  (List.range n).all (fun i => xs.all (fun x => decide (reach r x i % x.2.2 = 0 ∧ 0 ≤ reach r x i ∧ reach r x i + x.2.2 ≤ r.c.shape.scratch)))
def fits (f : Mem) (r : Rd) (n : Nat) : Bool := decide (0 ≤ scratchAt f r ∧ scratchAt f r + n ≤ r.c.shape.scratch ∧ scratchAt f r % n = 0)
theorem witness_Sweeps : laneWhen swbase (.swFadd swb) (fun r => (reachB r 3 [(0xC4, 128, 4), (0xC8, 128, 4), (0xCA, 128, 4)])) = true
    ∧ [Instr.swFmul swb, .swFmax swb, .swFfma sw, .swCopy swa, .swCvt (swa 0xA8), .swSum { swa with d := 4, stepD := 0 }].all (fun i => laneWhen swbase i
        (fun r => (reachB r 3 [(0xC4, 128, 4), (0xC8, 128, 4), (0xCA, 128, 4), (0xCC, 128, 4), (0xC8, 128, 2)]))) = true := by decide +kernel

def m (fn : BitVec 4 := 2) (opt : BitVec 5 := 0) : Mem := ⟨fn, 4, 0, ⟨false, 0⟩, ⟨8, 0, 0⟩, ⟨0xFC, 0, 0⟩, 0, 0, 0, opt, none⟩
def ms (fn : BitVec 4 := 2) (opt : BitVec 5 := 0) : Mem := { m fn opt with d := 0, c := 4 }
/-- Scratch accesses at the last aligned place, beyond it, and misaligned. -/
theorem witness_ScratchAccess : [Instr.lds (m 4), .sts (ms 4)].all (fun i =>
      laneWhen (withV base [(8, 65520)]) i (fun r => fits (m 4) r 16)
      && laneWhen (withV base [(8, 65528)]) i (fun r => decide ((r.c.shape.scratch : Int) < scratchAt (m 4) r + 16 ∧ r.q.trap = .idle))
      && laneWhen (withV base [(8, 8)]) i (fun r => decide (0 ≤ scratchAt (m 4) r ∧ scratchAt (m 4) r + 16 ≤ r.c.shape.scratch ∧ scratchAt (m 4) r % 16 ≠ 0))) = true
    ∧ laneWhen base (.lds { m 2 with disp := 0xFFFC }) (fun r => decide (scratchAt { m 2 with disp := 0xFFFC } r < 0)) = true
    ∧ [Instr.ldw (m 3), .stw (ms 3)].all (fun i => laneWhen (withV base [(8, 65408)]) i (fun r => fits (m 3) r 128)
      && laneWhen (withV base [(8, 65412)]) i (fun r => decide ((r.c.shape.scratch : Int) < scratchAt (m 3) r + 128))) = true := by decide +kernel

/-- The pair v8:v9 names buffer 1 at offset 256, and k8 does. -/
def gbase : State := withK (withV base [(8, 256), (9, 0x1000)]) 8 0x0000100000000100
def goesOk (s : State) (i : Instr) (f : Mem) (need : Need) (n : Nat) (r : Rd) : Bool :=
  match checkRef (atIssue s t0 (formOf i)) r.c.ctx need (r.x64 f.a) (indexed f r) n with
  | .ok a => !a.isRemote && a.blocks.all (fun b => !(inFlightBlocks (atIssue s t0 (formOf i)) t0).contains b) && decide (a.blocks ≠ [])
      && !(r.addrTaint f && consuming (atIssue s t0 (formOf i)) t0)
  | _ => false
def goesBad (s : State) (i : Instr) (f : Mem) (need : Need) (n : Nat) (r : Rd) : Bool :=
  match checkRef (atIssue s t0 (formOf i)) r.c.ctx need (r.x64 f.a) (indexed f r) n with
  | .bad _ _ => decide (r.q.trap = .idle)
  | _ => false
theorem witness_GlobalAccess : [(Instr.ld (m 4), m 4, needLoad, 16), (.ld (m 3 1), m 3 1, needLoadImm, 8), (.ld (m 9 2), m 9 2, needLoadImm, 2), (.ldw (m 1), m 1, needLoad, 128),
      (.ldw (m 0), m 0, needLoad, 32), (.st (ms 4), ms 4, needStore, 16), (.st (ms 0 1), ms 0 1, needStoreImm, 1), (.stw (ms 1), ms 1, needStore, 128)].all
      (fun x => laneWhen gbase x.1 (goesOk gbase x.1 x.2.1 x.2.2.1 x.2.2.2) && laneWhen base x.1 (goesBad base x.1 x.2.1 x.2.2.1 x.2.2.2)) = true
    ∧ [(Instr.uld kM, kM, needLoad), (.ust kS, kS, needStore)].all (fun x => stepWhen gbase x.1 (goesOk gbase x.1 x.2.1 x.2.2 4)
      && stepWhen base x.1 (goesBad base x.1 x.2.1 x.2.2 4)) = true := by decide +kernel

/-- A word of device memory, and an immediate access to it that is on its way. -/
def heldWord (pa : Nat) : Access := ⟨.raw, pa, 4, (List.range 4).map (fun i => (pa + i, .dev (pa + i))), []⟩
def lateAt (id : Nat) (t : Tid) (issue delay pa : Nat) (use : LateUse) : LateAccess := ⟨id, t, issue, delay, heldWord pa, use⟩
def stores1 : LateUse := .store [1, 0, 0, 0]
def loads4 : LateUse := .load 4 false false false
/-- Lane 0 stores to a word and loads another; lane 1 stores to that one and loads the first; both loads are due before both stores. -/
def crossed : State := { (withV base [(4, 9)]).modThread ⟨1, 0, 1⟩ (fun th => { th with v := th.v.set 4 9 }) with
  late := [lateAt 1 t0 10 1 0x1000 stores1, lateAt 2 t0 11 0 0x2000 loads4, lateAt 3 ⟨1, 0, 1⟩ 12 1 0x2000 stores1, lateAt 4 ⟨1, 0, 1⟩ 13 0 0x1000 loads4] }
theorem witness_GlobalAccess_immediate : crossed.late.find? (LateAccess.dueFor t0) = some (lateAt 2 t0 11 0 0x2000 loads4)
    ∧ (crossed.thread? t0).any (fun th => decide (th.state ≠ .exited)) = true
    ∧ [(Instr.ld (m 2), m 2, needLoad), (.ld (m 2 1), m 2 1, needLoadImm), (.st (ms 2), ms 2, needStore), (.st (ms 2 1), ms 2 1, needStoreImm)].all (fun x =>
      laneWhen gbase x.1 (fun r => (match checkRef (atIssue gbase t0 (formOf x.1)) r.c.ctx x.2.2 (r.x64 x.2.1.a) (indexed x.2.1 r) 4 with
        | .ok a =>
          let s : State := { atIssue gbase t0 (formOf x.1) with late := [⟨1, t0, 0, 3, a, stores1⟩] }
          a.blocks.any (inFlightBlocks s t0).contains && after x.1 { gbase with late := s.late } (fun t => t.late.length = 1 && (t.thread? t0).any (fun th => th.state = .stalled))
        | _ => false))) = true
    ∧ laneWhen (onThread gbase (fun th => { th with taint := th.taint.set 8 true })) (.ld (m 2 1)) (fun r => r.addrTaint (m 2 1)
      && consuming { r.s with late := [lateAt 1 t0 10 1 0x40000 (.load 4 false true true)] } t0) = true := by decide +kernel
/-- Each reads the value before the other's store (R440). -/
theorem test_store_buffers : (match exec (.longLatencyRetire t0) crossed with
    | .next s => after (.longLatencyRetire ⟨1, 0, 1⟩) s (fun t => t.late.length = 2 && [t0, ⟨1, 0, 1⟩].all (fun u => (t.thread? u).any (fun th => th.v.getD 4 5 = 0)))
    | _ => false) = true := by decide +kernel
/-- Of one bundle's stores to a word the higher lane's stands (R217). -/
theorem test_late_bundle : after (.longLatencyRetire ⟨1, 0, 1⟩) { base with late := [lateAt 1 t0 10 5 0x1000 (.store [7, 7, 7, 7]), lateAt 2 ⟨1, 0, 1⟩ 10 0 0x1000 stores1] }
    (fun t => t.late.isEmpty && memRead t.mem 0x1000 = 1 && memRead t.mem 0x1001 = 0) = true := by decide +kernel

/-- Each check of an access at the value where it first fails (R215): the last offset, the alignment, the entry, the length, the rights, the page. -/
def gb (b : BtEntry) : State := { base with contexts := base.contexts.map (fun (c : Context) => { c with bt := [(1, b)] }) }
def rightsOnly (b : BtEntry) : Bool := !needStore.right b
theorem witness_AccessChecks : (btEntry? base 0 0 = none) ∧ (∃ b, btEntry? base 0 1 = some b ∧ b.length = 131072 ∧ b.owner = 0 ∧ b.rvalid = false ∧ b.viewOf = .raw
      ∧ needStore.right b = true ∧ base.page? b.ptroot 0 = some ⟨131072, 0, .resident, false, false, 0, 3, 0, none, .resident, false⟩ ∧ base.page? b.ptroot 1 = none
      ∧ (base.page? b.ptroot 0).all (fun g => !portDown base g) = true ∧ base.upsets = [])
    ∧ (∃ b, btEntry? (gb { stageEntry with wr := false }) 0 1 = some b ∧ needStore.right b = false)
    ∧ (∃ b, btEntry? (gb { stageEntry with tol := true }) 0 1 = some b ∧ needStoreImm.home = true ∧ b.viewOf ≠ .raw ∧ needStoreImm.right b = true)
    ∧ (∃ b, btEntry? (gb { stageEntry with owner := 5 }) 0 1 = some b ∧ needLoad.home = false ∧ needLoad.store = false ∧ needLoad.local' = false ∧ b.owner ≠ 0
      ∧ needLoad.right b = true) := by
  refine ⟨by decide +kernel, ⟨_, rfl, ?_⟩, ⟨_, rfl, ?_⟩, ⟨_, rfl, ?_⟩, ⟨_, rfl, ?_⟩⟩ <;> decide +kernel

/-- What refuses an access of a buffer on a peer, by a part of a unit of its view, of another owner's, or over a page that is not there. -/
def gbPages (e : BtEntry) (ps : List PageEntry) (ups : List Upset := []) : State := { gb e with pages := ps, routes := [(3, 0x80)], upsets := ups }
def page0 (n : Nat) (st : PageState := .resident) : PageEntry := ⟨2 ^ 17, n, st, false, false, 2 ^ 17 * n, 3, 0, none, .resident, false⟩
def long : BtEntry := { stageEntry with length := 3 * 2 ^ 17 }
def refusedBy (s : State) (n : Need) (off : Int) (size align : Nat) (k : Cause) (sub' : Nat) : Bool := match checkBuffer s 0 n 1 off size align with
  | .bad k' s' => decide (k' = k ∧ s' = sub')
  | _ => false
theorem witness_AccessChecks_entries : needMonitor.local' = true ∧ needMonitor.right stageEntry = true ∧ needMonitor.home = true ∧ stageEntry.viewOf = .raw
    ∧ refusedBy (gbPages { stageEntry with rvalid := true, peer := 3 } [page0 0]) needMonitor 0 4 4 .refRights 2 = true
    ∧ ({ stageEntry with tol := true } : BtEntry).viewOf = .t16 ∧ needStore.home = false ∧ needStore.store = true ∧ needStore.local' = false
    ∧ refusedBy (gbPages { stageEntry with tol := true } [page0 0]) needStore 4 2 2 .refRights 3 = true ∧ refusedBy (gbPages { stageEntry with tol := true } [page0 0]) needStore 2 4 2 .refRights 3 = true
    ∧ refusedBy (gbPages { stageEntry with view := true } [page0 0]) needStore 4 1 1 .refRights 3 = true
    ∧ [needStore, needStoreImm, needMonitor].all (fun n => refusedBy (gbPages { stageEntry with owner := 5 } [page0 0]) n 0 4 4 .refOwner 0) = true := by decide +kernel
theorem witness_AccessChecks_pages : [(page0 1 .unmapped, Cause.pageUnmapped), (page0 1 .poisoned, .pagePoisoned), (page0 2, .pageUnmapped)].all (fun y =>
      let s := gbPages long [page0 0, y.1]
      decide (pageFault s (2 ^ 17) 0 = none ∧ pageFault s (2 ^ 17) 1 = some y.2) && refusedBy s needLoad (2 ^ 17 - 4) 8 4 y.2 0) = true
    ∧ [PageState.migrating, .brined, .expanding].all (fun st => let s := gbPages long [page0 0, page0 1 st]
      decide (pageFault s (2 ^ 17) 0 = none ∧ pageFault s (2 ^ 17) 1 = none) && !pageWaits s (2 ^ 17) 0 && pageWaits s (2 ^ 17) 1
      && (match checkBuffer s 0 needLoad 1 (2 ^ 17 - 4) 8 4 with
        | .waits r p => decide (r = 2 ^ 17 ∧ p = 1)
        | _ => false)) = true
    ∧ [0, 1].all (fun n => pageFault (gbPages long [page0 0, page0 1]) (2 ^ 17) n = none && !pageWaits (gbPages long [page0 0, page0 1]) (2 ^ 17) n) = true
    ∧ (∀ o ∈ [2 ^ 17 - 8, 2 ^ 17 - 4], storageSpan .raw o 8 = (o, 8)) := by decide +kernel

/-- One byte of device memory as an access. -/
def oneByte : Access := ⟨.raw, 5, 1, [(5, .dev 5)], []⟩
def viewed : State := base.modCell 1 (fun c => { c with view := [(.dev 5, 7)] })
theorem witness_Bytes : Memory.wf [(3, 1), (5, 2)] = true ∧ oneByte.view = .raw ∧ (spots oneByte).Nodup ∧ [(9 : Byte)].length = oneByte.store.length
    ∧ oneByte.size = oneByte.store.length ∧ (∀ l ∈ spots oneByte, ∃ pa, l = .dev pa) ∧ (base.cell? 1).isSome = true ∧ Memory.wf base.mem = true
    ∧ (∀ l ∈ spots oneByte, ∀ k ∈ base.oldWords, k.word ≠ l.key / 4) ∧ (base.cell? 1).all (fun c => Memory.wf c.scratch) = true := by
  refine ⟨by decide, rfl, by decide, rfl, rfl, fun l h => ⟨5, by simpa [spots, oneByte] using h⟩, ?_⟩
  decide +kernel
/-- A write that replaces a word keeps it for phased reads (R439), until each core or sector acquires (R437). -/
theorem witness_OldWords : (let t := writeHome base [(.dev 5, 7)]
      homeWord t (.dev 5) ≠ homeWord base (.dev 5) ∧ t.oldWords.map (fun o => (o.word, o.gone)) = [(1, [])] ∧ (oldFor t 0 (.dev 5)).length = 1
      ∧ oldFor (acquireAt t 0 4) 0 (.dev 5) = [] ∧ (oldFor (acquireAt t 0 4) 24 (.dev 5)).length = 1 ∧ (oldFor (acquireAt t 24 2) 24 (.dev 5)).length = 1
      ∧ oldFor (acquireAt t 0 2) 0 (.dev 5) = []) := by decide +kernel
theorem witness_Publication : (viewed.cell? 1).any (fun c => c.view == [(.dev 5, 7)]) = true ∧ Memory.wf viewed.mem = true := by decide +kernel

/-- A monitor of thread 0, fired or not. -/
def monbase (fired : Bool) (lim : Word := 0) : State := onThread (withV base [(4, lim)]) (fun th => { th with mon := some ⟨4, [], fired, 0, 0, false⟩ })
def mf : Mem := ⟨3, 0, 0, ⟨false, 0⟩, ⟨0, 0, 0⟩, ⟨0, 0, 0⟩, 0, 0, 0, 4, none⟩
def mw : Mem := { mf with fn := 0, d := 4, c := 4, opt := 0 }
def mp : Mem := { ms 0 with c := 0 }
theorem witness_PublicationAndMonitors : laneWhen gbase (.pref mp) (goesOk gbase (.pref mp) mp needLoad 1) = true
    ∧ laneWhen base (.pref mp) (goesBad base (.pref mp) mp needLoad 1) = true
    ∧ laneWhen base (.fence mf) (fun r => !accessesOpen (atIssue base t0 (formOf (.fence mf))) r.t && !publishedOpen (releaseAt (atIssue base t0 (formOf (.fence mf))) 1 2) 1) = true
    ∧ laneWhen gbase (.monarm (m 0)) (goesOk gbase (.monarm (m 0)) (m 0) needMonitor 1) = true ∧ laneWhen base (.monarm (m 0)) (goesBad base (.monarm (m 0)) (m 0) needMonitor 1) = true
    ∧ laneWhen base (.monwait mw) (fun r => decide (r.th.mon = none)) = true
    ∧ laneWhen (monbase true) (.monwait mw) (fun r => r.th.mon.any (·.fired)) = true
    ∧ laneWhen (monbase false) (.monwait mw) (fun r => r.th.mon.any (fun x => !x.fired) && decide (r.x32 (src 4) = 0)) = true
    ∧ laneWhen (monbase false 1) (.monwait mw) (fun r => r.th.mon.any (fun x => !x.fired) && decide (r.x32 (src 4) ≠ 0)) = true := by decide +kernel

/-! ### Control -/

def z0 (imm : BitVec 16 := 0) (fn : BitVec 4 := 0) : Ext := ⟨fn, 0, 0, ⟨false, 0⟩, ⟨0, 0, 0⟩, ⟨0, 0, 0⟩, ⟨0, 0, 0⟩, imm, none⟩
def br (off : BitVec 48) (d a : Code := 0) : Branch := ⟨d, ⟨false, 0⟩, a, off, none⟩
/-- Targets at offset 0, at the last word and beyond either end. -/
theorem witness_ControlFlow : [Instr.braBase ⟨0, false, 0⟩, .callBase ⟨0, false, 0⟩, .bra (br 0), .brx (br 0xFFFFFFFC 0 8), .call (br 0xFFFFFFFC 4), .callx (br 0 0xFC 8),
      .retBase 8, .ret { z0 with a := ⟨8, 0, 0⟩ }].all (fun i => laneWhen base i) = true
    ∧ [Instr.braBase ⟨-1, false, 0⟩, .callBase ⟨-1, false, 0⟩, .bra (br (-4)), .brx (br 0x100000000 0 8), .call (br (-4) 4), .callx (br 0x100000000 4 8)].all
      (fun i => laneWhen base i (fun r => decide (r.q.trap = .idle ∧ r.th.pc = 0 ∧ r.x32 (src 8) = 0))) = true := by decide +kernel
theorem witness_ControlFlow_exit : [Instr.exitBase, .exit z0].all (fun i => laneWhen base i (fun r => decide (r.q.sync = none ∧ r.q.hsync = none ∧ r.q.trap = .idle))) = true := by
  decide +kernel
theorem witness_Traps : laneWhen base (.yield (z0 0x40C0)) (fun r => decide (192 ≤ r.th.v.length ∧ 64 ≤ r.th.w.length ∧ r.c.preq = false)) = true
    ∧ laneWhen (base.modCell 1 (fun c => { c with preq := true })) (.yield z0) (fun r => r.c.preq) = true
    ∧ [Instr.trap (z0 0xFFFF), .brk (z0 1)].all (fun i => laneWhen base i (fun r => decide (r.q.trap = .idle))) = true := by decide +kernel
/-- In the handler with every other thread running, exited, or waiting at its own TRET. -/
def handler (others : Thread → Thread) : State := onSquad base (fun q => { q with
  trap := .active
  threads := q.threads.map (fun th => if th.lane = 0 then { th with inHandler := true } else others { th with inHandler := true }) })
theorem witness_Traps_return : [z0, z0 0 1, { z0 0 2 with a := ⟨8, 0, 0⟩ }].all (fun f =>
      laneWhen (handler id) (.tret f) (fun r => decide (r.q.trap = .active) && (r.q.threads.drop 1).all (fun o => decide (o.state ≠ .exited) && !o.atTret))
      && laneWhen (handler (fun th => { th with state := .exited })) (.tret f) (fun r => decide (r.q.trap = .active) && (r.q.threads.drop 1).all (fun o => decide (o.state = .exited)))
      && laneWhen (handler (fun th => { th with state := .waiting, wait := some (.tret 1 0) })) (.tret f) (fun r => (r.q.threads.drop 1).all Thread.atTret)) = true
    ∧ atThread (handler id) t0 (fun _ q th => decide (q.tqueue.length ≤ 1 ∧ q.pendXp = 0 ∧ th.heldWait = none)) = true := by decide +kernel

theorem witness_ControlRegisters : [Instr.clk (csrR 4 0), .clk (csrR 4 0 1), .ptpnow (csrR 4 0), .ptpnow (csrR 188 0), .csrr (csrR 4 0x001), .csrr (csrR 4 0x020 1), .csrr (csrR 4 0x061)].all
      (fun i => laneWhen base i (fun r => decide (0 ≤ (r.s.clk : Int) + r.s.ptpOffset))) = true
    ∧ [Instr.clk (csrR 0xC4 0), .clk (csrR 0xC4 0 1), .ptpnow (csrR 0xFA 0), .csrr (csrR 0xC4 0x043)].all (fun i => stepWhen base i) = true
    ∧ [(0x001 : BitVec 16), 0x002, 0x010, 0x011, 0x012, 0x020, 0x021].all (fun n => stepWhen base (.csrw (csrI n)) && stepWhen base (.csrw (csrI n 1))
      && stepWhen base (.csrw (csrI n 2)) && decide (csrOf (csrI n) = n.toNat)) = true
    ∧ atThread base t0 (fun c q _ => decide (c.id ≠ 0) && (base.cell? c.id).isSome && (base.ctx? c.ctx).isSome && (base.core? c.core).isSome && q.ring.isEmpty) = true := by
  decide +kernel

/-! ### The barrier -/

/-- Slot 1 of the cell, its last, changed. -/
def slotted (f : Slot → Slot) : State := modSlot (withV base [(8, 1), (10, 65535)]) 1 1 f
def armed : State := slotted (fun x => { x with state := .armed, expect := 2 })
def atSlot (f : Ext) (P : Slot → Bool) (r : Rd) : Bool := decide ((r.x32 f.a).toNat = 1) && (r.c.slots[1]?).any P
theorem witness_Barriers_init : laneWhen (slotted id) (.barinit { e2 with d := 0 }) (fun r => atSlot (e2) (fun x => decide (x.state ≠ .completing ∧ x.waitmap = [] ∧ x.xwait = [] ∧ x.pending = 0)) r
      && decide ((r.x32 ⟨10, 0, 0⟩).toNat = 65535)) = true
    ∧ laneWhen (withV base [(8, 64)]) (.barinit { e2 with d := 0 }) (fun r => decide ((r.x32 ⟨8, 0, 0⟩).toNat = 64 ∧ r.q.trap = .idle)) = true := by decide +kernel
def arv (fn : BitVec 4 := 0) : Ext := { e1 fn with d := 3 }
theorem witness_Barriers_arrive : laneWhen armed (.bararv (arv)) (atSlot (arv) (fun x => decide (x.state = .armed ∧ x.arrived ≠ x.expect))) = true
    ∧ laneWhen armed (.bararv { arv 1 with b := ⟨10, 0, 0⟩ }) (atSlot (arv) (fun x => decide (x.pending + 65535 ≤ 2 ^ 47 - 1))) = true
    ∧ laneWhen armed (.bararv { arv 2 with b := ⟨12, 0, 0⟩ }) (atSlot (arv) (fun x => decide ((-2 ^ 47 : Int) ≤ x.pending))) = true
    ∧ laneWhen (slotted id) (.bararv (arv)) (fun r => atSlot (arv) (fun x => decide (x.state = .free)) r && decide (r.q.trap = .idle)) = true := by decide +kernel
/-- BARWAIT's closer, token and status predicates p2, p3 and p4. -/
def bw (fn : BitVec 4 := 0) : Ext := { e1 fn with d := 2, b := ⟨3, 0, 0⟩, c := ⟨4, 0, 0⟩ }
def bt : Ext := { e1 with d := 2, b := ⟨3, 0, 0⟩ }
def strictly (s : State) : State := s.modCell 1 (fun c => { c with strict := true })
theorem witness_Barriers_wait : [bw, bw 1].all (fun f => laneWhen armed (.barwait f) (fun r => atSlot f (fun x => decide (x.state ≠ .free ∧ x.pbit = r.th.pred 3)) r)
      && laneWhen (slotted (fun x => { x with state := .completing, pbit := true })) (.barwait f) (fun r => atSlot f (fun x => decide (x.pbit ≠ r.th.pred 3)) r)) = true
    ∧ laneWhen armed (.bartest bt) (fun r => decide (r.c.strict = false)) = true
    ∧ laneWhen (strictly armed) (.bartest bt) (fun r => atSlot bt (fun x => decide (x.pbit = r.th.pred 3 ∧ r.c.strict = true)) r) = true
    ∧ laneWhen (slotted id) (.barinv { e1 with d := 0 }) (atSlot (e1) (fun x => decide (x.state = .free))) = true
    ∧ laneWhen armed (.barinv { e1 with d := 0 }) (atSlot (e1) (fun x => decide (x.state = .armed))) = true
    ∧ [e1 0, e1 1].all (fun f => laneWhen armed (.barqry f) (atSlot (e1) (fun _ => true))) = true := by decide +kernel
/-- An arrival and a BARINV that meet a slot at COMPLETING, and no access of the thread open. -/
theorem witness_Barriers_held : (let s := slotted (fun x => { x with state := .completing, expect := 2 })
    laneWhen s (.bararv (arv)) (fun r => atSlot (arv) (fun x => decide (x.state = .completing)) r && !accessesOpen (atIssue s t0 (formOf (.bararv (arv)))) t0)
    && laneWhen s (.barinv { e1 with d := 0 }) (atSlot (e1) (fun x => decide (x.state = .completing)))
    && after (.bararv (arv)) s (fun t => (t.thread? t0).any (fun th => decide (th.wait = some (.held 1 3))))) = true
    ∧ accessesOpen (atIssue armed t0 (formOf (.bararv (arv)))) t0 = false := by decide +kernel
theorem witness_Barriers_completion : [(2, 1, (0 : Int)), (2, 0, 0), (2, 1, 5)].all (fun x =>
    (armed.cell? 1).any (fun c => (c.slots[1]?).any (fun y => decide ({ y with expect := x.1, arrived := x.2.1 }.state = .armed ∧ x.2.1 < x.1)))) = true := by decide +kernel
theorem witness_Waits : laneWhen (withV base [(8, 1)]) (.sync { e1 with d := 0 }) (fun r => decide (r.q.sync = none ∧ r.x32 (src 8) = 1#32 <<< r.t.lane)) = true
    ∧ laneWhen (withV base [(8, 0xFFFFFFFF)]) (.sync { e1 with d := 0 }) (fun r => decide ((r.x32 (src 8)).getLsbD r.t.lane = true ∧ r.x32 (src 8) ≠ 1#32 <<< r.t.lane)
      && decide (r.q.threads.length = 32) && r.q.threads.all (fun o => decide (o.state ≠ .exited))) = true
    ∧ laneWhen (withV base [(8, 2)]) (.sync { e1 with d := 0 }) (fun r => decide (r.q.trap = .idle ∧ r.q.sync = none ∧ (r.x32 (src 8)).getLsbD r.t.lane = false)) = true
    ∧ laneWhen base (.phase { z0 with d := 15 }) = true := by decide +kernel

/-! ### Atomics -/

def at' (fn : BitVec 4 := 0) (opt : BitVec 5 := 4) : Mem := { m fn opt with d := 4, c := 12 }
def rd' (fn : BitVec 4 := 0) (opt : BitVec 5 := 4) : Mem := { at' fn opt with d := 0 }
theorem witness_Atomics : [(Instr.atom (at'), at', 4), (.atom (at' 9), at' 9, 4), (.cas (at' 0 5), at' 0 5, 8), (.red (rd' 7 2), rd' 7 2, 4), (.red (rd' 8 8), rd' 8 8, 4)].all (fun x =>
      laneWhen gbase x.1 (fun r => goesOk gbase x.1 x.2.1 needAtomic x.2.2 r && decide (r.c.strict = false))
      && laneWhen base x.1 (fun r => goesBad base x.1 x.2.1 needAtomic x.2.2 r && decide (r.c.strict = false))) = true
    ∧ laneWhen (strictly gbase) (.red (rd' 7 4)) (fun r => goesOk (strictly gbase) (.red (rd' 7 4)) (rd' 7 4) needAtomic 4 r && r.c.strict) = true
    ∧ [Instr.atom (at'), .cas (at')].all (fun i => laneWhen (strictly gbase) i (fun r => decide (r.q.trap = .idle ∧ r.c.strict = true ∧ 1 < atomScope (at')))) = true := by decide +kernel
/-- A request at its last point, within its window or past it, and at its home; and a reply to two threads and to one. -/
def leaf0 : AtomTree := .leaf 9 (.thread t0 (some 4) 0 false []) 1
def rq (path : List Point) : AtomReq := ⟨9, 0, 0, false, .dev 256, none, 1, 0, path, 0, [], leaf0⟩
def flying (path : List Point) (combwin : Nat := 0) (tree : AtomTree := leaf0) : State :=
  { base.modCtx 0 (fun c => { c with combwin := combwin }) with clk := 100, reqs := [rq path], replies := [⟨9, 0, false, .dev 256, 5, tree⟩] }
theorem witness_Atomics_events : [[], [Point.lsu 0], [.port 0 0]].all (fun l => (flying l).reqs.find? (fun x => x.id == 9) == some (rq l)) = true
    ∧ windowOfPoint (flying [.lsu 0] 100) 0 [.lsu 0] = 100 ∧ windowOfPoint (flying [.lsu 0] 101) 0 [.lsu 0] = 101
    ∧ [leaf0, .node (.lsu 0) leaf0 (.leaf 8 (.thread ⟨1, 0, 31⟩ none 0 false []) 1)].all (fun t => ((flying [] 0 t).replies.find? (fun x => x.id == 9)).map (·.tree) == some t) = true
    ∧ ((flying []).thread? t0).any (fun th => decide (th.state ≠ .exited ∧ th.wait ≠ some (.remote 9))) = true ∧ isV 4 = true
    ∧ after (.replySplit 9) (flying []) (fun t => (t.thread? t0).any (fun th => th.v.getD 4 0 = 5)) = true
    ∧ after (.combineTimeout 9) (flying [.lsu 0] 100) (fun t => t.reqs.map (·.path) = [[]]) = true := by decide +kernel
/-- ATOMB under a guard that holds. -/
def batchM : Mem := { at' 0 0 with g := ⟨false, 1⟩, b := ⟨10, 0, 0⟩ }
def p1base : State := onThread gbase (fun th => { th with p := 2 })
theorem witness_Batches : laneWhen p1base (.atomb batchM) (fun r => match checkRef (atIssue p1base t0 (formOf (.atomb batchM))) r.c.ctx needHomeAtomic (r.x64 batchM.a) 0 4 with
      | .ok a => !a.isRemote && (a.store.head?).isSome
      | _ => false) = true
    ∧ laneWhen gbase (.filmadd (rd' 0 0)) (fun r => goesOk gbase (.filmadd (rd' 0 0)) (rd' 0 0) needHomeAtomic 8 r && decide (r.c.strict = false ∧ r.s.owners = [])) = true
    ∧ laneWhen (strictly gbase) (.filmadd (rd' 0 0)) (fun r => goesOk (strictly gbase) (.filmadd (rd' 0 0)) (rd' 0 0) needHomeAtomic 8 r) = true := by decide +kernel

/-! ### Textures, traversal, the matrix array -/

/-- A texture of one texel of one FP32 element, its descriptor at offset 256 and its element at offset 1024 of buffer 1; a header of tables at
offsets 512 and 768 with steps of 1.0, the first of two entries. -/
def texBytes : List Byte := leBytes 8 0x0000100000000400 ++ leBytes 12 0 ++ leBytes 4 0x3F800000 ++ leBytes 4 4 ++ leBytes 36 0
def tabBytes : List Byte := leBytes 4 0 ++ leBytes 4 0x3F800000 ++ leBytes 4 2 ++ leBytes 52 0
def texbase : State := { withV gbase [(10, 0), (16, 768), (17, 0x1000)] with
  mem := memWriteL (memWriteL (memWriteL gbase.mem 256 texBytes) 512 tabBytes) 768 (leBytes 4 0 ++ leBytes 4 0x3F800000 ++ leBytes 56 0) }
def looks {α : Type} (m : TabM α) (s : State) : Bool := match m s with
  | .ok _ => true
  | .error _ => false
def tex (imm : BitVec 16 := 0) : Ext := { e 0 imm with b := ⟨20, 0, 0⟩, c := ⟨0, 0, 0⟩ }
theorem witness_Tables : laneWhen texbase (.samplew (tex)) (fun r => match readTexture r (r.refTaint (tex).a) (r.x64 (tex).a) (atIssue texbase t0 (formOf (.samplew (tex)))) with
      | .ok (tx, s1) => looks ((List.range 8).mapM (fun j =>
        let sl := rneMul (rneSub ((r.packet (tex).c 0).getD j 0).toNat tx.lambda0).1 tx.rdlambda
        filterTexture tx (coord (tex) r 0) (coord (tex) r 1) (coord (tex) r 2) (coord (tex) r 3) (fun m x y z =>
          lerpAxis (axisPos (tb tx.filter 3) (clampDy sl.1 (-(2 ^ 24)) (2 ^ 24))) (tx.amode / 64 % 4) tx.nl
            (fun l => readTexel r (r.refTaint (tex).a) tx m x y z l)))) s1
      | .error _ => false) = true
    ∧ laneWhen texbase (.sample (tex)) (fun r => match readTexture r (r.refTaint (tex).a) (r.x64 (tex).a) (atIssue texbase t0 (formOf (.sample (tex)))) with
      | .ok (tx, s1) => looks ((List.range 4).mapM (fun k => if k ≥ tx.nl then (pure 0 : TabM Nat) else
        filterTexture tx (coord (tex) r 0) (coord (tex) r 1) (coord (tex) r 2) (coord (tex) r 3) (fun m x y z => readTexel r (r.refTaint (tex).a) tx m x y z k))) s1
      | .error _ => false) = true := by decide +kernel
/-- TEXLD at the texture's one texel and one place beyond it, in x. -/
theorem witness_Tables_texld : [(texbase, true), (withV texbase [(20, 1)], false)].all (fun y =>
    laneWhen y.1 (.texld (tex)) (fun r => match readTexture r (r.refTaint (tex).a) (r.x64 (tex).a) (atIssue y.1 t0 (formOf (.texld (tex)))) with
      | .ok (tx, s1) => decide ((coord (tex) r 3 < tx.mips ∧ coord (tex) r 2 < tx.layers ∧ coord (tex) r 0 < tx.wAt (coord (tex) r 3) ∧ coord (tex) r 1 < tx.hAt (coord (tex) r 3)) ↔ y.2 = true)
        && looks (readTexel r (r.refTaint (tex).a) tx 0 0 0 0 0) s1
      | .error _ => false)) = true := by decide +kernel
def spu : Ext := { tex with a := ⟨20, 0, 0⟩, b := ⟨16, 0, 0⟩ }
def specCoef (f : Ext) (r : Rd) (k : Nat) : TabM Nat :=
  let pos (i : Nat) : AxisPos := axisPos true (clampDy (rneMul (r.vreg f.a i).toNat 0x427C0000).1 0 63)
  lerpAxis (pos 2) 0 64 (fun ib => lerpAxis (pos 1) 0 64 (fun ig => lerpAxis (pos 0) 0 64 (fun ir => do
    let b ← tabRead r (r.refTaint f.b) (r.x64 f.b) (64 + 16 * ((ib * 64 + ig) * 64 + ir) + 4 * k : Nat) 4 4
    pure (leNat b))))
theorem witness_Tables_specup : laneWhen texbase (.specup spu) (fun r => match tabRead r (r.refTaint spu.b) (r.x64 spu.b) 0 64 64 (atIssue texbase t0 (formOf (.specup spu))) with
      | .ok (hd, s1) => positiveF (byteField hd 4 4) && decide (byteField hd 8 56 = 0) && [0, 1, 2].all (fun k => looks (specCoef spu r k) s1)
      | .error _ => false) = true
    ∧ [Instr.samplew (tex), .sample (tex), .texld (tex)].all (fun i => laneWhen gbase i (fun r => decide (r.q.trap = .idle)
      && match tabRead r (r.refTaint (tex).a) (r.x64 (tex).a) 0 64 64 (atIssue gbase t0 (formOf i)) with
      | .ok (b, _) => (match parseTexture b with
        | .error sub => decide (sub = 5)
        | .ok _ => false)
      | .error _ => false)) = true := by decide +kernel
def xyz : Ext := { e with c := ⟨0, 0, 0⟩, b := ⟨4, 0, 0⟩ }
def ciebase : State := onSquad texbase (fun q => { q with cietab := 0x0000100000000200 })
theorem witness_Tables_wxyz : laneWhen ciebase (.wxyz xyz) (fun r => match tabRead r false (readOldCsr r.q r.th 0x021 r.q.cietab) 0 64 64 (atIssue ciebase t0 (formOf (.wxyz xyz))) with
      | .ok (hd, s1) => positiveF (byteField hd 4 4) && decide (byteField hd 8 4 = 2 ∧ byteField hd 12 52 = 0)
        && looks ((List.range 8).mapM (fun j => cmfAt r (readOldCsr r.q r.th 0x021 r.q.cietab) (byteField hd 0 4) (byteField hd 4 4) (byteField hd 8 4) ((r.packet xyz.c 0).getD j 0).toNat)) s1
      | .error _ => false) = true := by decide +kernel

/-- A record at offset 128 of the scratch, over a hierarchy of an empty root at offset 2048 of buffer 1. -/
def rec0 (state depth : Nat) (flags : Nat := 0) : TraceRec := ⟨[0, 0, 0], [0x3F800000, 0, 0], 0, 0x7F800000, 0x0000100000000800, 0xFF, flags, depth, state, 0, 0, 0, 0, 0,
  0x40000000 :: List.replicate 15 0⟩
def trbase (x : TraceRec) : State := (withV base [(8, 128)]).modCell 1 (fun c => { c with scratch := memWriteL [] 128 x.toBytes })
def recIs (x : TraceRec) (r : Rd) : Bool := decide ((r.x32 (src 8)).toNat = 128 ∧ 128 + 128 ≤ r.c.shape.scratch) && decide (TraceRec.ofBytes (scratchRead r.s r.t.cell 128 128) = x)
theorem witness_Traversal : laneWhen (trbase (rec0 0 0)) (.trace (e1)) (fun r => recIs (rec0 0 0) r && decide (recCheck (rec0 0 0) false = none)) = true
    ∧ laneWhen (trbase (rec0 1 1)) (.trace (e1)) (fun r => recIs (rec0 1 1) r && decide (recCheck (rec0 1 1) false = none)) = true
    ∧ [rec0 2 1, rec0 3 0 128].all (fun x => laneWhen (trbase x) (.trace (e1)) (fun r => recIs x r && decide (recCheck x false = none ∧ 2 ≤ x.state))) = true
    ∧ [e1 0, e1 1].all (fun f => laneWhen (trbase (rec0 2 1)) (.trget f) (recIs (rec0 2 1))) = true := by decide +kernel
def trc (fn : BitVec 4) : Ext := if fn = 1 then { e2 1 with c := ⟨12, 0, 0⟩ } else e1 0
theorem witness_Traversal_continued : [trc 0, trc 1].all (fun f => laneWhen (trbase (rec0 2 1)) (.trcont f) (fun r => recIs (rec0 2 1) r && decide (recCheck (rec0 2 1) true = none))) = true
    ∧ [Instr.trace (e1), .trcont (trc 0), .trget (e1)].all (fun i => laneWhen (withV base [(8, 129)]) i (fun r => decide ((r.x32 (src 8)).toNat % 128 ≠ 0 ∧ r.q.trap = .idle))
      && laneWhen (withV base [(8, 65536)]) i (fun r => decide ((r.x32 (src 8)).toNat % 128 = 0 ∧ r.c.shape.scratch < (r.x32 (src 8)).toNat + 128))) = true := by decide +kernel

/-- Thread 0 held by its walk: at rest, at its limit, and running over the empty root. -/
def walking (x : TraceRec) (steps limit : Nat) : State := onThread (trbase x) (fun th => { th with state := .stalled, wait := some .walk, npc := 12, walk := some ⟨128, x, steps, limit, 4, false, []⟩ })
def walks (s : State) (P : Tid → Cell → Squad → Thread → Bool := fun _ _ _ _ => true) : Bool := atThread s t0 (fun c q th =>
  decide (th.wait = some .walk ∧ th.state = .stalled ∧ c.resident = true ∧ ctxLive s c.ctx = true) && s.late.isEmpty && th.board.all (fun o => decide (o.awaits ≠ .unit)) && P t0 c q th)
theorem witness_Traversal_walk : [walking (rec0 2 1) 3 0, walking (rec0 3 0 128) 3 0, walking (rec0 1 1) 5 5].all (fun s => walks s
      && after (.longLatencyRetire t0) s (fun t => (t.thread? t0).any (fun th => th.walk.isNone && th.pc = 12 && decide (th.state = .ready)))) = true
    ∧ [walking (rec0 1 1) 4 5, walking (rec0 1 1) 4 0].all (fun s => walks s (fun t c q th => match traceStep ⟨s, t, th, q, c, none, [], [], []⟩ (rec0 1 1) s with
      | .ok (.done x, _) => x.state = 3
      | _ => false)) = true := by decide +kernel

/-! ### The matrix array -/

/-- Tile 3, panel 127, and rows from scratch offsets of k8 and k12; a cell whose panel 127 is loaded. -/
def mx (imm : BitVec 16) : Ext := ⟨0, 3, 0, ⟨false, 0⟩, ⟨0xC8, 0, 0⟩, ⟨127, 0, 0⟩, ⟨0xCC, 0, 0⟩, imm, none⟩
def mxBuild (imm : BitVec 16) : Ext := { mx imm with d := 127, b := ⟨0xCC, 0, 0⟩, c := ⟨0, 0, 0⟩ }
def mxPlain (fn : BitVec 4) (imm : BitVec 16) (a b : Code) : Ext := { mx imm with fn := fn, a := ⟨a, 0, 0⟩, b := ⟨b, 0, 0⟩, c := ⟨0, 0, 0⟩ }
def mxSt (imm : BitVec 16) : Ext := { mx imm with d := 0, a := ⟨3, 0, 0⟩, b := ⟨0xC8, 0, 0⟩ }
def mxRd (fn : BitVec 4) (imm : BitVec 16) : Ext := { mxPlain fn imm 3 0 with d := 4 }
def panelled (fmt gsz : Nat) : State := base.modCell 1 (fun c => { c with panelIssue := [(127, ⟨true, fmt, gsz⟩)] })
def mxOk (s : State) (c : Cell) (op : ArrayOp) : Bool :=
  !c.strict && decide (mxScratch c op = none ∧ mxIssue c op = none) && decide (((s.core? c.core).map (fun k => k.array.length)).getD 0 < 16)
def mxmOp (f : Ext) (fmt : Nat) (r : Rd) : ArrayOp :=
  .mxm fmt f.d.toNat f.b.code.toNat (r.x64 f.a).toNat (r.x64 f.c).toNat (f.imm.toNat % 32) (f.imm.getLsbD 5)
    (if scaleRegs r.c fmt f = [] then [] else (List.range 32).map (laneScales r.q (scaleRegs r.c fmt f)))
theorem witness_Matrix_mxm : [(Instr.mxmE4m3 (mx 24), mx 24, 0), (.mxmE5m2 (mx 1), mx 1, 1), (.mxmE2m1 (mx 1), mx 1, 2), (.mxmI8g (mx (64 * 176 + 4)), mx (64 * 176 + 4), 3),
      (.mxmI4g (mx (64 * 20 + 4)), mx (64 * 20 + 4), 4), (.mxmBf16 (mx 1), mx 1, 5), (.mxmF16 (mx 24), mx 24, 6)].all (fun y => laneWhen (panelled y.2.2 0) y.1 (fun r =>
      (scaleRegs r.c y.2.2 y.2.1).all (fun n => decide (n < 192 ∧ n < r.th.v.length)) && mxOk (panelled y.2.2 0) r.c (mxmOp y.2.1 y.2.2 r))) = true := by decide +kernel
theorem witness_Matrix_others : laneWhen base (.mxbld (mxBuild 3)) (fun r => mxOk base r.c (.mxbld 127 (r.x64 (src 0xC8)).toNat (r.x64 (src 0xCC)).toNat 3 0))
    ∧ laneWhen (panelled 6 0) (.mxmv (mxPlain 0 4 16 127)) (fun r => mxOk (panelled 6 0) r.c (.mxmv 6 3 127 4 [(0, laneRow r.q t0 16 16)]))
    ∧ laneWhen base (.mxz { mxPlain 1 0 0 0 with d := 3 }) (fun r => mxOk base r.c (.mxz 3 true))
    ∧ laneWhen base (.mxrd (mxRd 0 63)) (fun r => mxOk base r.c (.mxrd 0 3 63 0 false 4 [t0]))
    ∧ laneWhen base (.mxwr (mxPlain 0 (64 * 15) 16 0)) (fun r => mxOk base r.c (.mxwr 0 3 0 [(0, laneRow r.q t0 16 16)]))
    ∧ laneWhen base (.mxst (mxSt 1024)) (fun r => mxOk base r.c (.mxst 0 3 0 0 true))
    ∧ laneWhen base (.mxqry { mxPlain 0 0 0 0 with d := 4 }) ∧ laneWhen base (.mxqry (mxRd 1 0)) (fun r => mxOk base r.c (.mxqry 3 4 [t0]))
    ∧ laneWhen base (.mxqry { mxRd 2 0 with a := ⟨127, 0, 0⟩ }) := by decide +kernel
theorem witness_Matrix_traps : laneWhen base (.mxmBf16 (mx 1)) (fun r => decide (r.q.trap = .idle ∧ mxScratch r.c (mxmOp (mx 1) 5 r) = none ∧ mxIssue r.c (mxmOp (mx 1) 5 r) = some 3))
    ∧ laneWhen base (.mxst { mxSt 0 with fn := 3 }) (fun r => decide (r.q.trap = .idle ∧ mxScratch r.c (.mxst 3 3 0 0 false) = none ∧ mxIssue r.c (.mxst 3 3 0 0 false) = some 5)) := by
  decide +kernel
/-- Core 0 with an operation in its array queue: MXZ of tile 3, and MXST of it, begun or not. -/
def queued (op : ArrayOp) (begun : Bool) : State := base.modCore 0 (fun k => { k with array := [⟨1, 1, op, begun, []⟩], mxidle := 5 })
theorem witness_Matrix_events : [(ArrayOp.mxz 3 true, false), (.mxst 0 3 0 256 false, true), (.mxst 0 3 0 256 false, false), (.mxmv 6 3 127 4 [], false)].all (fun y =>
      ((queued y.1 y.2).core? 0).any (fun k => decide (k.id = 0 ∧ k.array = [⟨1, 1, y.1, y.2, []⟩])) && ((queued y.1 y.2).cell? 1).any (fun c => c.tiles.length = 4)) = true
    ∧ (ArrayOp.mxst 0 3 0 256 false).scratchy = true ∧ (ArrayOp.mxz 3 true).scratchy = false
    ∧ (({ queued (.mxz 3 true) false with clk := 5 } : State).core? 0).map (fun k => decide (k.mxidle ≠ 0 ∧ k.mxidle ≤ 5 - k.usedAt)) = some true
    ∧ after (.arrayOpPerform 0) (queued (.mxz 3 true) false) (fun t => (t.core? 0).any (fun k => k.array.isEmpty)) = true := by decide +kernel

/-! ### The transfer processor -/

/-- XP1 of the cell in execution; and with registers, generators and loops of its own. -/
def xbase : State := { base with cur := .xp ⟨1, 1⟩ }
def x1 : Xid := ⟨1, 1⟩
def withX (s : State) (f : XpCtx → XpCtx) : State := s.modXp x1 f
/-- A check on the context in execution and its cell. -/
def onXp1 (s : State) (P : Cell → XpCtx → Bool := fun _ _ => true) : Bool :=
  decide (s.cur = .xp x1) && match s.cell? 1, s.xp? x1 with
  | some c, some p => P c p
  | _, _ => false
def after1 (i : Instr) (s : State) (P : XpCtx → Bool := fun _ => true) : Bool := after i s (fun t => ((t.xp? x1).map P).getD false)
/-- A transfer word of D, A, B and IMM. -/
def xw (d a b : BitVec 5 := 0) (imm : Word := 0) (fl : BitVec 3 := 0) : Xp := ⟨d, a, b, 0, 1, fl, imm⟩
def loops1 (count : Dword) (n : Nat) : State := withX xbase (fun p => { p with x := p.x.set 2 1, loops := List.replicate n ⟨count, 1, 4⟩ })
theorem witness_TransferScalars : onXp1 xbase = true ∧ [Instr.xnop (xw), .xli (xw 1 0 0 0x80000000), .xli (xw 1 0 0 1 1), .xadd (xw 3 1 2), .xaddi (xw 31 1 0 0xFFFFFFFF), .xsub (xw 3 0 2),
    .xmul (xw 3 1 2), .xand (xw 3 1 2), .xior (xw 3 1 2), .xxor (xw 3 1 2), .xshl (xw 3 1 2), .xshr (xw 3 1 2 0 1)].all (fun i => after1 i (loops1 1 0) (fun p => p.xpc = 1)) = true := by
  decide +kernel
/-- Branches taken to word 2, not taken, and out of the code. -/
theorem witness_TransferControl : [xw 0 2 1 2, xw 0 2 1 0xFFFFFFFF].all (fun f => onXp1 (loops1 1 0) (fun _ p => xa f p ≠ xb f p)) = true
    ∧ onXp1 xbase (fun c p => decide (codeWords xbase c = 16384 ∧ p.xpc = 0 ∧ xa (xw 0 2 1) p = xb (xw 0 2 1) p)) = true
    ∧ onXp1 xbase (fun _ p => xa (xw 0 2) p = 0) = true ∧ onXp1 (loops1 1 4) (fun _ p => decide (xa (xw 0 2) p ≠ 0 ∧ 4 ≤ p.loops.length)) = true
    ∧ [0x10, 0x11].all (fun b => let s := { loops1 1 3 with mem := [(32, b)] }
        onXp1 s (fun c p => xa (xw 0 2 0 4) p ≠ 0 && p.loops.length < 4 && match codeBytes s (.xp x1) c.kernel c.ctx c.code (8 * 4) 8 with
          | (.ok _, l) => l.getD 0 0 = b
          | _ => false)) = true
    ∧ onXp1 xbase (fun _ p => p.loops.isEmpty) = true ∧ [1, 2].all (fun n => onXp1 (loops1 n 2) (fun _ p => p.loops.map (·.count) = [n, n])) = true
    ∧ onXp1 xbase (fun _ p => p.pendmx.isEmpty) = true ∧ onXp1 (withX xbase (fun p => { p with pendmx := [⟨.mxz 0 false, 0, none⟩] })) (fun _ p => !p.pendmx.isEmpty) = true
    ∧ onXp1 xbase (fun c _ => (xbase.kernel? c.kernel).all (fun k => !k.xpOnly)) = true := by decide +kernel
def glob1 (n : Nat) (f : Xp) (s : State) (need : Need) (base : Dword) : Bool := onXp1 s (fun c _ =>
  match checkBuffer s c.ctx need (refIndex base) ((refOff base : Int) + f.imm.toInt) n n with
  | .ok a => !a.isRemote && !xpConflict c x1 true (placeKeys (.glob a))
  | _ => false)
def scr (c : Cell) (f : Xp) (base : Dword) (n : Nat) : Bool := f.fl.getLsbD 2 && decide (0 ≤ xScratch f base ∧ xScratch f base + n ≤ c.shape.scratch ∧ xScratch f base % n = 0)
/-- Scratch offset 16 and buffer offset 16, of a context whose x1 is 8 or a reference. -/
theorem witness_TransferMemory : [xw 2 1 0 8 4, xw 2 1 0 8 5, xw 2 1 0 8 6].all (fun f => onXp1 (withX xbase (fun p => { p with x := p.x.set 1 8 })) (fun c p =>
      scr c f (xa f p) (xBytes f) && !xpConflict c x1 true (placeKeys (.scratch c.id (xScratch f (xa f p)).toNat (xBytes f))))) = true
    ∧ glob1 8 (xw 2 1 0 16) xbase needLoad (mkRef 1 0) = true ∧ glob1 8 (xw 2 1 0 16) xbase needStore (mkRef 1 0) = true ∧ glob1 8 (xw 2 1 0 16) xbase needStoreImm (mkRef 1 0) = true
    ∧ onXp1 xbase (fun c p => scr c (xw 0 0 0 8 4) (xb (xw 0 0 0 8 4) p) 8) = true ∧ xpInFlight xbase x1 xbase.nextId = false
    ∧ onXp1 xbase (fun c p => decide (xScratch (xw 2 0 0 0xFFFFFFFF 4) (xa (xw) p) < 0 ∧ (c.shape.scratch : Int) < xScratch (xw 2 0 0 65536 4) (xa (xw) p) + 4)) = true := by
  decide +kernel
/-- Generators of 32-bit elements: 0 of scratch from offset 0, 1 from 4096, each of 32; 2 of bytes. -/
def genS (base : Dword) (esz : Nat) : Gen := ⟨true, true, base, 1, esz, [32], [4], [0], false⟩
def gens1 : State := withX xbase (fun p => { p with gens := [genS 0 2, genS 4096 2, genS 8192 1] ++ p.gens.drop 3, x := (p.x.set 2 2).set 5 (mkRef 1 1024) })
def xd (f : Xp) (sg dg : BitVec 3) : Xp := { f with sg := sg, dg := dg }
def movesOk (s : State) (f : Xp) (total : XpCtx → Nat) (m : State → XpCtx → Cell → Option Move) : Bool := onXp1 s (fun c p =>
  let sg := p.gens.getD f.sg.toNat Gen.empty
  let dg := p.gens.getD f.dg.toNat Gen.empty
  decide (total p ≠ 0 ∧ p.rem = 0 ∧ runsOn s c.core + total p ≤ 64) && sg.valid && dg.valid && match m s p c with
  | none => false
  | some w => (List.range (total p)).all (fun e => !indexBusy s c x1 w e [] && match moveElem s c x1 w (match w with
    | .gather _ => sg
    | _ => steps e sg) (steps e dg) e with
    | .ok el => (List.range (total p)).all (fun k => !indexBusy s c x1 w k [[el]])
    | .error _ => false))
/-- Two elements each: copied, gathered by the indices of a list in buffer 1, converted from FP32 to FP16 and cast to the one cell of the gang. -/
theorem witness_TransferData : movesOk gens1 (xd (xw 0 2) 0 1) (counted (xd (xw 0 2) 0 1)) (fun _ _ _ => some .copy) = true
    ∧ movesOk gens1 (xd (xw 0 2 5) 0 1) (counted (xd (xw 0 2 5) 0 1)) (fun _ p _ => some (.gather (xb (xw 0 2 5) p))) = true
    ∧ movesOk gens1 (xd (xw 0 2 0 0x8A) 0 2) (fun p => (xa (xw 0 2 0 0x8A) p).toNat) (fun _ _ _ => some (.conv 0x08A)) = true
    ∧ movesOk gens1 (xd (xw 0 2 6) 0 1) (counted (xw 0 2 6)) (fun s p c => if (List.range 16).all (fun i => !(xb (xw 0 2 6) p).getLsbD i || decide (i < (castCells s c).length)) && (p.gens.getD 1 Gen.empty).scratch
        then some (.cast (targets s c (xb (xw 0 2 6) p))) else none) = true
    ∧ onXp1 gens1 (fun _ p => decide (counted (xw) p = 0 ∧ counted (xw 0 0 0 5) p ≠ 0 ∧ (p.gens.getD 7 Gen.empty).valid = false)) = true
    ∧ (8 * 2 ^ 2 = (format 10).width ∧ 8 * 2 ^ 1 = (format 8).width) := by decide +kernel

/-- Each of the data words moves its two elements, as one run for the words that are all in one block. -/
theorem test_data_words : [Instr.xcopy (xd (xw 0 2) 0 1), .xgath (xd (xw 0 2 5) 0 1), .xconv (xd (xw 0 2 0 0x8A) 0 2), .xmcast (xd (xw 0 2 6) 0 1)].all (fun i =>
    after1 i gens1 (fun p => p.xpc = 1 ∧ p.moved = 2) && after i gens1 (fun t => (t.cell? 1).any (fun c => c.runs.map (fun r => (r.id, r.left, r.size, r.bytes)) =
      [(gens1.nextId, [0, 1], if i matches .xconv _ then 2 else 4, 0)]))) = true := by decide +kernel
/-- Squad 0's v176 bound to XP1, and slot 1 of the cell armed for one arrival. -/
def bound1 : State := onSquad gens1 (fun q => { q with bind := 1 :: List.replicate 15 0 })
def armSlot (st : SlotState) (e a : Nat) : State := (withX gens1 (fun p => { p with x := p.x.set 1 1 })).modCell 1 (fun c => { c with
  slots := c.slots.set 1 { (c.slots.getD 1 ⟨.free, 0, 0, 0, 0, false, [], [], 0, 0, 0, 0, [], 0⟩) with state := st, expect := e, arrived := a } })
def slotIs (s : State) (P : Slot → Bool) : Bool := onXp1 s (fun c p => (c.slots[(xa (xw 0 1) p).toNat % 64]?).any P)
theorem witness_TransferSync : onXp1 bound1 (fun c p => let g := p.gens.getD 0 Gen.empty
      g.valid && g.esz = 2 && (c.squads[(xa (xw 0 0) p).toNat % 32]?).any (fun q => q.handler.isNone && q.bind.getD 0 0 = 1
        && q.threads.all (fun th => (th.queues.getD 0 []).length < 16)) && (List.range 32).all (fun i => match genPlace bound1 c (g.advance i) needLoad 0 with
          | .ok (.scratch k o n) => !xpConflict c x1 false (placeKeys (.scratch k o n))
          | _ => false)) = true
    ∧ onXp1 gens1 (fun c p => (p.gens.getD 7 Gen.empty).valid = false ∧ (c.squads[0]?).map (fun q => q.bind.getD 0 0) = some 0) = true
    ∧ slotIs (armSlot .armed 1 0) (fun y => y.state = .armed ∧ y.arrived ≠ y.expect ∧ pendingOk (y.pending + 5) = true) = true
    ∧ slotIs (armSlot .armed 1 1) (fun y => y.state = .armed ∧ y.arrived = y.expect) = true ∧ pendingOk (2 ^ 47) = false
    ∧ slotIs (armSlot .completing 1 1) (fun y => y.state = .completing) = true ∧ slotIs (armSlot .free 0 0) (fun y => y.state = .free) = true
    ∧ (drained xbase x1 31 xbase.nextId = true ∧ xpInFlight xbase x1 xbase.nextId = false)
    ∧ onXp1 (withX xbase (fun p => { p with pendmx := [⟨.mxz 0 false, 0, none⟩] })) (fun _ _ => !drained (withX xbase (fun p => { p with pendmx := [⟨.mxz 0 false, 0, none⟩] })) x1 31 xbase.nextId) = true := by
  decide +kernel
/-- Descriptors in scratch at offset 32: MXZ of tile 3 to integers, and one whose fourth word is not 0. -/
def mxDesc (w3 : Nat) (st : SlotState) : State := (withX (armSlot st 1 0) (fun p => { p with x := p.x.set 3 32 })).modCell 1 (fun c => { c with
  scratch := memWriteL [] 32 ((encode (.mxz { mxPlain 1 0 0 0 with d := 3 })).flatMap (fun w => leBytes 4 w.toNat) ++ leBytes 4 w3) })
def descIs (s : State) (P : Except Nat ArrayOp → Cell → Bool) : Bool := onXp1 s (fun c p => decide ((lo32 (xa (xw 0 3 1) p)).toNat = 32) && !xpConflict c x1 false (placeKeys (.scratch c.id 32 32))
  && P (parseMx c (scratchRead s c.id 32 32)) c)
def pend (s : State) (op : ArrayOp) : State := withX s (fun p => { p with pendmx := [⟨op, 0, none⟩] })
theorem witness_TransferMatrix : [SlotState.armed, .free].all (fun st => descIs (mxDesc 0 st) (fun r c => match r with
      | .ok op => decide (op = .mxz 3 true) && (mxScratch c op).isNone && (c.slots[1]?).any (fun y => y.state = st)
      | .error _ => false)) = true
    ∧ descIs (mxDesc 1 .armed) (fun r _ => match r with
      | .error c => c = 0x30
      | .ok _ => false) = true
    ∧ [(ArrayOp.mxz 3 true, none), (.mxst 3 3 0 0 false, some 5)].all (fun y => onXp1 (pend xbase y.1) (fun c p => p.pendmx = [⟨y.1, 0, none⟩] && c.resident && ctxLive (pend xbase y.1) c.ctx
      && queueUsed (pend xbase y.1) c.core < 16 && mxIssue c y.1 = y.2 && p.rem = 0 && p.waitOn = .none && (xbase.kernel? c.kernel).all (fun k => !k.xpOnly)
      && after1 (.xmxmEntry x1) (pend xbase y.1) (fun q => q.pendmx.isEmpty && q.state = if y.2.isSome then .stopped else p.state))) = true := by decide +kernel
/-- A run of four scratch bytes that copies them from offset 0 to 4096, alone or behind one that writes its source; and one whose context waits, on this and that. -/
def run1 (id : Nat := 7) (src : Nat := 0) (dst : Nat := 4096) : Run := ⟨id, 1, [⟨.scratch 1 src 4, [.scratch 1 dst 4], 0, 0⟩], [0], [], 4, 0, false, none, [], 0, none⟩
def runs1 (l : List Run := [run1]) : State := base.modCell 1 (fun c => { c with runs := l })
def waits1 (w : XWaitOn) : State := withX (runs1) (fun p => { p with state := .waiting, waitOn := w })
/-- The context's read at a peer is unanswered. -/
def asks1 (s : State) : State := { s with asks := [⟨.xp x1, 0, 3, 0, 1, 0, .read 4, none⟩] }
/-- A run of the word at offset 0 with an element at a peer. -/
def farRun : Run := { run1 with
  elems := [⟨.glob ⟨.raw, 0, 4, [(0, .remote 3 0 1 0)], []⟩, [.scratch 1 4096 4], 0, 0⟩], at' := some ⟨0, 0, 0, 1, Gen.empty, Gen.empty, false, 0, 1, 0⟩ }
theorem witness_TransferEvents : ((runs1).cell? 1).any (fun c => c.state ≠ .exited && c.runs = [run1] && runReady c run1) = true ∧ (runs1).asks = []
    ∧ ((runs1 [run1 6 64 0, run1]).cell? 1).any (fun c => !runReady c run1 && c.runs.find? (fun y => y.id = 7) = some run1) = true
    ∧ ((armSlot .armed 1 0).cell? 1).any (fun c => (c.slots[1]?).any (fun y => y.gen = 0 && y.state ≠ .free)) = true
    ∧ ((armSlot .free 0 0).cell? 1).any (fun c => (c.slots[1]?).any (fun y => y.state = .free)) = true
    ∧ [XWaitOn.queue, .order, .remote, .runs, .page (2 ^ 17) 0, .drain 0 7, .drain 0 8].all (fun w => ((waits1 w).xp? x1).any (fun p => p.state = .waiting && p.waitOn = w)) = true
    ∧ asking (waits1 .remote) (.xp x1) = false ∧ asking (asks1 (waits1 .remote)) (.xp x1) = true
    ∧ runsOut (waits1 .runs) x1 0 = false ∧ runsOut ((waits1 .runs).modCell 1 (fun c => { c with runs := [farRun] })) x1 0 = true
    ∧ (((waits1 .none).page? (2 ^ 17) 0).map (·.state) = some .resident ∧ drained (waits1 (.drain 0 7)) x1 0 7 = true ∧ drained (waits1 (.drain 0 8)) x1 0 8 = false)
    ∧ after (.transferLand x1 7) (runs1) (fun t => (t.cell? 1).any (fun c => c.runs.isEmpty)) = true := by decide +kernel
/-- A layout record of rank 2 in scratch at offset 128: extents 3 and 2, strides 4 and 12; and generator 1 of it. -/
def layout : List Byte := leBytes 8 4096 ++ [2, 2, 1, 0] ++ leBytes 4 3 ++ leBytes 4 2 ++ leBytes 12 0 ++ leBytes 8 4 ++ leBytes 8 12 ++ leBytes 24 0 ++ leBytes 2 1 ++ leBytes 2 1 ++ leBytes 52 0
def layouts (b : List Byte) : State := (withX xbase (fun p => { p with x := (p.x.set 1 128).set 2 1, gens := p.gens.set 1 ((parseGen layout).getD Gen.empty) })).modCell 1
  (fun c => { c with scratch := memWriteL [] 128 b })
theorem witness_Generators : onXp1 (layouts layout) (fun c p => scr c (xw 0 1 0 0 4) (xa (xw 0 1 0 0 4) p) 128 && !xpConflict c x1 false (placeKeys (.scratch c.id 128 128))
      && (parseGen (scratchRead (layouts layout) c.id 128 128)).isSome) = true
    ∧ onXp1 (layouts []) (fun c _ => (parseGen (scratchRead (layouts []) c.id 128 128)).isNone) = true
    ∧ onXp1 (layouts layout) (fun _ p => let g := p.gens.getD 1 Gen.empty
      g.valid && g.rank = 2 && ((List.range 2).map (fun j => (p.x.getD (2 + j) 0).toNat)).zip g.ext = [(1, 3), (0, 2)]) = true
    ∧ onXp1 xbase (fun _ p => (p.gens.getD 1 Gen.empty).valid = false) = true
    ∧ [(2, 0), (0, 1), (2, 1)].map (fun i => ((({ genS 0 2 with rank := 2, ext := [3, 2], str := [4, 12], idx := [i.1, i.2] } : Gen).advance 1).idx)) = [[0, 1], [1, 1], [0, 0]] := by decide +kernel

/-! ### Transfer requests -/

/-- Lane forms of XPRUN: the context in v8, the first word in v10, k4's value. -/
def xr (fn : BitVec 4) (a : Code := 8) : Ext := { e1 fn with a := ⟨a, 0, 0⟩, d := if fn = 2 then 4 else 0 }
def xrS : Ext := { e2 0 with d := 0, c := ⟨0xC4, 0, 0⟩ }
def xctx (n : Word) (st : XState) : State := (withV base [(8, n)]).modCell 1 (fun c => { c with xps := c.xps.set 0 { (c.xps.getD 0 XpCtx.start) with state := st } })
def ctxIs (s : State) (st : XState) (r : Rd) : Bool := (r.vreg (src 8) 0).toNat = 1 && r.c.xps.length = 3 && ((s.xp? x1).map (fun p => p.state) = some st)
theorem witness_ContextRuns : [XState.idle, .running].all (fun st => laneWhen (xctx 1 st) (.xprunStart xrS) (ctxIs (xctx 1 st) st)
      && laneWhen (xctx 1 st) (.xprunKill (xr 3)) (ctxIs (xctx 1 st) st)) = true
    ∧ [XState.stopped, .exited].all (fun st => laneWhen (xctx 1 st) (.xprunResume (xr 1)) (ctxIs (xctx 1 st) st) && laneWhen (xctx 1 st) (.xprunQry (xr 2)) (ctxIs (xctx 1 st) st)) = true
    ∧ stepWhen (onSquad base (fun q => { q with k := q.k.set 8 1 })) (.xprunQry { xr 2 0xC8 with d := 0xC4 }) (fun r => (r.x64 (src 0xC8)).toNat = 1) = true
    ∧ [0, 4].all (fun n => laneWhen (withV base [(8, n)]) (.xprunStart xrS) (fun r => (r.vreg (src 8) 0) = n)) = true
    ∧ laneWhen (withV base [(8, 4)]) (.xprunQry (xr 2)) (fun r => (r.vreg (src 8) 0).toNat = 4) = true := by decide +kernel
/-- A tensor copy of the record at offset 256 of buffer 1 to scratch offset 64, without a slot and with slot 1; v176 and v177 by QMAP. -/
def tc (imm : BitVec 16) : Ext := { e 0 imm with d := 0, c := ⟨16, 0, 0⟩ }
def qm (fn : BitVec 4) : Ext := { u2 fn with d := 0, b := ⟨if fn = 0 then 0xCA else 0xFC, 0, 0⟩ }
def qbase (n : Dword) : State := onSquad base (fun q => { q with k := (q.k.set 8 3).set 10 n })
theorem witness_CopyAndMapRequests : [tc 0, tc 65].all (fun f => laneWhen base (.tcopy f)) = true
    ∧ stepWhen (qbase 1) (.qmapBind (qm 0)) (fun r => (r.x64 (src 0xCA)).toNat = 1 && r.th.v.length = 192 && r.c.xps.length = 3 && r.q.bind.all (· = 0)) = true
    ∧ stepWhen (qbase 0) (.qmapUnbind (qm 1)) (fun r => r.q.bind.all (· = 0)) = true
    ∧ [0, 4].all (fun n => stepWhen (qbase n) (.qmapBind (qm 0)) (fun r => r.x64 (src 0xCA) = n)) = true := by decide +kernel
/-- The same records in buffer 1, a box of one element; XP0's request for it, that loads element (1, 0). -/
def crec (space : Byte) : List Byte := leBytes 8 0x0000100000001000 ++ [2, 2, space, 0] ++ leBytes 4 3 ++ leBytes 4 2 ++ leBytes 12 0 ++ leBytes 8 4 ++ leBytes 8 12 ++ leBytes 24 0
  ++ leBytes 2 1 ++ leBytes 2 1 ++ leBytes 52 0
def creq (slot : Option (Nat × BitVec 8)) : TcopyReq := ⟨1, 1, 0, none, true, 0x0000100000000100, [1, 0, 0, 0, 0], 64, slot, 0⟩
def serving (b : List Byte) (slot : Option (Nat × BitVec 8) := none) : State := { base.modCore 0 (fun k => { k with tcopy := [creq slot] }) with mem := memWriteL [] 256 b }
def served1 (s : State) (slot : Option (Nat × BitVec 8)) (P : Option Gen → Option (List Nat) → Bool) : Bool :=
  decide ((s.core? 0).map (fun k => (k.id, k.tcopy)) = some (0, [creq slot])) && (s.cell? 1).any (fun c => match globPlace s c needLoad 0x0000100000000100 0 128 128 with
    | .ok (.glob a) => P (parseGen (phasedRead s c.id a).1) (parseBox (phasedRead s c.id a).1)
    | _ => false)
theorem witness_CopyService : served1 (serving []) none (fun g _ => g.isNone) = true
    ∧ served1 (serving (layout)) none (fun g b => g.any (fun g => g.scratch) && b.isSome) = true
    ∧ served1 (serving (crec 0) (some (1, 0))) (some (1, 0)) (fun g b => g.any (fun g => !g.scratch) && b.isSome) = true
    ∧ (((serving (crec 0) (some (1, 0))).cell? 1).bind (fun c => (c.slots[1]?).map (·.state))) = some .free
    ∧ served1 (serving (crec 0)) none (fun g b => g.any (fun g => !g.scratch && g.rank = 2 && g.esz = 2 && g.ext = [3, 2] && b = some (List.replicate g.rank 1)
      && ((serving (crec 0)).cell? 1).any (fun c => match globPlace (serving (crec 0)) c needLoad g.base (sumProd' [1, 0] g.str) 4 4 with
        | .ok (.glob e) => !e.isRemote
        | _ => false))) = true
    ∧ [serving [], serving layout, serving (crec 0), serving (crec 0) (some (1, 0))].all (fun s => after (.tcopyService 0) s (fun t => (t.core? 0).any (fun k => k.tcopy.isEmpty))) = true := by
  decide +kernel

/-! ### The vat, waits, traps and batches -/

def board1 : State := onThread base (fun th => { th with state := .stalled, board := [⟨[.v 4], 2, .array⟩, ⟨[.v 5], 0, .unit⟩, ⟨[.v 6], 1, .unit⟩] })
theorem witness_VatEvents : (board1.thread? t0).map (·.board) = some ([⟨[.v 4], 2, .array⟩] ++ ⟨[.v 5], 0, .unit⟩ :: [⟨[.v 6], 1, .unit⟩]) ∧ (board1.cells.map (·.id)).Nodup
    ∧ (board1.thread? t0).any (fun th => th.state = .stalled && th.wait = none && coreOf board1 1 = 0) = true ∧ board1.late = [] ∧ (board1.core? 0).any (fun k => k.snapAt ≤ board1.clk) = true ∧ partitionOf base ⟨1, 0, 31⟩ < 4 ∧ canIssue base ⟨1, 0, 31⟩ = true ∧ issuing base = [] := by decide +kernel
theorem test_curdle : after (.curdle 0) board1 (fun t => (t.thread? t0).any (fun th => th.state = .stalled) && t.issue.any (fun b => match b with
    | .bundle ts => decide (ts.length = 32)
    | _ => false)) = true ∧ after (.longLatencyRetire t0) board1 (fun t => (t.thread? t0).map (·.board) = some [⟨[.v 4], 2, .array⟩, ⟨[.v 6], 1, .unit⟩]) = true := by decide +kernel
def moni (clk : Nat) : State := { onThread base (fun th => { th with state := .waiting, wait := some (.monitor 4 false), mon := some ⟨0, [], false, 0, 50, false⟩ }) with clk := clk }
/-- Thread 0 and thread 31 wait on slot 1, whose phase has completed. -/
def slotWaits (e a : Nat) : State := (slotted (fun x => { x with state := .completing, expect := e, arrived := a, pbit := true, waitmap := [0, 31], xwait := [] })).modSquad 1 0 (fun q =>
  { q with threads := q.threads.map (fun th => if th.lane = 0 ∨ th.lane = 31 then { th with state := .waiting, wait := some (.slot 1 (th.lane = 31) 2 3 false false) } else th) })
def phased : State := onSquad base (fun q => { q with threads := q.threads.map (fun th => { th with state := .waiting, wait := some (.phase 2) }) })
theorem witness_Waits_end : [50, 49].all (fun n => ((moni n).thread? t0).any (fun th => th.wait = some (.monitor 4 false) && th.mon = some ⟨0, [], false, 0, 50, false⟩)) = true
    ∧ [(2, 0), (0, 0)].all (fun x => ((slotWaits x.1 x.2).cell? 1).any (fun c => (c.slots[1]?).any (fun y => y.state = .completing && y.pbit && y.waitmap = [0, 31]))
      && [0, 31].all (fun l => ((slotWaits x.1 x.2).thread? ⟨1, 0, l⟩).any (fun th => th.heldWait = none && th.state = .waiting && th.wait = some (.slot 1 (l = 31) 2 3 false false)))) = true
    ∧ (phased.gang? 1).any (fun g => phaseReady phased g && phaseDrained phased g && (gangCells phased g).all (fun c => c.view = [])) = true
    ∧ after (.slotWake 1 1) (slotWaits 2 0) (fun t => (t.cell? 1).any (fun c => (c.slots[1]?).any (fun y => y.state = .armed && y.arrived = 0))
      && (t.thread? t0).any (fun th => th.wait = none && th.state = .ready) && (t.thread? ⟨1, 0, 31⟩).any (fun th => th.state = .waiting)) = true
    ∧ after (.slotWake 1 1) (slotWaits 0 0) (fun t => (t.cell? 1).any (fun c => (c.slots[1]?).any (fun y => y.state = .completing && !y.pbit))) = true
    ∧ after (.phaseComplete 1) phased (fun t => (t.gang? 1).map (·.phase) = some 1 && (t.thread? t0).any (fun th => th.state = .ready)) = true := by decide +kernel
/-- Thread 0 has stopped by a cause, thread 1 has exited, and the rest run. -/
def stopping : State := onSquad base (fun q => { q with
  trap := .stopping
  collected := [⟨.misaligned, 1, 1, 4, 0x100000000100, 3, 0⟩]
  threads := q.threads.map (fun th => if th.lane = 0 then { th with state := .stopped, mark := .cause, ret := 4 } else if th.lane = 1 then { th with state := .exited } else th) })
theorem witness_Traps_entry : canDeliver stopping 1 0 = true ∧ (stopping.ctx? 0).any (fun x => x.tmode = false && x.fseq = 1) = true
    ∧ atThread stopping t0 (fun _ q th => q.collected.length = 1 && q.pendXp = 0 && th.wait = none && th.mon = none) = true
    ∧ after (.trapDelivery 1 0) stopping (fun t => (t.squad? 1 0).any (fun q => q.trap = .active && q.taddr = 0x100000000100 && q.tmask = 1 && (q.threads[0]?).any (fun th => th.inHandler && th.pc = 0 && th.ret = 4))) = true := by
  decide +kernel
/-- Terms of a batch of three at byte 256, under keys 2, 0 and 1; of them the last to arrive, at its home or on its way there. -/
def term (id key count : Nat) (lane : Nat) : Term := ⟨id, ⟨1, 0, lane⟩, 0, 0, .dev 256, 5, key, count, false, false, 10, 4, 1, false, []⟩
def treq (x : Term) (path : List Point := []) : TermReq := ⟨x.id, 0, x.key, x.value, [x], path, 0, []⟩
def batch1 (ts : List Term) : Batch := ⟨1, 0, .dev 256, 5, 3, false, false, ts, 0, [], []⟩
def batching (x : TermReq) (bs : List Batch) (clk : Nat := 7) : State := { base with terms := [x], batches := bs, nextId := 40, clk := clk }
def last1 : TermReq := treq (term 4 1 3 1)
def fullSlice : List Batch := (List.range 32).map (fun i => { batch1 [] with id := i, batch := 6 })
theorem witness_Batches_events :
    [[term 2 2 3 0], [term 2 2 3 0, term 3 0 3 2]].all (fun ts => let s := batching last1 [batch1 ts]
      decide (s.terms.find? (fun t => t.id == 4) = some last1 ∧ last1.path = [] ∧ last1.terms = [term 4 1 3 1]) && decide (s.batches.find? (fun b => b.of (term 4 1 3 1)) = some (batch1 ts))
      && ts.all (fun z => decide (z.key ≠ 1 ∧ z.key < 3)) && decide ((ts.map (·.key)).Nodup) && (badFrame s (.dev 256)).isNone) = true
    ∧ (term 4 1 4 1).count ≠ (batch1 []).count ∧ [[], fullSlice].all (fun l => let s := batching last1 l
      s.batches.all (fun b => !b.of (term 4 1 3 1) && decide (¬ (b.ctx = 0 ∧ b.loc = .dev 256 ∧ b.batch = 5) ∧ b.id ≠ 40))) = true
    ∧ (fullSlice.filter (fun b => homeSlice b.loc = homeSlice (.dev 256))).length = 32 ∧ (treq (term 4 1 3 1) [.lsu 0]).path ≠ []
    ∧ [1000000, 999999].all (fun n => let s := batching last1 [batch1 []] n
      decide ((s.ctx? 0).map (·.batchto) = some 1000000 ∧ s.batches.find? (fun y => y.id == 1) = some (batch1 [])) && decide (s.clk - (batch1 []).lastAt = n)) = true
    ∧ after (.batchTermArrival 4) (batching last1 [batch1 [term 2 2 3 0, term 3 0 3 2]]) (fun t => decide (t.batches = [] ∧ t.terms = []) && t.batchReplies.map (fun r => (r.t.lane, r.value)) = [(0, some 20), (2, some 0), (1, some 10)]
      && leNat (memReadN t.mem 256 4) = 30) = true
    ∧ after (.batchTimeout 1) (batching last1 [batch1 [term 2 2 3 0]] 1000000) (fun t => t.batches.isEmpty && t.batchReplies.map (·.value) = [none]) = true
    ∧ after (.batchReply 9) { base with batchReplies := [⟨9, t0, some 77, false, 4, 1, false⟩] } (fun t => (t.thread? t0).any (fun th => th.v.getD 4 0 = 77 && th.pred 1)) = true := by decide +kernel
/-! ### Kernels, cells, contexts -/

/-- A kernel of two cells, none placed yet, that has headed its level with gang 0 from clock 0; over two cores. -/
def kernel1 : Kernel := { stageKernel base false with id := 9, unplaced := [0, 1], headGang := some 0, headSince := 0, desc := { (stageKernel base false).desc with gx := 2 } }
def placing (k : Kernel := kernel1) : State := { base with
  cells := [], kernels := [k], coremask := 0b11, clk := 2000000, cores := base.cores.flatMap (fun k => if k.id = 0 then [k, { k with id := 1 }] else []) }
theorem witness_Cells : kernel1.places (placing) = true ∧ underMax (placing) kernel1 = true ∧ kernel1.desc.steal = false ∧ (placing).gangs.all (fun h => !h.gaveRoom) = true
    ∧ (noteHeads (testBits (placing) kernel1)).kernels = [kernel1] ∧ kernel1.gangReady (noteHeads (testBits (placing) kernel1)) 0 = true
    ∧ gangCores (noteHeads (testBits (placing) kernel1)) kernel1 0 (fun _ => false) 0 = some [0] ∧ kernel1.unplaced.Pairwise (· < ·)
    ∧ after .placement (placing) (fun t => t.cells.map (fun c => (c.core, c.index)) = [(0, 0)]) = true
    ∧ (let k := { kernel1 with state := .cancelled, headGang := none }
      k.places (placing k) = false)
    ∧ [2000000, 1999999].map (fun r => decide (r < (placing).clk - kernel1.headSince)) = [false, true]
    ∧ (let s := { placing with reserve := 1000 }
      headsLevel s kernel1 && decide (kernel1.reserved = [] ∧ nextGang s kernel1 = some 0 ∧ kernel1.headGang = some 0)
      && [0, 1].all (fun v => unitHolds s kernel1 v && decide (freeCores s kernel1 v = 1) && (unitCores kernel1.desc.unitScope v).all (fun c => !heldForOther s 9 (some 0) c))
      && (List.range (unitCount kernel1.desc.unitScope)).all (fun v => decide (freeCores s kernel1 v ≤ 1))
      && after (.reservation 9) s (fun t => (t.kernel? 9).map (·.reserved) = some [(0, 0)])) = true := by decide +kernel
/-- Every thread of the cell changed, and the cell. -/
def allThreads (s : State) (f : Thread → Thread) : State := onSquad s (fun q => { q with threads := q.threads.map f })
def cellIs (s : State) (f : Cell → Cell) : State := s.modCell 1 f
/-- The cell is asked to yield at clock 0, its threads yielded with live counts, or running. -/
def yielding (clk : Nat) (st : ThreadState) : State := { cellIs (allThreads base (fun th => { th with state := st, liveV := 12, liveW := 1 })) (fun c => { c with state := .draining, preq := true, preqAt := 0 }) with clk := clk }
def saving (s : State) (P : Cell → Bool) : Bool := decide ((savingCells s 1).map (·.map (·.id)) = some [1] ∧ (s.cells.map (·.id)).Nodup) && (s.cell? 1).any (fun c => c.squads.all (fun q => q.trap ≠ .stopping) && P c)
def evicted : State := onSquad (allThreads base (fun th => { th with state := .saved, savedState := .ready })) (fun q => { q with state := .evicted })
/-- The cell's threads asleep in MONWAIT, with a result register. -/
def sleeping : State := allThreads (yielding 20000 .waiting) (fun th => { th with wait := some (.monitor 4 false), mon := some ⟨4, [], false, 0, 0, false⟩ })
theorem witness_Saves_monwait : saving sleeping (fun c => !cellSafe c && c.deadline ≤ 20000 - c.preqAt && c.squads.all (fun q => q.state = .active
      && q.threads.all (fun th => th.wait = some (.monitor 4 false) && th.walk = none))) = true ∧ saveDrained (stopWalks (beginSave sleeping 1 true) [1]) [1] = true
    ∧ after (.forcedSave 1) sleeping (fun t => (t.thread? t0).any (fun th => th.state = .saved && th.v.getD 4 0 = 3 && th.mon = none)) = true := by decide +kernel
theorem witness_Saves : saving (yielding 0 .yielded) cellSafe = true ∧ saveDrained (beginSave (yielding 0 .yielded) 1 false) [1] = true
    ∧ saving (yielding 19999 .ready) (fun c => !cellSafe c && 19999 - c.preqAt < c.deadline) = true
    ∧ saving (yielding 20000 .ready) (fun c => !cellSafe c && c.deadline ≤ 20000 - c.preqAt) = true ∧ saveDrained (stopWalks (beginSave (yielding 20000 .ready) 1 true) [1]) [1] = true
    ∧ saving (yielding 20000 .ready) (fun c => c.squads.all (fun q => q.threads.all (fun th => th.wait.isNone && th.walk.isNone))) = true
    ∧ saving (cellIs (yielding 0 .yielded) (fun c => { c with state := .saving })) (fun c => c.state = .saving) = true
    ∧ saving (yielding 0 .yielded) (fun c => c.state = .draining) = true
    ∧ (evicted.cell? 1).any (fun c => c.squads.all (fun q => q.recalled) && c.resident && squadRoom evicted c) = true
    ∧ [(Instr.cooperativeSave 1, yielding 0 .yielded), (.forcedSave 1, yielding 20000 .ready)].all (fun y => after y.1 y.2 (fun t => (t.cell? 1).any (fun c => c.state = .saved))) = true
    ∧ after (.preqClear 1) (yielding 0 .yielded) (fun t => (t.cell? 1).any (fun c => c.state = .running && !c.preq)) = true
    ∧ after (.recall 1 0) evicted (fun t => (t.squad? 1 0).any (fun q => q.state = .active && q.threads.all (fun th => th.state = .ready))) = true := by decide +kernel
def retired (gx : Nat) : State := { onSquad (allThreads base (fun th => { th with state := .exited })) (fun q => { q with state := .retired }) with
  kernels := base.kernels.map (fun k => { k with state := .running, desc := { k.desc with gx := gx } }) }
theorem witness_Cells_exit : [1, 2].all (fun gx => let s := retired gx
      (s.cell? 1).any (fun c => cellDone s c && c.xps.all (fun x => x.state = .idle) && saveDrained s [1] && c.view = [] && !publishedOpen s 1
        && (s.kernel? c.kernel).any (fun k => k.desc.bmapRef = 0 && k.state = .running && !k.doomed && k.code = 0 && k.count = gx && k.exited.length + 1 = 1))
      && s.cores.all (fun d => d.tcopy.isEmpty) && after (.cellExit 1) s (fun t => (t.cell? 1).all (fun d => d.state = .exited)
        && t.kernels.map (·.state) = [if gx = 1 then .complete else .running])) = true := by decide +kernel
/-- A descriptor of context 7, and one that breaks a rule. -/
def ctxDesc (ok : Bool) : List Byte := leBytes 8 0x0000100000000000 ++ leBytes 4 1 ++ leBytes 2 7 ++ [0, 0] ++ leBytes 4 (if ok then 64 else 65) ++ leBytes 8 0 ++ leBytes 4 20000 ++ leBytes 8 0 ++ leBytes 8 0
  ++ leBytes 4 16 ++ leBytes 8 0 ++ leBytes 4 0 ++ leBytes 64 0
def ctxIn (st : CtxState) (park : Dword := 0) : State := base.modCtx 0 (fun c => { c with state := st, park := park, parksize := 10000 })
theorem witness_Contexts : (parseContext (ctxDesc true)).any (fun c => c.id = 7 && !c.light) = true ∧ parseContext (ctxDesc false) = none ∧ base.ctx? 7 = none
    ∧ isUnion { base with partitions := [3, 12] } 15 = true ∧ isUnion base 15 = false ∧ base.queues = []
    ∧ [CtxState.built, .bound, .running, .caved, .parked, .stopping, .faulted, .dead].all (fun st => ((ctxIn st).ctx? 0).any (fun x => x.state = st && !x.busy)) = true
    ∧ (base.kernels.map (·.id)).Nodup ∧ ((ctxIn .stopping).cell? 1).any (fun c => c.runs.isEmpty && c.ctx = 0) = true
    ∧ ((({ runs1 with contexts := (ctxIn .stopping).contexts } : State).cell? 1).any (fun c => !c.runs.isEmpty && c.ctx = 0 && c.state ≠ .exited)) = true
    ∧ after (.ctxKill 0) base (fun t => (t.ctx? 0).any (fun x => x.state = .stopping) && (t.thread? t0).any (fun th => th.state = .stopped)) = true
    ∧ after (.teardownComplete 0) (ctxIn .stopping) (fun t => t.cells.isEmpty && (t.ctx? 0).any (fun x => x.state = .dead)) = true
    ∧ after (.ctxCreate (ctxDesc true)) base (fun t => (t.ctx? 7).isSome) = true := by decide +kernel
def parted (st : CellState) (pl : CellPlace) : State := { cellIs base (fun c => { c with state := st, place := pl }) with partitions := [0xF, 0xF0] }
def parking (st : CellState) : State := (cellIs base (fun c => { c with state := st })).modCtx 0 (fun c => { c with park := 0x0000100000010000, parksize := 5000, busy := true, parking := true })
def unparking (on : Bool) : State := { (cellIs base (fun c => { c with state := .saved, place := .parked })).modCtx 0 (fun c => { c with state := .parked }) with coremask := if on then 1 else 0 }
theorem witness_SwapAndPark : (partCells (parted .running .core) 0).map (·.id) = [1] ∧ swapCtxs (parted .running .core) 0 = [0] ∧ ctxLive base 0 = true
    ∧ ctxLive (ctxIn .faulted) 0 = false
    ∧ after (.ctxSwap 0) (parted .running .core) (fun t => t.swaps = [0] && (t.cell? 1).any (fun c => c.preq)) = true
    ∧ [CellPlace.core, .inPlace, .caved].all (fun pl => after (.caveExchange 0) { parted .saved pl with swaps := [0] } (fun t => (t.cell? 1).any (fun c => c.place = if pl = .caved then .core else .caved))) = true
    ∧ [(CtxState.running, (0x100000000000 : Dword)), (.caved, 0)].all (fun y => ((ctxIn y.1 y.2).ctx? 0).any (fun x => x.state = y.1 && x.park = y.2 && !x.busy)) = true
    ∧ (ctxCells (parking .saved) 0).map (·.id) = [1] ∧ parkUsed (parking .saved) 0 + (((ctxCells (parking .saved) 0).filter (fun c => c.place ≠ .parked)).map imageBytes).sum ≤ 4096 * 5000
    ∧ after (.parkCopyDone 0) (parking .saved) (fun t => (t.cell? 1).any (fun c => c.place = .parked) && (t.ctx? 0).any (fun x => x.state = .parked)) = true
    ∧ dedup (((ctxCells (unparking true) 0).filter (fun c => c.place = .parked)).map (·.gang)) = [1] ∧ (restoreGang (unparking true) 1).isSome = true ∧ (restoreGang (unparking false) 1).isNone = true := by
  decide +kernel

/-! ### Queues -/

def accessed (s : State) : State := { s with coremask := 1, pages := s.pages.map (fun p => { p with accessed := true }) }
/-- Queue 5 of processor 1: its user half at offset 4096 of buffer 1, its ring of 16 entries at offset 8192. -/
def queue0 (st : QState) (k : Option EntryKind) : Queue :=
  { qid := 5, ctx := 0, rsizeLog2 := 4, maxPrio := 3, weight := 2, lp := 1, maxCells := 0, ppart := 0, uref := 0x0000100000001000, ridx := 0, state := st, code := 0, rqcount := 0,
    head := k.map (fun x => ⟨0, false, x⟩), prio := 0, ringRef := 0x0000100000002000, open' := [], repeatOf := none, woken := true, armed := false, heldAt := 0, timedAt := none, sample := none, pending := none }
def halfBytes (widx : Nat) (paused : Nat := 0) (ring : Nat := 0x0000100000002000) : List Byte := leBytes 8 widx ++ leBytes 8 ring ++ leBytes 12 0 ++ [2, BitVec.ofNat 8 paused] ++ leBytes 34 0
/-- A package with that queue alone, with bytes at offsets of buffer 1. -/
def withQueue (q : Queue) (bs : List (Nat × List Byte)) : State := { accessed base with queues := [q], mem := bs.foldl (fun m x => memWriteL m x.1 x.2) [] }
def readsAs (s : State) (r : Dword) (n a : Nat) (b : List Byte) : Bool := match lpRead s (queue0 .idle none) r n a with
  | .bytes x t => decide (x = b ∧ t = s)
  | _ => false
def refused (s : State) (r : Dword) (n a : Nat) : Bool := match lpRead s (queue0 .idle none) r n a with
  | .bad => true
  | _ => false
def idle0 (u : List Byte) (e : List Byte := []) : State := withQueue (queue0 .idle none) [(4096, u), (8192, e)]
theorem witness_QueueEntries_loads : refused (withQueue { queue0 .idle none with uref := 0x0000200000000000 } []) 0x0000200000000000 64 64 = true
    ∧ [(halfBytes (2 ^ 31), some 2), (halfBytes 1 2, some 3), (halfBytes 0 0 4096, some 1), (halfBytes 0, none), (halfBytes 1 1, none), (halfBytes 1, none)].all (fun y =>
      readsAs (idle0 y.1) 0x0000100000001000 64 64 y.1 && userCode (idle0 y.1) (queue0 .idle none) y.1 = y.2) = true
    ∧ (let s := (idle0 (halfBytes 1) (leBytes 8 1)).modQueue 5 (fun q => { q with prio := 2, ringRef := 0x0000100000002000 })
      readsAs s 0x0000100000002000 8 8 (leBytes 8 1) && readsAs s 0x0000100000002008 56 8 (leBytes 56 0) && parseKind (leBytes 64 1) = some .nop) = true
    ∧ after (.queueWake 5) (idle0 (halfBytes 1) (leBytes 8 1)) (fun t => (t.queue? 5).any (fun q => q.state = .ready && q.head = some ⟨0, false, .nop⟩ && q.prio = 2)) = true := by decide +kernel
def turning (k : EntryKind) (bs : List (Nat × List Byte) := []) : State := withQueue (queue0 .ready (some k)) bs
def turns (k : EntryKind) (bs : List (Nat × List Byte) := []) (s := turning k bs) : Bool := decide (s.queue? 5 = some (queue0 .ready (some k))) && !heldBy s (queue0 .ready (some k)) ⟨0, false, k⟩ && turnOf s (queue0 .ready (some k))
def launch0 : EntryKind := .launch 0x0000100000004000
/-- A descriptor of one squad, of cells in number gx, with code at the start of buffer 1. -/
def desc0 (gx : Nat) : List Byte := leBytes 8 0x0000100000000000 ++ leBytes 4 0 ++ leBytes 2 gx ++ leBytes 2 1 ++ leBytes 2 1 ++ [1, 1, 0, 0, 0, 0, 1, 0] ++ leBytes 102 0
def passes (s : State) (e : EntryKind) (r : Dword) : Option Bool := match checkKernel (opened s (queue0 .ready (some e)) ⟨0, false, e⟩) (queue0 .ready (some e)) 0 r none with
  | .passed _ _ => some true
  | .refused _ => some false
  | .waits _ => none
theorem witness_QueueEntries_issue : turns .nop = true ∧ turns launch0 [(16384, desc0 3)] = true ∧ turns launch0 = true ∧ turns (.xplaunch 0x0000100000000000 0 1 1 1 4 0) = true
    ∧ turns (.copy 0x0000100000000000 0x0000100000000100 64) = true ∧ passes (turning launch0 [(16384, desc0 3)]) launch0 0x0000100000004000 = some true
    ∧ passes (turning launch0) launch0 0x0000100000004000 = some false
    ∧ (match checkXpKernel (turning .nop) (queue0 .ready none) 0 (xpDesc 0x0000100000000000 0 1 1 1 4 0) with
      | .passed _ _ => true
      | _ => false) = true
    ∧ heldBy (turning .nop) { queue0 .ready (some .nop) with open' := [7] } ⟨0, true, .nop⟩ = true ∧ EntryKind.nop.holds = false
    ∧ [(Instr.nopEntry 5, turning .nop), (.launch 5, turning launch0 [(16384, desc0 3)]), (.launch 5, turning launch0), (.xplaunch 5, turning (.xplaunch 0x0000100000000000 0 1 1 1 4 0)),
      (.copy 5, turning (.copy 0x0000100000000000 0x0000100000000100 64))].all (fun y => after y.1 y.2 (fun t => (t.queue? 5).any (fun q => q.ridx = 1 && q.state = .idle))) = true := by decide +kernel
theorem witness_Launches_check : relaunchHeld (turning launch0) 0 0x0000100000004000 = false ∧ refused (turning launch0) 0x0000200000000000 128 64 = true
    ∧ (let s := turning launch0 [(16384, desc0 65535)]
      readsAs s 0x0000100000004000 128 64 (desc0 65535) && descLegal (desc0 65535) 65535 1 1
      && (s.ctx? 0).any (fun c => !descRefused s (queue0 .ready none) c (descFields (desc0 65535) 65535 1 1) false)
      && decide ((descFields (desc0 65535) 65535 1 1).argRef = 0 ∧ (descFields (desc0 65535) 65535 1 1).bmapRef = 0 ∧ (descFields (desc0 65535) 65535 1 1).prodDesc = 0)
      && match checkBuffer s 0 needExec 1 0 4 4 with
        | .ok _ => true
        | _ => false) = true
    ∧ descLegal (desc0 0) 0 1 1 = false := by decide +kernel
def ind0 : EntryKind := .launchInd 0x0000100000004000 0x0000100000000000 0 9
def prologue0 (k0 : Dword) (e : Option ProEnd) (at' : Option Nat := some 0) : Prologue := ⟨5, 0, 0x0000100000000000, 0, k0 :: List.replicate 59 0, 0, at', 0x0000100000004000, e⟩
def running0 (p : Prologue) (clk : Nat) : State := { withQueue (queue0 .ready (some ind0)) [(16384, desc0 3)] with lps := (List.replicate 6 LaunchProc.reset).set 1 { LaunchProc.reset with prologue := some p }, clk := clk }
theorem witness_Launches_prologues : turns ind0 [(16384, desc0 3)] = true ∧ readsAs (turning ind0 [(16384, desc0 3)]) 0x0000100000004000 128 64 (desc0 3) = true ∧ byteField (desc0 3) 40 8 = 0
    ∧ after (.launchInd 5) (turning ind0 [(16384, desc0 3)]) (fun t => (t.lps[1]?).any (fun l => l.prologue.any (fun p => p.k.length = 60 && p.k.getD 4 0 = 9 && p.k.getD 24 1 = 0 && p.k.getD 48 0 = 3))) = true
    ∧ [(0, none, 4096), (1, some ProEnd.exit, 0), (3, some .exit, 0), (0, some (.fault .misaligned 0), 0), (0, none, 4097)].all (fun y =>
      (running0 (prologue0 y.1 y.2.1) y.2.2).lps[1]? = some { LaunchProc.reset with prologue := some (prologue0 y.1 y.2.1) } &&
      ((running0 (prologue0 y.1 y.2.1) y.2.2).queue? 5).any (fun q => q.head.any (fun e => e.kind = ind0))) = true
    ∧ [((1 : Dword), ProEnd.exit, 0), (3, .exit, 0x0B), (0, .fault .misaligned 0, 9)].all (fun y => after (.launchInd 5) (running0 (prologue0 y.1 (some y.2.1)) 0) (fun t => (t.queue? 5).any (fun q =>
      q.ridx = 1 && q.head.isNone && q.code = y.2.2))) = true
    ∧ ((running0 (prologue0 0 none none) 9).lps[1]?).bind LaunchProc.prologue = some (prologue0 0 none none)
    ∧ after (.prologueBudget 1) (running0 (prologue0 0 none) 4097) (fun t => (t.queue? 5).any (fun q => q.ridx = 1 && q.code = 0x0A)) = true := by decide +kernel

def job0 (src : Dword) (landed : Nat) (held : List Byte := []) (dst : Dword := 0x0000100000000100) : CopyJob := ⟨3, 5, 0, 0, 0, src, dst, 64, landed, held⟩
def copying (j : CopyJob) (pages : Bool := true) : State := { withQueue { queue0 .idle none with open' := [0] } [(512, [7])] with copyJobs := [j], pages := (accessed base).pages.map (fun p => { p with state := if pages then .resident else .migrating }) }
def copies (s : State) (j : CopyJob) : Bool := decide (s.copyJobs.find? (fun x => x.id == 3) = some j) && (s.queue? 5).isSome && ctxLive s 0 && !asking s (.copy 3)
def copyIs (m : CopyMove) (bad : Bool) : Bool := match m with
  | .bad => bad
  | .waits _ => !bad
  | _ => false
theorem witness_QueueWork_copies : copies (copying (job0 0x0000100000000200 64)) (job0 0x0000100000000200 64) = true
    ∧ copies (copying (job0 0x0000200000000200 0)) (job0 0x0000200000000200 0) = true ∧ copyIs (copyTake (copying (job0 0x0000200000000200 0)) (job0 0x0000200000000200 0) [64, 16, 4, 2, 1]) true = true
    ∧ (let j := job0 0x0000100000000200 0 [1, 2] 0x0000200000000100
      copies (copying j) j && copyIs (copyPut (copying j) j [64, 16, 4, 2, 1]) true) = true
    ∧ (let j := job0 0x0000100000000200 0
      copies (copying j) j && (match checkBuffer (copying j) 0 needLoad 1 512 64 1 with
      | .ok a => !a.isRemote && (homeRead (copying j) none a).1.length = 64 && match checkBuffer (dropAsks (homeRead (copying j) none a).2 (.copy 3)) 0 needStore 1 256 64 1 with
        | .ok b => !b.isRemote
        | _ => false
      | _ => false)) = true
    ∧ copies (copying (job0 0x0000100000000200 0) false) (job0 0x0000100000000200 0) = true
    ∧ copyIs (copyTake (copying (job0 0x0000100000000200 0) false) (job0 0x0000100000000200 0) [64, 16, 4, 2, 1]) false = true
    ∧ after (.copyComplete 3) (copying (job0 0x0000100000000200 0)) (fun t => t.copyJobs = [] && memRead t.mem 256 = 7 && (t.queue? 5).any (fun q => q.open' = [])) = true := by decide +kernel
def waiting0 (k : EntryKind) (st : QState) (arm : Bool) (bs : List (Nat × List Byte) := []) (clk : Nat := 0) : State :=
  { withQueue { queue0 st (some k) with armed := arm } bs with clk := clk, queues := [{ queue0 st (some k) with armed := arm }, { queue0 .idle none with qid := 6, ridx := 3 }] }
def heads (s : State) (st : QState) (arm : Bool) (k : EntryKind) : Bool :=
  (s.queue? 5).any (fun q => q.state = st && q.armed = arm && q.head = some ⟨0, false, k⟩ && ctxServes s q && q.sample.isNone && !heldBy s q ⟨0, false, k⟩)
def wait0 (c n : Nat) : EntryKind := .wait 0x0000100000000200 5 c n
theorem witness_QueueWork_conditions : [EntryKind.qfence [(6, 3)], .qfence [(7, 3)], wait0 0 0, .timed 0 9 0].all (fun k => [QState.ready, .held].all (fun st => heads (waiting0 k st false) st false k)) = true
    ∧ [EntryKind.qfence [(6, 3), (5, 0)], .qfence [(6, 4)], .timed 0 9 0].all (fun k => heads (waiting0 k .held true) .held true k) = true
    ∧ [wait0 0 1, wait0 1 1, wait0 2 1].all (fun k => [4, 5, 6].all (fun x => heads (waiting0 k .held true [(512, [x])]) .held true k && readsAs (waiting0 k .held true [(512, [x])]) 0x0000100000000200 8 8 (leBytes 8 x.toNat))) = true
    ∧ proHolds base 1 = false ∧ paced base 1 = false ∧ turns (.signal 0x0000100000000200 5) = true ∧ turns (.signal 0x0000200000000200 5) = true
    ∧ (match checkBuffer (turning (.signal 0x0000100000000200 5)) 0 needStoreImm 1 512 8 8, checkBuffer (turning .nop) 0 needStoreImm 2 512 8 8 with
      | .ok _, .bad _ _ => true
      | _, _ => false) = true
    ∧ [(Instr.qfenceRelease 5, EntryKind.qfence [(6, 3), (5, 0)]), (.timedRelease 5, .timed 0 9 0), (.waitRelease 5, wait0 2 1)].all (fun y =>
      after y.1 (waiting0 y.2 .held true [] 9) (fun t => (t.queue? 5).any (fun q => q.state ≠ .held))) = true
    ∧ after (.waitTimeout 5) (waiting0 (wait0 0 1) .held true [] 1000) (fun t => (t.queue? 5).any (fun q => q.state = .error && q.code = 6)) = true
    ∧ after (.signal 5) (turning (.signal 0x0000100000000200 5)) (fun t => leNat (memReadN t.mem 512 8) = 5 && (t.queue? 5).any (fun q => q.ridx = 1)) = true := by decide +kernel
/-- A sum of one 32-bit element of one source at offset 512 of buffer 1 to offset 768, among n ranks; as the engine holds it. -/
def collDesc (n : Nat) (kind : Byte := 0) : List Byte := [kind, 3, 0, 0] ++ leBytes 2 n ++ leBytes 2 0 ++ leBytes 8 1 ++ leBytes 8 0x0000100000004100 ++ leBytes 2 1 ++ [1, 0] ++ leBytes 4 0
  ++ leBytes 8 0x0000100000000200 ++ leBytes 8 4 ++ leBytes 8 0x0000100000000300 ++ leBytes 4 0 ++ leBytes 4 0
def coll0 (n : Nat) (own : Option (List Dword) := none) (out : Option (List Dword) := none) (acks : List Nat := []) (ranks : List Nat := List.replicate n 0) : CollJob :=
  ⟨5, 1, 0, 0, 0, 3, 0, n, 0, 1, 1, 0x0000100000000200, 4, 0x0000100000000300, 1, 0, ranks, [], false, [], acks, own, out⟩
/-- What a partner tells of it, the same or another count, and what comes with it. -/
def told (n count : Nat) : PeerShards := ⟨1, 0, false, [(1, ⟨0, 3, 0, count, n, List.replicate n 0⟩)], [], []⟩
/-- Port 7 is UP and leads to package 0. -/
def linked (s : State) : State := { s with ports := s.ports.set 7 ⟨.up, 4, 0, 0, 0, 0⟩, routes := [(0, 0x80)] }
def collecting (n : Nat) (j : CollJob := coll0 n) : State := linked { withQueue { queue0 .idle none with open' := [0] } [(512, [9])] with colls := [j] }
theorem witness_QueueWork_collectives : (let e : EntryKind := .collective 0x0000100000004000
      turns e [(16384, collDesc 2)] && turns e [(16384, collDesc 1 3)] && readsAs (turning e [(16384, collDesc 2)]) 0x0000100000004000 64 1 (collDesc 2)
      && decide ((parseColl (collDesc 2) (queue0 .ready (some e)) ⟨0, false, e⟩) = some (coll0 2 none none [] [])) && (parseColl (collDesc 1 3) (queue0 .ready (some e)) ⟨0, false, e⟩).isNone
      && readsAs (turning e [(16384, collDesc 2)]) 0x0000100000004100 4 1 (leBytes 4 0) && (coll0 2).reaches (linked (turning e [(16384, collDesc 2)])) && !(coll0 2).reaches (turning e [(16384, collDesc 2)]) && linkOpen (collecting 2)
      && readsAs (linked (turning e [(16384, collDesc 2)])) 0x0000100000004000 64 1 (collDesc 2) && readsAs (linked (turning e [(16384, collDesc 2)])) 0x0000100000004100 4 1 (leBytes 4 0) && turns e [(16384, collDesc 2)] (linked (turning e [(16384, collDesc 2)]))
      && after (.collective 5) (linked (turning e [(16384, collDesc 2)])) (fun t => decide (t.colls = [coll0 2]) && t.out.contains (.offer 1 0 (coll0 2).offer))) = true
    ∧ ctxLive (collecting 1) 0 = true ∧ (collecting 1).queue? 5 = some { queue0 .idle none with open' := [0] }
    ∧ (match localSums (collecting 1) (coll0 1) with
      | .ok own s1 => match writeOutput (coll0 1) (dropAsks s1 .coll) (collOutput (coll0 1) own []) with
        | .done t0 => leNat (memReadN t0.mem 768 4) = 9
        | _ => false
      | _ => false) = true
    ∧ (match localSums (collecting 2) (coll0 2) with
      | .ok own _ => own = [9, 0]
      | _ => false) = true
    ∧ (coll0 2).offer = ⟨0, 3, 0, 1, 2, [0, 0]⟩ ∧ ((coll0 2).take (told 2 1)).agreed = [1] ∧ ((coll0 2).take (told 2 5)).failed = true ∧ (coll0 1).allAgree = true ∧ (coll0 2).allAgree = false
    ∧ after (.collectiveComplete { told 2 1 with offers := [] }) (collecting 2) (fun t => decide (t.colls = [coll0 2] ∧ t.out = [])) = true
    ∧ after (.collectiveComplete (told 2 1)) (collecting 2) (fun t => t.colls.map (·.own) = [some [9, 0]] && t.out = [.contribution 1 0 [9, 0]]) = true
    ∧ after (.collectiveComplete (told 2 1)) (collecting 2 (coll0 2 (some [9, 0]))) (fun t => t.colls.map (·.own) = [some [9, 0]] && t.out.isEmpty) = true
    ∧ [([], 1), ([1], 0)].all (fun y => after (.collectiveComplete { told 2 1 with acks := y.1 }) (collecting 2 (coll0 2 (some [9, 0]) (some []))) (fun t => t.colls.length = y.2)) = true
    ∧ after (.collectiveComplete (told 2 5)) (collecting 2) (fun t => t.colls.isEmpty && (t.queue? 5).any (fun q => q.open' = [] && q.code = 4)) = true
    ∧ [true, false].all (fun a => after (.collectiveComplete ⟨1, 0, !a, [], [], []⟩) (collecting 1) (fun t => t.colls.isEmpty && (t.queue? 5).any (fun q => q.open' = [] && q.code = if a then 0 else 4))) = true := by decide +kernel
/-- A BOUND context whose queue has an entry to be read, and one whose queue has none. -/
theorem witness_Contexts_unbind : [(1, 1), (0, 0)].all (fun y => let s := (idle0 (halfBytes y.1)).modCtx 0 (fun c => { c with state := .bound })
      s.asks.isEmpty && s.queues.map (userWidx s) = [y.1] && (s.ctx? 0).any (fun x => x.state = .bound && !x.busy)
      && after (.ctxUnbind 0) s (fun t => t.out.head? = some (.status .ctxUnbind y.2))) = true := by decide +kernel
def shadow (ctx : Nat) (lp : Byte) : List Byte := leBytes 2 ctx ++ leBytes 2 5 ++ [4, 3, 2, lp] ++ leBytes 4 0 ++ leBytes 4 0 ++ leBytes 8 0x0000100000001000 ++ leBytes 8 0 ++ leBytes 32 0
theorem witness_QueueCommands : base.ctx? 9 = none ∧ byteField (shadow 9 5) 0 2 = 9 ∧ ((ctxIn .built).ctx? 0).any (fun c => c.state = .built) = true ∧ parseShadow (shadow 0 6) = none ∧ ctxLive base 0 = true
    ∧ (parseShadow (shadow 0 5)).any (fun q => q.qid = 5 && (base.ctx? 0).any (fun c => q.ppart &&& ~~~c.pset = 0)) = true ∧ base.queue? 5 = none ∧ ((turning .nop).queue? 5).isSome = true
    ∧ (∀ n < 6, base.lps[n]? = some LaunchProc.reset) ∧ after (.qCreate (shadow 0 5)) base (fun t => (t.queue? 5).any (fun q => q.lp = 5 && q.uref = 0x0000100000001000)) = true
    ∧ [true, false].all (fun skip => after (.qReset 5 skip) (withQueue (queue0 .error none) []) (fun t => (t.queue? 5).any (fun q => q.state = .idle && q.ridx = if skip then 1 else 0))) = true
    ∧ after (.qDestroy 5) (turning .nop) (fun t => (t.queue? 5).isNone) = true := by decide +kernel

/-! ### Pages -/

def bt0 : List Byte := [7, 3, 0, 0] ++ leBytes 4 0 ++ leBytes 8 (2 ^ 17) ++ leBytes 8 (2 ^ 18) ++ leBytes 8 0
def pageIn (st : PageState) (back : PageState := .resident) (target : Option Nat := none) (full : Bool := true) : State := { base with
  pages := base.pages.map (fun p => { p with state := st, back := back, target := target, dirty := full, inImage := decide (st = .expanding || st = .brined) }), brine := if st = .expanding then [⟨0, [(3, 9)]⟩] else [], brineNext := 64 }
theorem witness_Pages : base.ctx? 9 = none ∧ ((ctxIn .dead).ctx? 0).any (fun x => x.state = .dead) = true ∧ (base.ctx? 0).any (fun x => decide ((x.bt.find? (fun y => y.1 == 1)).map (·.2) = some stageEntry ∧ x.btcount = 2) && x.bt.all (fun y => y.1 ≠ 0)) = true
    ∧ (parseBt bt0).isSome = true ∧ parseBt [] = none ∧ (stageEntry.valid = true ∧ stageEntry.rvalid = false ∧ stageEntry.ptroot = 2 ^ 17)
    ∧ (base.page? (2 ^ 17) 0).any (fun p => p.state = .resident) = true ∧ base.page? (2 ^ 17) 1 = none ∧ frameFits stageEntry.ilv stageEntry.ilvsel (2 ^ 17) = true ∧ frameFits stageEntry.ilv stageEntry.ilvsel (2 ^ 36) = false
    ∧ Memory.wf base.mem = true
    ∧ [PageState.migrating, .expanding, .brined].all (fun st => ((pageIn st).page? (2 ^ 17) 0).any (fun p => p.state = st)) = true
    ∧ after (.btSet 0 0 bt0) base (fun t => (t.ctx? 0).any (fun x => x.bt.length = 2)) = true ∧ after (.pgMap 0 1 1 (2 ^ 17) false) base (fun t => (t.page? (2 ^ 17) 1).any (fun p => p.loc = 2 ^ 17)) = true
    ∧ after (.pgUnmap 0 1 0) base (fun t => (t.page? (2 ^ 17) 0).isNone && t.out = [.returned 0, .status .pgUnmap 0, .irqCommand]) = true
    ∧ after (.pgScan 0 1 0 2 true) (pageIn .resident) (fun t => t.out.head? = some (.scan [(true, false), (false, false)])) = true := by decide +kernel
theorem witness_Pages_quiet : quiet base (2 ^ 17) 0 := ⟨by decide +kernel, by decide +kernel, by decide +kernel, by decide +kernel, by decide +kernel⟩
theorem witness_Pages_motion : ((pageIn .migrating .brined).page? (2 ^ 17) 0).any (fun p => p.state = .migrating && p.back = .brined && p.ilv ≠ 4) = true ∧ ckptReads (pageIn .migrating .brined) (2 ^ 17) 0 = false
    ∧ ((pageIn .migrating .resident (some (2 ^ 18))).page? (2 ^ 17) 0).any (fun p => p.state = .migrating && p.target = some (2 ^ 18)) = true
    ∧ ((pageIn .expanding .resident (some (2 ^ 18))).page? (2 ^ 17) 0).any (fun p => p.state = .expanding && p.target = some (2 ^ 18)) = true
    ∧ (pageIn .expanding .resident (some (2 ^ 18))).brine.find? (fun y => y.addr == 0) = some ⟨0, [(3, 9)]⟩ ∧ Memory.wf [(3, 9)] = true
    ∧ after (.pgBrine 0 1 0) base (fun t => (t.page? (2 ^ 17) 0).any (fun p => p.state = .migrating && p.back = .brined)) = true
    ∧ after (.expansionDone (2 ^ 17) 0) (pageIn .expanding .resident (some (2 ^ 18))) (fun t => memRead t.mem (2 ^ 18 + 3) = 9 && (t.page? (2 ^ 17) 0).any (fun p => p.state = .resident && p.loc = 2 ^ 18)) = true := by
  decide +kernel
def ckpt0 (reading : Bool) (ps : List (Nat × Nat × Nat)) : State := { pageIn (if reading then .migrating else .resident) with ckpt := some ⟨0, ps, reading, false, [], 0x0000200000000000⟩ }
/-- Buffer 2 lies on a peer. -/
def peered : State := (pageIn .resident).modCtx 0 (fun c => { c with btcount := 3, bt := c.bt ++ [(2, { stageEntry with rvalid := true, ptroot := 0, peer := 3 })] })
theorem witness_Checkpoints : ctxLive peered 0 = true ∧ peered.ckpt = none ∧ (btEntry? peered 0 2).any (fun e => e.rvalid && e.wr) = true ∧ peered.pages.filter (fun y => y.root == 2 ^ 17) = peered.pages
    ∧ peered.pages.map (fun p => (p.root, p.page, p.state, p.dirty)) = [(2 ^ 17, 0, .resident, true)] ∧ (pageIn .resident .resident none false).pages.map (·.dirty) = [false]
    ∧ after (.ckpt 0 [1] 0x0000200000000000 false) peered (fun t => t.ckpt.any (fun j => j.reading && j.pages = [(1, 2 ^ 17, 0)])) = true
    ∧ ((ckpt0 true [(1, 2 ^ 17, 0)]).page? (2 ^ 17) 0).any (fun p => p.state = .migrating && p.back = .resident && p.ilv ≠ 4) = true
    ∧ after .ckptPageRead (ckpt0 true [(1, 2 ^ 17, 0)]) (fun t => t.ckpt.any (fun j => !j.reading && j.pages.isEmpty)) = true
    ∧ after .ckptComplete (ckpt0 false []) (fun t => t.ckpt.isNone) = true ∧ after .ckptComplete (ckpt0 false [(1, 2 ^ 17, 0)]) (fun t => t.ckpt.isSome) = true := by decide +kernel

/-- A checkpoint of two buffers, of which buffer 2 lies on a peer and lists nothing. -/
theorem witness_Checkpoints_list (x : Context) (hx : x.bt = [(1, stageEntry), (2, { stageEntry with rvalid := true, ptroot := 0, peer := 3 })]) (p : PageEntry)
    (hp : p.root = 2 ^ 17 ∧ p.page = 0) (i r g : Nat) :
    (i, r, g) ∈ [(1, 2 ^ 17, 0)] ↔ i ∈ [1, 2] ∧ ∃ e, holdsBt x i e ∧ e.rvalid = false ∧ r = e.ptroot ∧ ∃ y ∈ [p], y.root = r ∧ y.page = g := by
  have h1 : holdsBt x 1 stageEntry := by simp [holdsBt, hx]
  constructor
  · simp only [List.mem_singleton, Prod.mk.injEq]
    rintro ⟨rfl, rfl, rfl⟩
    exact ⟨by simp, stageEntry, h1, rfl, rfl, p, by simp, hp⟩
  · rintro ⟨hi, e, he, hv, rfl, y, hy, h2, h3⟩
    simp only [List.mem_cons, List.not_mem_nil, or_false] at hi hy
    rcases hi with rfl | rfl
    · have : e = stageEntry := by simpa [holdsBt, hx, eq_comm] using he
      subst this
      subst hy
      rw [← h3, hp.2]
      exact List.mem_singleton.2 rfl
    · have : e = { stageEntry with rvalid := true, ptroot := 0, peer := 3 } := by simpa [holdsBt, hx, eq_comm] using he
      subst this
      cases hv
def ckptAt (st back : PageState) (inImage reading full dirty : Bool) : State := let s := peered
  { s with pages := s.pages.map (fun p => { p with state := st, back := back, inImage := inImage, dirty := dirty, loc := 0 }), brine := if inImage then [⟨0, [(3, 9)]⟩] else [],
           ckpt := some ⟨0, [(1, 2 ^ 17, 0)], reading, full, [], 0x0000200000000000⟩ }
theorem witness_Checkpoints_pages : (peered.ctx? 0).any (fun x => decide (x.bt.map (·.1) = [1, 2] ∧ x.btcount = 3)) = true
    ∧ after .ckptPageRead (ckptAt .poisoned .resident false false true true) (fun t => t.ckpt.any (fun j => j.pages.isEmpty && j.skipped = [(1, 0)])) = true
    ∧ [PageState.expanding, .migrating].all (fun st => after .ckptPageRead (ckptAt st .resident false false true true) (fun t => t.ckpt = (ckptAt st .resident false false true true).ckpt)) = true
    ∧ [PageState.resident, .brined].all (fun st => after .ckptPageRead (ckptAt st .resident (st = .brined) false false false) (fun t => t.ckpt.any (fun j => j.pages.isEmpty && j.skipped.isEmpty))
      && after .ckptPageRead (ckptAt st .resident (st = .brined) false false true) (fun t => t.ckpt.any (fun j => j.reading) && t.pages.map (fun p => (p.state, p.back)) = [(.migrating, st)])) = true
    ∧ (let s := ckptAt .migrating .brined true true true true
      s.brine.find? (fun y => y.addr == 0) = some ⟨0, [(3, 9)]⟩ ∧ after .ckptPageRead s (fun t => t.out = [.pageImage (3, stageEntry.pctx, stageEntry.pidx) 0 1 0 [(3, 9)] true]) = true)
    ∧ after .ckptPageRead (ckptAt .poisoned .resident false true true true) (fun t => t.ckpt.any (fun j => !j.reading && j.skipped = [(1, 0)])) = true := by decide +kernel

/-! ### The link, the host port and the device -/

def portIn (st : PortState) (lanes : Nat := 4) : State := { base with ports := base.ports.set 7 ⟨st, lanes, 0, 0, 0, 0⟩, routes := [(3, 0x80)] }
theorem witness_Ports : base.ports[8]? = none ∧ [PortState.down, .training, .up, .degraded, .retraining, .fenced, .isolated].all (fun st => ((portIn st).ports[7]?).any (fun p => p.state = st)) = true
    ∧ [1, 4].map upWith = [(PortState.degraded, 1), (.up, 4)] ∧ after (.linkEnable 7) (portIn .down) (fun t => (t.ports[7]?).any (fun p => p.state = .training)) = true
    ∧ after (.trainingDone 7 3) (portIn .training) (fun t => (t.ports[7]?).any (fun p => p.state = .degraded && p.lanes = 2)) = true
    ∧ after (.linkError 7) (portIn .up) (fun t => (t.ports[7]?).any (fun p => p.state = .retraining)) = true := by decide +kernel
/-- The pair v8:v9 and k8 name offset 256 of buffer 2, which lies on a peer; with what thread 0 has asked there. -/
def remote0 : State := withK (withV { peered with ports := (portIn .up).ports, routes := [(3, 0x80)] } [(8, 256), (9, 0x2000)]) 8 0x0000200000000100
def asked (n : Nat) (ans : Option (List Byte × Nat)) : State :=
  { remote0 with asks := [⟨.thread t0, 0, 3, stageEntry.pctx, stageEntry.pidx, 256, .read n, ans⟩] }
def goesFar (s : State) (i : Instr) (f : Mem) (need : Need) (n : Nat) (P : Answer → Bool) (r : Rd) : Bool :=
  match checkRef (atIssue s t0 (formOf i)) r.c.ctx need (r.x64 f.a) (indexed f r) n with
  | .ok a => a.isRemote && a.blocks.all (fun b => !(inFlightBlocks (atIssue s t0 (formOf i)) t0).contains b) && (a.store.head?).isSome
      && P (answerOf (atIssue s t0 (formOf i)) (.thread t0) a (.read a.size)) && decide (r.q.trap = .idle)
  | _ => false
def unasked : Answer → Bool
  | .unasked => true
  | _ => false
def answerOpen : Answer → Bool
  | .open' => true
  | _ => false
def answerData : Answer → Bool
  | .data _ => true
  | _ => false
def answerBad : Answer → Bool
  | .bad _ => true
  | _ => false
/-- Loads, immediate stores and atomics send a request to port 7 and hold the thread; a phased store stalls until the peer has answered. -/
theorem witness_GlobalAccess_peer : [(Instr.ld (m 4), m 4, needLoad, 16), (.ld (m 3 1), m 3 1, needLoadImm, 8), (.ld (m 9 2), m 9 2, needLoadImm, 2),
      (.ldw (m 1), m 1, needLoad, 128), (.st (ms 0 1), ms 0 1, needStoreImm, 1), (.atom (at'), at', needAtomic, 4), (.cas (at' 0 5), at' 0 5, needAtomic, 8),
      (.red (rd' 7 2), rd' 7 2, needAtomic, 4)].all (fun x => laneWhen remote0 x.1 (goesFar remote0 x.1 x.2.1 x.2.2.1 x.2.2.2 unasked)) = true
    ∧ stepWhen remote0 (.uld kM) (goesFar remote0 (.uld kM) kM needLoad 4 unasked) = true
    ∧ [(Instr.st (ms 4), ms 4, 16), (.stw (ms 1), ms 1, 128)].all (fun x => laneWhen remote0 x.1 (goesFar remote0 x.1 x.2.1 needStore x.2.2 unasked)
      && laneWhen (asked x.2.2 none) x.1 (goesFar (asked x.2.2 none) x.1 x.2.1 needStore x.2.2 answerOpen)
      && laneWhen (asked x.2.2 (some ([], 0))) x.1 (goesFar (asked x.2.2 (some ([], 0))) x.1 x.2.1 needStore x.2.2 answerData)
      && laneWhen (asked x.2.2 (some ([], 9))) x.1 (goesFar (asked x.2.2 (some ([], 9))) x.1 x.2.1 needStore x.2.2 answerBad)) = true
    ∧ [none, some ([], 0), some ([], 9)].all (fun ans => stepWhen (asked 4 ans) (.ust kS) (goesFar (asked 4 ans) (.ust kS) kS needStore 4 (fun a => !unasked a))) = true := by
  decide +kernel
theorem test_peer_load : after (.ld (m 4)) remote0 (fun t => (t.thread? t0).any (fun th => th.state = .stalled && th.wait = some (.remote remote0.nextId))
      && t.remote.any (fun q => q.sent && q.port = 7 && q.peer = 3 && q.off = 256 && q.op = .read 16)) = true := by decide +kernel
theorem test_peer_store : after (.st (ms 4)) (asked 16 (some ([], 0))) (fun t => t.asks.isEmpty && (t.cell? 1).any (fun c => c.view.length = 16)
      && (t.thread? t0).any (fun th => th.state = .ready)) = true := by decide +kernel
def peerReq (op : PeerOp) (pidx : Nat := 1) : PeerRequest := ⟨3, 7, 9, 0, pidx, 512, op, 0⟩
def filtered (clk : Nat) : State := { portIn .up with filter := [⟨3, 7, 9, [5], 0, 0⟩], clk := clk }
def answering (d : Code) : State := { onThread (portIn .up) (fun th => { th with state := .stalled, wait := some (.remote 4) }) with
  remote := [⟨4, 3, 7, 9, 0, 1, 512, .read 4, .load t0 0 d 4 false false false [], 0, true⟩] }
theorem witness_PeerRequests : [(portIn .up), { portIn .up with blocksDown := [6] }].map linkRuns = [true, false] ∧ [(portIn .up), (portIn .fenced), (portIn .down), { portIn .up with blocksDown := [6] }].map (fun s => (accepts s 7, hears s 7))
      = [(true, true), (false, true), (false, false), (false, false)] ∧ accepts (portIn .up) 8 = false
    ∧ flyingTag (portIn .up) (peerReq (.write [1])) = false ∧ filterFull (portIn .up) = false ∧ [(portIn .up), (portIn .fenced), (portIn .down)].map (fun s => (s.ports[7]?).map (·.state)) = [some .up, some .fenced, some .down]
    ∧ filterHit (filtered 99999) (peerReq (.write [1])) = some ⟨3, 7, 9, [5], 0, 0⟩ ∧ filterHit (portIn .up) (peerReq (.write [1])) = none ∧ opOrdered (.write [1]) = true
    ∧ (match peerCheck (portIn .up) (peerReq (.write [1])), peerCheck (portIn .up) (peerReq (.read 4)), peerCheck (portIn .up) (peerReq (.read 4) 2) with
      | .ok _, .ok _, .bad _ _ => true
      | _, _, _ => false) = true
    ∧ portsFor (portIn .up) 3 = [7] ∧ ((answering 4).remote.find? (fun x => x.id == 4)).any (fun r => r.sent && r.peer = 3) = true
    ∧ ((answering 4).thread? t0).any (fun th => th.wait = some (.remote 4) && th.state = .stalled && th.heldWait = none) = true ∧ ((answering 4).squad? 1 0).any (fun q => q.trap = .idle) = true
    ∧ after (.remoteRequestArrival ⟨7, peerReq .foreign⟩) (portIn .up) (fun t => t.out = [.errorResponse 3 7 9]) = true ∧ opOrdered (.read 4) = false
    ∧ after (.remoteRequestArrival ⟨7, peerReq (.write [1])⟩) (portIn .up) (fun t => memRead t.mem 512 = 1 && t.filter.length = 1) = true
    ∧ after (.remoteResponse ⟨7, ⟨7, 9, leBytes 4 258, 0⟩⟩) (answering 4) (fun t => (t.thread? t0).any (fun th => th.v.getD 4 0 = 258 && th.state = .ready) && t.remote = []) = true
    ∧ after (.remoteResponse ⟨7, ⟨7, 9, [], 3⟩⟩) (answering 4) (fun t => (t.thread? t0).any (fun th => th.state = .stopped)) = true
    ∧ after (.remoteRetransmit 4) { answering 4 with clk := 50000 } (fun t => t.out.length = 1) = true := by decide +kernel
/-- An entry of the handler table that sends and receives, with 16 lane registers, for the kernel's own descriptor and offset 64. -/
def ambase : State := let s := (accessed (portIn .up)).modCtx 0 (fun c => { c with amtab := 0x0000100000006000 })
  { s with mem := memWriteL [] 24576 (leBytes 2 0 ++ [0, 0x13] ++ leBytes 8 0 ++ leBytes 4 64), kernels := s.kernels.map (fun k => { k with state := .running }) }
def amf : Ext := { e1 0 0x0100 with d := 0, a := ⟨8, 0, 0⟩, b := ⟨10, 0, 0⟩ }
def msg0 (seq : Word := 0) : AmMessage := ⟨3, 0, seq, 0, 0, 0, false, 5, 6, 1, [77]⟩
def pack0 (seq : Word := 0) : AmPacket := ⟨7, 7, 9, msg0 seq⟩
def windowed (at' : Nat) (g : Option Nat) (clk : Nat) : State := { ambase with window := [⟨7, msg0, at', g⟩], clk := clk, nextId := 50 }
theorem witness_ActiveMessages : laneWhen (withV ambase [(8, 3)]) (.amsend amf) (fun r => let s := atIssue (withV ambase [(8, 3)]) t0 (formOf (.amsend amf))
      (s.ctx? r.c.ctx).any (fun x => match amEntry s x 0 with
        | .ok a => let b := (phasedRead s 1 a).1
          let s1 := releaseAt (phasedRead s 1 a).2 1 5
          (byteField b 3 1).testBit 0 && portsFor s 3 = [7] && portsFor s1 3 = [7] && !accessesOpen s t0 && !publishedOpen s1 1 && s.credits ≠ 0 && r.q.handler.isNone
        | _ => false) && decide ((r.x64 amf.a).toNat % 2 ^ 16 = 3)) = true
    ∧ (ambase.ports[7]?).any (fun p => p.state = .up) = true ∧ ((portIn .down).ports[7]?).any (fun p => p.state = .down) = true ∧ counter ambase.amSeqIn (pairKey 3 5 0 0 0) = 0
    ∧ (match amDest ambase (msg0), amDest (portIn .up) (msg0) with
      | .to (some 1) 16 64, .drop => true
      | _, _ => false) = true
    ∧ purgeWindow (windowed 0 none 64) = windowed 0 none 64 ∧ waitingFor (windowed 0 none 64) 1 0 = [⟨7, msg0, 0, none⟩] ∧ waitingFor (windowed 0 (some 8) 64) 1 0 = [⟨7, msg0, 0, some 8⟩]
    ∧ purgeWindow (windowed 0 (some 8) 64) = windowed 0 (some 8) 64 ∧ (ambase.cell? 1).any (fun c => c.resident && c.state = .running && (useOf (coreCells ambase c.core)).squads < 32
      && laneBytes ambase c.core + 128 * 16 ≤ 2 ^ 20) = true ∧ overtakes (windowed 0 (some 8) 64) 8 = false
    ∧ after (.amArrival (pack0)) ambase (fun t => t.window.length = 1) = true ∧ after (.amBatchTimeout 1 0) (windowed 0 none 64) (fun t => t.window.map (·.group) = [some 50]) = true
    ∧ after (.handlerSquadStart 1 0) (windowed 0 (some 8) 64) (fun t => t.window = [] && (t.squad? 1 1).any (fun q => q.handler = some 0 && (q.threads[0]?).any (fun th =>
      th.pc = 64 && th.v.take 12 = [77, 0, 0, 0, 0, 0, 0, 0, 3, 5, 6, 1]))) = true := by decide +kernel

/-- A message again, one behind and one ahead of its turn, at a full filter, at a full window, and a reply there; one that is dropped, and the last that a group takes. -/
theorem witness_ActiveMessages_turns : filterHit { ambase with filter := [⟨3, 7, 9, [5], 0, 0⟩] } (packetRequest (pack0)) = some ⟨3, 7, 9, [5], 0, 0⟩ ∧ filterHit ambase (packetRequest (pack0)) = none
    ∧ linkRuns ambase = true ∧ linkRuns { ambase with blocksDown := [6] } = false ∧ messageAhead ambase (pack0 0xFFFFFFFF) = 0xFFFFFFFF ∧ messageAhead ambase (pack0 1) = 1 ∧ messageAhead ambase (pack0) = 0
    ∧ filterFull ambase = false
    ∧ after (.amArrival (pack0 0xFFFFFFFF)) ambase (fun t => t.window.isEmpty && t.out = [.response 3 ⟨7, 9, [], 0⟩]) = true
    ∧ after (.amArrival (pack0 1)) ambase (fun t => t.window.isEmpty && t.out.isEmpty) = true
    ∧ after (.amArrival (pack0)) (portIn .up) (fun t => t.window.isEmpty && t.filter.length = 1) = true
    ∧ after (.amArrival (pack0)) { ambase with window := List.replicate 31 ⟨7, msg0, 0, none⟩ } (fun t => t.window.all (fun w => w.group.isSome)) = true := by decide +kernel
theorem witness_ActiveMessages_full (s : State) : filterFull { s with filter := List.replicate 8192 ⟨3, 7, 8, [], 0, 0⟩ } = true
    ∧ 8192 ≤ (({ s with window := List.replicate 8192 ⟨7, msg0, 0, none⟩ } : State).window.filter (fun w => !w.msg.reply)).length := by
  constructor
  · simp only [filterFull, List.length_replicate, decide_eq_true_eq]
    omega
  · show 8192 ≤ ((List.replicate 8192 (⟨7, msg0, 0, none⟩ : Waiting)).filter (fun w => !w.msg.reply)).length
    rw [List.filter_replicate, if_pos (by decide), List.length_replicate]

def window0 (flags : Byte) : List Byte := [flags, 0] ++ leBytes 2 0 ++ leBytes 4 1 ++ leBytes 8 0
def windows0 : State := { portIn .up with windows := [⟨0, true, true, true, 0, 1, 0⟩], bootStep := 7, clk := 10000000 }
theorem witness_HostPort : parseWin 511 (window0 8) = none ∧ (parseWin 511 (window0 7)).isSome = true ∧ base.bootStep < 7 ∧ base.windows = []
    ∧ (match hostCheck windows0 needLoadImm WinEntry.rd 512 4, hostCheck windows0 needStoreImm WinEntry.wr 512 4, hostCheck windows0 needStoreImm WinEntry.wr (2 ^ 27) 4 with
      | .ok _, .ok _, .bad _ _ => true
      | _, _, _ => false) = true
    ∧ after (.hostWrite 512 [6]) windows0 (fun t => memRead t.mem 512 = 6) = true ∧ after (.hostRead 512 4) windows0 (fun t => t.out = [.data [0, 0, 0, 0]]) = true
    ∧ after .hostConfigRequest windows0 (fun t => t.out.length = 1) = true := by decide +kernel

/-- A configuration record of one core, and flash that holds it with an image of each type; whether the signatures verify is the device's (log entry 23). -/
def record0 : List Byte := leBytes 4 0x43533943 ++ leBytes 4 0 ++ leBytes 8 1 ++ leBytes 18 1 ++ leBytes 2 0 ++ leBytes 6 0 ++ leBytes 4 5 ++ leBytes 4 100 ++ leBytes 2 50 ++ leBytes 460 0
theorem witness_BringUp : recordOk [] = false ∧ (imageKeyVerifies (sha384 (record0.take 416)) (record0.drop 416) = true → recordOk record0 = true) ∧ State.reset.bootStep = 0
    ∧ State.reset.bootFailed = false ∧ State.reset.upsets = [] ∧ State.reset.mlog = [] ∧ pickImage State.reset 1 = none ∧ base.bootStep = 0 ∧ windows0.bootStep ≠ 0 := by
  refine ⟨by decide +kernel, fun h => ?_, rfl, rfl, rfl, rfl, rfl, by decide +kernel, by decide +kernel⟩
  simp only [recordOk, h, Bool.and_true]
  decide +kernel
theorem witness_BringUp_images (s : State) (i : Nat → Image) (hf : s.flash = ⟨record0, ⟨some (i 1), none⟩, ⟨none, some (i 2)⟩, ⟨some (i 3), none⟩, none, []⟩)
    (h : ∀ n ∈ [1, 2, 3], imageOk s n (i n) = true) : ∀ n ∈ [1, 2, 3], (pickImage s n).isSome = true := by
  intro n hn
  have h' := h n hn
  simp only [List.mem_cons, List.not_mem_nil, or_false] at hn
  rcases hn with rfl | rfl | rfl <;> simp [pickImage, slotsOf, hf, h', Option.filter]
def hearted (at' : Nat) (re : Option Nat) : State := { windows0 with hearts := [⟨6, at', re⟩] }
theorem witness_Reliability : pickImage base 1 = none ∧ pickImage base 2 = none ∧ pickImage base 3 = none
    ∧ [(0, none), (1, none), (0, some 1)].all (fun y => ((hearted y.1 y.2).hearts.find? (fun x => x.block = 6)) = some ⟨6, y.1, y.2⟩) = true
    ∧ base.upsets = [] ∧ windows0.bootStep = 7 ∧ windows0.blocksDown = [] ∧ (base.pages.all (fun p => p.state = .resident && p.loc = 0 && p.ilv ≠ 4) && base.terms.isEmpty && base.batches.isEmpty) = true ∧ base.pages.length = 1
    ∧ (base.cell? 1).any (fun c => c.core / 24 = 0 && c.place ≠ .parked && c.state ≠ .exited && (base.ctx? c.ctx).any (fun x => x.state = .running)) = true
    ∧ after (.heartbeatTimeout 6) (hearted 0 (some 1)) (fun t => t.ports.all (fun p => p.state = .isolated)) = true
    ∧ after (.sectorReset 0) base (fun t => (t.ctx? 0).any (fun x => x.state = .faulted)) = true
    ∧ after (.fwReload 18) base (fun t => t.blocksDown = [18] && t.out = [.status .fwReload 3, .irqCommand]) = true
    ∧ after (.scrub 0) { windows0 with upsets := [.frame 0] } (fun t => t.pages.map (·.state) = [.poisoned]) = true := by decide +kernel
theorem witness_DeviceRegisters : (leBytes 48 5).length = 48 ∧ base.identity = none ∧ base.stretched = 0 ∧ base.errlog = [] ∧ ({ base with stretched := 1#6 <<< 5 } : State).stretched.getLsbD 5 = true
    ∧ after (.droopDetect 5) base (fun t => t.stretched.getLsbD 5 && t.stretches = [0, 0, 0, 0, 0, 1]) = true
    ∧ after (.csrSet .mxidle (2 ^ 32 - 1)) base (fun t => t.cores.all (fun k => k.mxidle = 2 ^ 32 - 1)) = true ∧ after (.csrSet .reserve (2 ^ 32)) base (fun t => t.out.head? = some (.status .csrSet 2)) = true
    ∧ after .errorLogRead { base with errlog := [⟨1, 2, 3, 4, 5, 6⟩] } (fun t => t.errlog.isEmpty && t.logRead = 1) = true := by decide +kernel

/-! ### Forms with a check of their own, and bundles that access memory -/

def gOff (f : Ext) : Ext := { f with g := ⟨false, 1⟩ }
theorem witness_GuardsAndFollowers_own : [(base, Instr.yield (gOff (z0 0x40C0))), (base, .wlambda (gOff { e1 1 with d := 62 })), (base, .mxmE4m3 (gOff (mx 24))),
      (base, .mxmE5m2 (gOff (mx 1))), (base, .mxmE2m1 (gOff (mx 1))), (base, .mxmI8g (gOff (mx 1))), (base, .mxmI4g (gOff (mx 1))), (base, .mxmBf16 (gOff (mx 1))), (base, .mxmF16 (gOff (mx 1))),
      (base, .swFadd { swb with g := ⟨false, 1⟩ }), (base, .atom { at' with g := ⟨false, 1⟩ }), (base, .bararv (gOff (arv))), (base, .trace (gOff (e1))), (base, .specup (gOff spu)),
      (base, .mxbld (gOff (mxBuild 3))), (base, .tcopy (gOff (tc 0))), (base, .vote (gOff { e1 3 with a := ⟨1, 0, 0⟩ }))].all
    (fun y => skipWhen y.1 y.2 && decide (ownCause y.2 (issuedOnce y.1) t0 = none)) = true := by decide +kernel
/-- Two threads at offsets 256 and 260 of buffer 1, and of the scratch. -/
def gpair (s : State) (hi : Word) : State := paired (pair.foldl (fun s t => s.modThread t (fun th => { th with v := (th.v.set 8 (256 + 4 * word t.lane)).set 9 hi })) s)
theorem witness_GlobalAccess_bundles : [Instr.lds (m 2), .sts (ms 2)].all (fun i => togetherWhen (gpair base 0) pair i (fun r => fits (m 2) r 4)) = true
    ∧ [(Instr.ld (m 2), m 2, needLoad), (.st (ms 2), ms 2, needStore), (.ld (m 2 2), m 2 2, needLoadImm), (.st (ms 2 1), ms 2 1, needStoreImm)].all (fun y => togetherWhen (gpair base 0x1000) pair y.1 (fun r =>
      (match checkRef (issuedOnce (gpair base 0x1000)) r.c.ctx y.2.2 (r.x64 y.2.1.a) (indexed y.2.1 r) 4 with
      | .ok a => !a.isRemote && a.blocks.all (fun b => !(inFlightBlocks (issuedOnce (gpair base 0x1000)) r.t).contains b)
      | _ => false) && !r.addrTaint y.2.1)) = true
    ∧ after (.sts (ms 2)) (gpair base 0) (fun t => (t.cell? 1).any (fun c => memRead c.scratch 256 = 0)) = true := by decide +kernel

/-! ### Numbers -/

theorem f32_one : f32 0x3F800000 = .fin false 0x800000 (-23) := by decide
theorem f32_minus : f32 0xBF800000 = .fin true 0x800000 (-23) := by decide
theorem f32_zero : f32 0 = .fin false 0 (-149) := by decide
theorem value_one : value32 0x3F800000 = 1 := by simp only [value32, f32_one, value]; norm_num
theorem value_minus : value32 0xBF800000 = -1 := by simp only [value32, f32_minus, value]; norm_num
theorem value_zero : value32 0 = 0 := by simp only [value32, f32_zero, value]; norm_num
theorem witness_Floats_nearest : finite32 0x3F800000 ∧ finite32 0xBF800000 ∧ finite32 0 ∧ value32 0x3F800000 ≠ 0 ∧ 0 ≤ value32 0x3F800000 ∧ 0 ≤ value32 0
    ∧ |((value32 0x3F800000 + value32 0xBF800000 : ℚ) : ℝ)| < 2 ^ 128 - 2 ^ 103 := by
  refine ⟨⟨_, _, _, f32_one⟩, ⟨_, _, _, f32_minus⟩, ⟨_, _, _, f32_zero⟩, ?_, ?_, ?_, ?_⟩ <;> norm_num [value_one, value_minus, value_zero]
theorem f32_two : f32 0x40000000 = .fin false 0x800000 (-22) := by decide
theorem f32_half : f32 0x3F000000 = .fin false 0x800000 (-24) := by decide
theorem value_two : value32 0x40000000 = 2 := by simp only [value32, f32_two, value]; norm_num
theorem value_half : value32 0x3F000000 = 1 / 2 := by simp only [value32, f32_half, value]; norm_num
theorem witness_TranscendentalsAndHalves_listed : isNaN (f32 0x7FC00000) = true ∧ isNaN (f32 0x7F800001) = true
    ∧ |value32 0x40000000| = 2 ^ (1 : ℤ) ∧ value32 0x40000000 * value32 0x3F000000 = 1 ∧ value32 0x3F800000 = 2 ^ (2 * (0 : ℤ)) ∧ value32 0x3F800000 = 2 ^ (-(0 : ℤ))
    ∧ value32 0x3F800000 = (1 : ℤ) ∧ value32 0x40000000 = 2 ^ (1 : ℤ) ∧ value32 0x3F800000 = 2 ^ (0 : ℤ) ∧ value32 0 = (0 : ℤ) ∧ value32 0xBF800000 < 0
    ∧ value32 0x3F000000 = (0 : ℤ) + 1 / 2 ∧ listed .rcp (f32 0x40400000) = none := by
  refine ⟨by decide, by decide, ?_, ?_, ?_, ?_, ?_, ?_, ?_, ?_, ?_, ?_, by decide⟩ <;> norm_num [value_one, value_minus, value_zero, value_two, value_half]
theorem witness_TranscendentalsAndHalves_ends : 128 ≤ value32 0x43000000 ∧ value32 0xC3160000 ≤ -150 := by
  have h : f32 0x43000000 = .fin false 0x800000 (-16) := by decide
  have h' : f32 0xC3160000 = .fin true 0x960000 (-16) := by decide
  constructor <;> simp only [value32, h, h', value] <;> norm_num

/-! ### The tests of a walk -/

theorem names_exact {x : Nat} (hx : x < 2 ^ 32) (hf : finite32 (word x)) (hb : |((value32 (word x) : ℚ) : ℝ)| < 2 ^ 128 - 2 ^ 103) : Names x (value32 (word x)) := by
  refine ⟨hf, hx, fun _ => ⟨hf, fun c _ => ?_⟩, fun h => absurd hb (not_lt.2 h)⟩
  rcases eq_or_ne (value32 c) (value32 (word x)) with h | h
  · exact .inr ⟨by rw [h], .inr h⟩
  · left
    rw [sub_self, abs_zero, abs_pos, sub_ne_zero]
    exact fun h' => h (by exact_mod_cast h'.symm)
theorem names_one : Names 0x3F800000 1 := value_one ▸ names_exact (by norm_num) ⟨_, _, _, f32_one⟩ (by rw [show word 0x3F800000 = 0x3F800000 from rfl, value_one]; norm_num)
theorem names_minus : Names 0xBF800000 (-1) := value_minus ▸ names_exact (by norm_num) ⟨_, _, _, f32_minus⟩ (by rw [show word 0xBF800000 = 0xBF800000 from rfl, value_minus]; norm_num)
theorem names_zero : Names 0 0 := value_zero ▸ names_exact (by norm_num) ⟨_, _, _, f32_zero⟩ (by rw [show word 0 = 0 from rfl, value_zero]; norm_num)

/-- A ray from the origin along z, and the triangle (0,0,1), (1,0,1), (0,1,1) in front of it. -/
def ray : TraceRec := { rec0 1 1 with dir := [0, 0, 0x3F800000] }
def corners : List Nat := [0, 0, 0x3F800000, 0x3F800000, 0, 0x3F800000, 0, 0x3F800000, 0x3F800000]
def at3 (l : List Nat) (i : Nat) : Nat := l.getD i 0
/-- The quantities of the test on it are exact, and it is hit at t = 1. -/
theorem witness_Traversal_triangle : let num (n : Nat) : ℚ := value32 (word n)
    (∀ i < 3, finite32 (word (at3 ray.org i)) ∧ finite32 (word (at3 ray.dir i)) ∧ ∀ k < 3, finite32 (word (at3 corners (3 * k + i))))
    ∧ (∀ i < 3, Names (at3 [0x3F800000, 0, 0] i) (num (at3 corners (3 * 1 + i)) - num (at3 corners (3 * 0 + i)))
        ∧ Names (at3 [0, 0x3F800000, 0] i) (num (at3 corners (3 * 2 + i)) - num (at3 corners (3 * 0 + i))) ∧ Names (at3 [0, 0, 0xBF800000] i) (num (at3 ray.org (i % 3)) - num (at3 corners (3 * 0 + i))))
    ∧ (∀ i < 3, Names (at3 [0xBF800000, 0, 0] i) (num (at3 ray.dir ((i + 1) % 3)) * num (at3 [0, 0x3F800000, 0] ((i + 2) % 3)) - num (at3 ray.dir ((i + 2) % 3)) * num (at3 [0, 0x3F800000, 0] ((i + 1) % 3)))
        ∧ Names (at3 [0, 0xBF800000, 0] i) (num (at3 [0, 0, 0xBF800000] ((i + 1) % 3)) * num (at3 [0x3F800000, 0, 0] ((i + 2) % 3)) - num (at3 [0, 0, 0xBF800000] ((i + 2) % 3)) * num (at3 [0x3F800000, 0, 0] ((i + 1) % 3))))
    ∧ ray.cullBack = false ∧ (triTest ray corners false).map (·.1) = some 0x3F800000 := by
  have f1 : finite32 (word 0x3F800000) := ⟨_, _, _, f32_one⟩
  have f0 : finite32 (word 0) := ⟨_, _, _, f32_zero⟩
  have v1 : value32 (word 0x3F800000) = 1 := value_one
  have v2 : value32 (word 0xBF800000) = -1 := value_minus
  have v0 : value32 (word 0) = 0 := value_zero
  refine ⟨fun i hi => ?_, fun i hi => ?_, fun i hi => ?_, by decide +kernel, by decide +kernel⟩
  · refine ⟨?_, ?_, fun k hk => ?_⟩ <;> interval_cases i <;> first | exact f0 | exact f1 | (interval_cases k <;> first | exact f0 | exact f1)
  · interval_cases i <;> norm_num [at3, corners, ray, rec0, v0, v1, v2, names_one, names_minus, names_zero]
  · interval_cases i <;> norm_num [at3, ray, rec0, v0, v1, v2, names_one, names_minus, names_zero]
/-- A node with an empty child on the path of the ray and three that are not there, and one of four. -/
def node0 (n : Nat) : List Byte := (List.range 4).flatMap (fun _ => leBytes 12 0 ++ leBytes 4 0x3F800000 ++ leBytes 4 0x3F800000 ++ leBytes 4 0x3F800000)
  ++ (List.range 4).flatMap (fun i => leBytes 4 (if i < n then 0x40000000 else 0)) ++ List.replicate 4 0xFF ++ List.replicate 12 0
theorem witness_Traversal_nodes : (node0 1).length = 128 ∧ [(1, 1), (4, 16)].all (fun y => let b := node0 y.1
      decide (byteField b 120 8 = 0 ∧ ray.stack.length = 16 ∧ ray.state = 1) && (List.range 4).all (fun i => byteField b (116 + i) 1 ≤ 1 && childOk (byteField b (96 + 4 * i) 4))
      && (match nodeStep { ray with depth := y.2 } b with
        | .bad k => decide (k = 6 ∧ y.1 = 4)
        | .done x => decide (x.depth = 1 ∧ y.1 = 1))) = true
    ∧ isNaN (unpack fp32 ray.tmin) = false ∧ isNaN (unpack fp32 ray.tmax) = false := by decide +kernel

/-! ### Where instructions complete -/

theorem witness_ControlCompletes : laneWhen (withV base [(8, 1)]) (.sync { e1 with d := 0 }) (fun r => decide (r.q.trap = .idle ∧ r.q.sync = none ∧ r.x32 (src 8) = 1#32 <<< r.t.lane)) = true
    ∧ laneWhen base (.phase { z0 with d := 15 }) = true
    ∧ [false, true].all (fun p => laneWhen (base.modCell 1 (fun c => { c with preq := p })) (.yield (z0 0x40C0)) (fun r => decide (192 ≤ r.th.v.length ∧ 64 ≤ r.th.w.length ∧ r.c.preq = p))) = true
    ∧ [Instr.trap (z0 0xFFFF), .brk (z0 1)].all (fun i => laneWhen base i (fun r => decide (r.q.trap = .idle))) = true
    ∧ laneWhen (handler id) (.tret z0) (fun r => decide (r.q.trap = .active) && (r.q.threads[1]?).any (fun o => decide (o.state ≠ .exited) && !o.atTret)) = true
    ∧ laneWhen (handler (fun th => { th with state := .waiting, wait := some (.tret 0 0) })) (.tret z0) (fun r =>
        decide (r.q.trap = .active ∧ r.q.tqueue.length ≤ 1 ∧ r.q.pendXp = 0 ∧ r.th.heldWait = none) && (r.q.threads.drop 1).all Thread.atTret) = true
    ∧ [Instr.clk (csrR 4 0), .clk (csrR 4 0 1), .csrr (csrR 4 0x001), .csrr (csrR 4 0x020 1)].all (fun i => laneWhen base i) = true
    ∧ laneWhen base (.ptpnow (csrR 4 0)) (fun r => decide (0 ≤ (r.s.clk : Int) + r.s.ptpOffset)) = true
    ∧ [Instr.clk (csrR 0xC4 0), .clk (csrR 0xC4 0 1), .csrr (csrR 0xC4 0x043), .csrw (csrI 2)].all (fun i => stepWhen base i) = true := by decide +kernel
/-- The elements of a data word, all on this package, none writing an index still to be read. -/
def placesOk (s : State) (f : Xp) (total : XpCtx → Nat) (w : Move) : Bool := onXp1 s (fun c p =>
  let sg := p.gens.getD f.sg.toNat Gen.empty
  let dg := p.gens.getD f.dg.toNat Gen.empty
  match (List.range (total p)).mapM (fun e => moveElem s c x1 w (match w with
    | .gather _ => sg
    | _ => steps e sg) (steps e dg) e) with
  | .ok els => decide (total p ≠ 0) && els.all (fun el => !el.remote) && c.runs.all (fun y => y.ctx ≠ 1) && (List.range (total p)).all (fun e => match w with
    | .gather list => (match globPlace s c needLoad list ((4 * e : Nat) : Int) 4 4 with
      | .ok ip => els.all (fun el => el.dst.all (fun d => !overlaps (placeKeys d) (placeKeys ip)))
      | _ => false)
    | _ => true)
  | .error _ => false)
theorem witness_TransferCompletes : placesOk gens1 (xd (xw 0 2) 0 1) (counted (xw 0 2)) .copy = true
    ∧ placesOk gens1 (xd (xw 0 2 5) 0 1) (counted (xw 0 2 5)) (.gather (mkRef 1 1024)) = true ∧ placesOk gens1 (xd (xw 0 2 0 0x8A) 0 2) (fun p => (xa (xw 0 2 0 0x8A) p).toNat) (.conv 0x08A) = true
    ∧ onXp1 gens1 (fun c p => placesOk gens1 (xd (xw 0 2 6) 0 1) (counted (xw 0 2 6)) (.cast (targets gens1 c (xb (xw 0 2 6) p)))) = true
    ∧ descIs (mxDesc 0 .armed) (fun r c => c.runs.isEmpty && match r with
      | .ok op => (mxScratch c op).isNone
      | .error _ => false) = true
    ∧ onXp1 (pend xbase (.mxz 3 true)) (fun c p => decide (p.pendmx.length = 1 ∧ mxIssue c (.mxz 3 true) = none) && c.resident && ((pend xbase (.mxz 3 true)).core? c.core).any (fun k => k.array.length < 16)
      && ctxLive xbase c.ctx) = true
    ∧ ((runs1).cell? 1).any (fun c => c.state ≠ .exited && c.runs = [run1]) = true ∧ (runs1).asks = []
    ∧ [XWaitOn.queue, .order].all (fun w => ((waits1 w).xp? x1).any (fun p => p.state = .waiting && p.waitOn = w)) = true := by decide +kernel
theorem witness_EventsComplete : canDeliver stopping 1 0 = true ∧ (stopping.ctx? 0).any (fun x => !x.tmode) = true ∧ (stopping.squad? 1 0).any (fun q => q.collected.length = 1 && q.pendXp = 0) = true
    ∧ ((moni 50).thread? t0).any (fun th => th.wait = some (.monitor 4 false) && th.mon = some ⟨0, [], false, 0, 50, false⟩) = true
    ∧ ((slotWaits 2 0).cell? 1).any (fun c => (c.slots[1]?).any (fun y => y.state = .completing && y.arrived ≠ y.expect)) = true
    ∧ (phased.gang? 1).any (fun g => phaseReady phased g && phaseDrained phased g && (gangCells phased g).all (fun c => c.view = [])) = true
    ∧ saving (yielding 0 .yielded) (fun c => cellSafe c && c.state = .draining) = true ∧ saveDrained (yielding 0 .yielded) [1] = true
    ∧ saving (yielding 20000 .ready) (fun c => !cellSafe c && decide (c.deadline ≤ 20000 - c.preqAt) && c.squads.all (fun q => q.threads.all (fun th => th.walk.isNone))) = true
    ∧ saveDrained (yielding 20000 .ready) [1] = true ∧ (yielding 20000 .ready).asks = []
    ∧ (evicted.cell? 1).any (fun c => c.squads.all (fun q => q.recalled) && c.resident && squadRoom evicted c) = true := by decide +kernel
/-! ### Steps and encodings -/

theorem witness_RoundTrip : [Instr.nop, .iaddBase ⟨1, 2, 3⟩, .iadd (litB 0xFFFFFFFF (e2 2)), .ld (m 4), .bra (br (-4)), .swFfma (sw)].all (fun i => i.wellFormed && i.fetched && match formOf i with
      | .xp _ _ => false
      | _ => true) = true
    ∧ (Instr.xaddi { xw 3 1 0 0xFFFFFFFC with dg := 0 }).wellFormed = true ∧ formOf (.xaddi (xw 3 1)) = .xp 3 (xw 3 1) := by decide +kernel
/-- A package whose next step fetches the word w in a thread, or in a transfer context; and one whose processor 1 runs a prologue. -/
def fetches (nbits w : Nat) : State := State.reset.withFetchWord nbits w
def runsPro (w : Nat) : State := { running0 (prologue0 0 none) 0 with issue := [.prologue 1], mem := memWriteL [] 0 (leBytes 4 w) }
def fetched (f : Fetched) (P : List Word → Bool) : Bool := match f with
  | .words ws => P ws
  | _ => false
theorem witness_StepRunsDecoded : [(32, (0x03020108 : Nat)), (32, 0xFE)].all (fun y => let s := fetches y.1 y.2
      (nextEvent s s.agenda).isNone && s.issue = [.bundle [t0]] && formBundle { s with issue := [] } [t0] = [t0] && fetched (fetchAt { s with issue := [] } 1 (pcOf s t0)) (fun ws =>
        (decode ws).toOption.map (·.1) = if y.2 = 0xFE then none else some (.iaddBase ⟨1, 2, 3⟩))) = true
    ∧ [0xFFFFFFFC00002303, 0xFF].all (fun w => let s := fetches 64 w
      (nextEvent s s.agenda).isNone && s.issue = [.xp x1] && xpCanIssue { s with issue := [] } x1 && fetched (fetchXp { s with issue := [] } x1) (fun ws =>
        (decodeXp (xpWord ws)).toOption = if w = 0xFF then none else some (.xaddi { xw 3 1 0 0xFFFFFFFC with dg := 0 }))) = true
    ∧ (let s := runsPro 0
      (nextEvent s s.agenda).isNone && ((s.lps[1]?).bind LaunchProc.prologue).any (fun p => p.ended.isNone && !overBudget s p && fetched (fetchCode
        (({ s with issue := [] } : State).modPro 1 (fun p => { p with startAt := some (p.startAt.getD s.clk) })) (.queue p.qid) 0 p.ctx p.code p.pc) (fun ws => (decode ws).toOption.map (·.1) = some .nop))) = true
    ∧ (nextEvent { State.reset with agenda := [.powerGood] } [.powerGood]).isSome = true := by decide +kernel
theorem witness_StepKeepsCanonical : State.reset.canonical = true ∧ (fetches 32 0).canonical = true ∧ (match step (fetches 32 0) with
    | .next _ => true
    | _ => false) = true := by decide +kernel

/-! ## Words written out from the encoding tables -/

/-- The decoder reads the words as the instruction, and takes nothing of what follows. -/
def reads (ws : List Word) (i : Instr) : Bool := decide (decode (ws ++ [0x12345678, 0x9ABCDEF0, 0, 0]) = .ok (i, [0x12345678, 0x9ABCDEF0, 0, 0]))
/-- R58–R62: `iadd v1, v2, v3`, `movi v4, -2`, `and k33, k32, 0xFF`, `bra` one word back unless p2, and `iadd v1, v2` of a literal. -/
theorem test_decode_base : reads [0x03020108] (.iaddBase ⟨1, 2, 3⟩) = true ∧ reads [0xFEFF0488] (.movi ⟨4, 0xFFFE⟩) = true ∧ reads [0xFFE0E17C] (.andBaseImm ⟨0xE1, 0xE0, 0xFF⟩) = true
    ∧ reads [0xFFFFF2F0] (.braBase ⟨-1, true, 2⟩) = true ∧ reads [0xFF020109, 0x89ABCDEF, 0x01234567] (.iaddBaseLit ⟨1, 2, 0x0123456789ABCDEF⟩) = true := by decide +kernel
/-- R63, R67, R102: `iadd v4, v8, v10`, and with a literal as B. -/
theorem test_decode_integer : reads [0x00400002, 0x000A0008, 0] (.iadd (e2 0)) = true
    ∧ reads [0x00400003, 0x00FF0008, 0, 0x89ABCDEF, 0x01234567] (.iadd (litB 0x0123456789ABCDEF (e2 0))) = true := by decide +kernel
/-- R63: FFMA negated under not p3, RCP.f with LA 5, and HFMA2 with patterns on A and C. -/
theorem test_decode_float : reads [0x20404D0E, 0x000A0008, 0x0000000C] (.ffma { e 2 with g := ⟨true, 3⟩ }) = true ∧ reads [0x00450136, 0x00000008, 0] (.rcpF { e1 with la := 5 }) = true
    ∧ reads [0x0040016E, 0x000A1908, 0x00000A0C] (.hfma2 { e with a := ⟨8, 1, 3⟩, c := ⟨12, 2, 1⟩ }) = true := by decide +kernel
/-- R150, R154, R182: WFMA with BV and NEG, WSETP with a reduction to p3, and TRCONT.acc of 100 steps. -/
theorem test_decode_spectral : reads [0x6040028E, 0x000A0008, 0x0000000C] (.wfma (e 6)) = true
    ∧ reads [0x403002CA, 0x00050004, 0x00010000] (.wsetp { e2 4 1 with d := 3, a := ⟨4, 0, 0⟩, b := ⟨5, 0, 0⟩ }) = true ∧ reads [0x104002E6, 0x000A0008, 0x0064000C] (.trcont (e 1 100)) = true := by
  decide +kernel
/-- R199, R212, R213, R140: MXM.bf16, LD of 16 bytes with DISP −4 and SCALE ×16, ATOM at scope 6, and SW.CVT of three iterations. -/
theorem test_decode_memory : reads [0x0030031A, 0x007F00C8, 0x001800CC] (.mxmBf16 (mx 24)) = true
    ∧ reads [0x40400202, 0x000A0008, 0xFFFC8100] (.ld ⟨4, 4, 0, ⟨false, 0⟩, ⟨8, 0, 0⟩, ⟨10, 0, 0⟩, 0, 0xFFFC, 4, 1, none⟩) = true
    ∧ reads [0x9040022A, 0x00FC0008, 0x00000C0C] (.atom (at' 9 12)) = true ∧ reads [0x0C4001D3, 0x000000C8, 0x0030A800, 0x00800080, 0] (.swCvt (swa 0x0A8)) = true := by decide +kernel
/-- R66, R124, R339, R376: BRX, `csrr k30, csr.phase`, YIELD and BARARV.tx. -/
theorem test_decode_control : reads [0x00000386, 0xFFFFFC08, 0xFFFFFF00] (.brx (br (-4) 0 8)) = true ∧ reads [0x0DE003AA, 0, 0x00300000] (.csrr (csrR 0xDE 0x030)) = true
    ∧ reads [0x0000039A, 0, 0x40C00000] (.yield (z0 0x40C0)) = true ∧ reads [0x10300346, 0x000A0008, 0] (.bararv { arv 1 with b := ⟨10, 0, 0⟩ }) = true := by decide +kernel
/-- R249, R250, R271, R418: two transfer words, XPRUN.qry and AMSEND. -/
theorem test_decode_transfer : decodeXp 0x0000100008000417 = .ok (.xcopy ⟨4, 0, 0, 0, 2, 0, 4096⟩) ∧ decodeXp 0xFFFFFFFC00002303 = .ok (.xaddi ⟨3, 1, 0, 0, 0, 0, 0xFFFFFFFC⟩)
    ∧ reads [0x20400362, 0x00000008, 0] (.xprunQry (xr 2)) = true ∧ reads [0x0000036E, 0x000A0008, 0x01000000] (.amsend amf) = true := by decide +kernel

/-! ## Ill-formed terms -/

/-- R64, R65, R67, R68, R70: FN or IMM16 not defined, LA on a short operation, 0xFF or lane as D, a pattern above 5, a parameter without a pattern, a pattern on a k register, 0xFF
without a literal, an unused field, and a guard on a uniform step, PHASE and TRET. -/
theorem test_illformed_ext : [Instr.iadd (e2 8), .iadd (e2 0 1), .iadd { e2 with la := 1 }, .iadd { e2 with d := 0xFF }, .iadd { e2 with d := 0xFD }, .iadd { e2 with a := ⟨8, 6, 0⟩ },
    .iadd { e2 with a := ⟨8, 0, 1⟩ }, .iadd { e2 with a := ⟨0xC8, 1, 0⟩ }, .iadd { e2 with b := ⟨0xFF, 0, 0⟩ }, .iadd { e2 with c := ⟨1, 0, 0⟩ }, .iadd { u2 with g := ⟨false, 1⟩ },
    .phase { z0 with d := 2, g := ⟨false, 1⟩ }, .tret { z0 with g := ⟨true, 0⟩ }, .xprunStart (xr 2)].all (fun i => !i.wellFormed) = true := by decide +kernel
/-- R212, R213, R223, R232: SCALE above 4 or with z, a width above 4, OPT, a guard on ULD, FENCE with LA, ATOMB under guard p0. -/
theorem test_illformed_mem : [Instr.ld { m 4 with b := ⟨10, 0, 0⟩, scale := 5 }, .ld { m 4 with scale := 1 }, .ld (m 5), .ld (m 4 3), .uld { m 2 with d := 0xC4, a := ⟨0xC8, 0, 0⟩, g := ⟨false, 1⟩ },
    .fence { m 1 with d := 0, a := ⟨0, 0, 0⟩, b := ⟨0, 0, 0⟩, la := 1 }, .atomb { batchM with g := ⟨false, 0⟩ }].all (fun i => !i.wellFormed) = true
    ∧ [Instr.fence { m 1 with d := 0, a := ⟨0, 0, 0⟩, b := ⟨0, 0, 0⟩ }, .atomb batchM].all (fun i => i.wellFormed) = true := by decide +kernel
/-- R66, R140: an offset that is no multiple of 4, D of BRA, A of BRA, BRX of 0xFF; a sweep of no iterations, a CVTSEL or a step where it has no place, 0xFF. -/
theorem test_illformed_branch_sweep : [Instr.bra (br 2), .bra (br 4 1), .bra (br 4 0 8), .brx (br 4 0 0xFF), .swFadd { swb with count := 0 }, .swFadd (swb 0xA8), .swCopy { swa with stepB := 4 },
    .swFadd { swb with a := 0xFF }].all (fun i => !i.wellFormed) = true := by decide +kernel
/-- R249, R250: an unused field, an FL value not given, two counts, a conversion that is none, queue register 16; base words with 0xFF or lane as D or 0xFF as A (R62). -/
theorem test_illformed_xp_base : [Instr.xnop (xw 1), .xli (xw 1 0 0 0 2), .xcopy (xw 0 1 0 4), .xconv (xw 0 1 0 0x800), .xqpush { xw 16 1 with dg := 0 }, .iaddBase ⟨0xFF, 2, 3⟩, .iaddBase ⟨0xFD, 2, 3⟩,
    .movBase ⟨1, 0xFF⟩].all (fun i => !i.wellFormed) = true := by decide +kernel


end Sys2Proof.Tests
end

section
/-! PROOFS. The transfer processor's scalar words (R251). -/
namespace Sys2Proof.Proofs
open Sys2Proof Sys2Proof.Machine Sys2Proof.Claims

/-! ## Operands of a transfer word -/

theorem toNat_eq_zero_iff (r : BitVec 5) : r.toNat = 0 ↔ r = 0 := by simp [← BitVec.toNat_inj]

@[simp] theorem ra_eq_xa (p : XpCtx) (f : Xp) : p.ra f = xa f p := by
  simp only [XpCtx.ra, XpCtx.reg, xa, toNat_eq_zero_iff]

@[simp] theorem rb_eq_xb (p : XpCtx) (f : Xp) : p.rb f = xb f p := by
  simp only [XpCtx.rb, XpCtx.reg, xb, toNat_eq_zero_iff]

theorem xpImm_eq_ofInt (f : Xp) : xpImm f = BitVec.ofInt 64 f.imm.toInt := rfl

theorem append_lo32 (hi : Word) (d : Dword) : hi ++ lo32 d = BitVec.ofNat 64 (hi.toNat * 2 ^ 32 + d.toNat % 2 ^ 32) := by
  apply BitVec.eq_of_toNat_eq
  have hlt : d.toNat % 2 ^ 32 < 2 ^ 32 := Nat.mod_lt _ (by decide)
  simp only [lo32, BitVec.toNat_append, BitVec.extractLsb'_toNat, Nat.shiftRight_zero, BitVec.toNat_ofNat]
  rw [Nat.shiftLeft_eq, Nat.mul_comm, ← Nat.two_pow_add_eq_or_of_lt hlt]
  omega

/-! ## Scalar words (R251) -/

/-- A write of x(D) as an update of the registers alone. -/
theorem set_eq (p : XpCtx) (d : BitVec 5) (v : Dword) :
    p.set d.toNat v = { p with x := if d = 0 then p.x else p.x.set d.toNat v } := by
  simp only [XpCtx.set, toNat_eq_zero_iff]
  split <;> rfl

/-- A scalar word sets D and goes on to the next word. -/
theorem setsX_of_xpScalar {i : Instr} {f : Xp} {v w : XpCtx → Dword} (hexec : ∀ s, exec i s = xpScalar f s v)
    (hvalue : ∀ p, v p = w p) : SetsX i f w := by
  intro s x c p hcur hc hp
  rw [hexec, xpScalar, onXp_next _ hcur hc hp, xpNext, modXp_modXp]
  simp only [set_eq, hvalue]

/-- The value of XLI: its immediate, or with HI the immediate above D's low half. -/
theorem xli_value (f : Xp) (p : XpCtx) : (if f.fl = 0 then xpImm f else f.imm ++ lo32 (p.reg f.d.toNat))
    = if f.fl = 0 then BitVec.ofInt 64 f.imm.toInt
      else BitVec.ofNat 64 (f.imm.toNat * 2 ^ 32 + (if f.d = 0 then 0 else (p.x.getD f.d.toNat 0).toNat % 2 ^ 32)) := by
  have hreg : (p.reg f.d.toNat).toNat % 2 ^ 32 = if f.d = 0 then 0 else (p.x.getD f.d.toNat 0).toNat % 2 ^ 32 := by
    simp only [XpCtx.reg, toNat_eq_zero_iff]
    split <;> rfl
  rw [append_lo32, hreg, xpImm_eq_ofInt]

theorem shiftLeft_eq_ofNat (a : Dword) (n : Nat) : a <<< n = BitVec.ofNat 64 (a.toNat * 2 ^ n) := by
  apply BitVec.eq_of_toNat_eq
  rw [BitVec.toNat_shiftLeft, Nat.shiftLeft_eq, BitVec.toNat_ofNat]

theorem ushiftRight_eq_ofNat (a : Dword) (n : Nat) : a >>> n = BitVec.ofNat 64 (a.toNat / 2 ^ n) := by
  rw [← Nat.shiftRight_eq_div_pow, ← BitVec.toNat_ushiftRight, BitVec.ofNat_toNat, BitVec.setWidth_eq]

theorem sshiftRight_eq_ofInt (a : Dword) (n : Nat) : a.sshiftRight n = BitVec.ofInt 64 (a.toInt / 2 ^ n) := by
  rw [BitVec.sshiftRight, Int.shiftRight_eq_div_pow]
  norm_cast

theorem sub_eq_ofInt (a b : Dword) : a - b = BitVec.ofInt 64 (a.toInt - b.toInt) := by
  rw [Int.sub_eq_add_neg, BitVec.ofInt_add, BitVec.ofInt_neg, BitVec.ofInt_toInt, BitVec.ofInt_toInt, BitVec.sub_eq_add_neg]

/-- Settles O14: each scalar word is `xpScalar` of a value that equals the one R251 states. -/
theorem transferScalars : Obligations.TransferScalars := by
  intro f
  refine ⟨?xnop, ?xli, ?xadd, ?xaddi, ?xsub, ?xmul, ?xand, ?xior, ?xxor, ?xshl, ?xshr⟩
  case xnop =>
    intro s x c p hcur hc hp
    exact onXp_next _ hcur hc hp
  case xli => exact setsX_of_xpScalar (fun _ => rfl) (xli_value f)
  case xadd => exact setsX_of_xpScalar (fun _ => rfl) (fun p => by simp [BitVec.ofNat_add])
  case xaddi => exact setsX_of_xpScalar (fun _ => rfl) (fun p => by simp [xpImm_eq_ofInt, BitVec.ofInt_add])
  case xsub => exact setsX_of_xpScalar (fun _ => rfl) (fun p => by rw [ra_eq_xa, rb_eq_xb, sub_eq_ofInt])
  case xmul => exact setsX_of_xpScalar (fun _ => rfl) (fun p => by simp [BitVec.ofNat_mul])
  case xand => exact setsX_of_xpScalar (fun _ => rfl) (fun p => by rw [ra_eq_xa, rb_eq_xb])
  case xior => exact setsX_of_xpScalar (fun _ => rfl) (fun p => by rw [ra_eq_xa, rb_eq_xb])
  case xxor => exact setsX_of_xpScalar (fun _ => rfl) (fun p => by rw [ra_eq_xa, rb_eq_xb])
  case xshl => exact setsX_of_xpScalar (fun _ => rfl) (fun p => by rw [ra_eq_xa, rb_eq_xb, shiftLeft_eq_ofNat])
  case xshr =>
    exact setsX_of_xpScalar (fun _ => rfl) (fun p => by
      rw [ra_eq_xa, rb_eq_xb, ushiftRight_eq_ofNat, sshiftRight_eq_ofInt])

end Sys2Proof.Proofs
end

section
/-! PROOFS. Branches and loops of the transfer processor (R252, R253). -/
namespace Sys2Proof.Proofs
open Sys2Proof Sys2Proof.Machine Sys2Proof.Claims

/-! ## Branches (R252) -/

/-- A branch goes on, is taken, or stops, as its condition and its target have it. -/
theorem branchesX_of_xpBranch {i : Instr} {f : Xp} {cond : XpCtx → Bool} {P : XpCtx → Prop}
    (hexec : ∀ s, exec i s = xpBranch f s cond) (hcond : ∀ p, cond p = true ↔ P p) : BranchesX i f P := by
  intro s x c p hcur hc hp
  rw [hexec, xpBranch, onXp_next _ hcur hc hp, ← hcond]
  refine ⟨fun hnot => ?notTaken, fun htaken hlow hhigh => ?taken, fun htaken hout => ?outside⟩
  case notTaken =>
    rw [if_pos (by simpa using hnot)]
    rfl
  case taken =>
    rw [if_neg (by simpa using htaken), if_neg (by
      simp only [Bool.or_eq_true, decide_eq_true_eq, not_or, ge_iff_le]
      exact ⟨not_lt.mpr hlow, not_le.mpr hhigh⟩)]
    rfl
  case outside =>
    rw [if_neg (by simpa using htaken), if_pos (by
      simp only [Bool.or_eq_true, decide_eq_true_eq]
      exact hout)]
    rfl

theorem xpBelow_iff (f : Xp) (p : XpCtx) : xpBelow f p = true
    ↔ if f.fl = 0 then (xa f p).toInt < (xb f p).toInt else (xa f p).toNat < (xb f p).toNat := by
  simp only [xpBelow, ra_eq_xa, rb_eq_xb]
  split
  · exact BitVec.slt_iff_toInt_lt
  · exact BitVec.ult_iff_toNat_lt

/-! ## Loops (R253) -/

theorem byteField_first (b : List Byte) : byteField b 0 1 = (b.getD 0 0).toNat := by
  cases b <;> simp [byteField, leNat]

theorem wrapNat_succ {t : Int} (hlow : 0 ≤ t) (hhigh : t < 2 ^ 32) : wrapNat 64 (t + 1) = t.toNat + 1 := by
  unfold wrapNat
  omega

/-- XLOOP over a count of 0 goes on after its XLEND. -/
theorem xloop_skips {f : Xp} {s : State} {x : Xid} {c : Cell} {p : XpCtx} (hcur : s.cur = .xp x) (hc : s.cell? x.cell = some c)
    (hp : s.xp? x = some p) (hn : xa f p = 0) (hlow : 0 ≤ xpTarget f p) (hhigh : xpTarget f p < 2 ^ 32) :
    exec (.xloop f) s = .next (xpGo s x ((xpTarget f p).toNat + 1)) := by
  refine (onXp_next _ hcur hc hp).trans ?_
  simp only [ra_eq_xa, hn, if_true, wrapNat_succ hlow hhigh]

/-- XLOOP inside four loops stops. -/
theorem xloop_full {f : Xp} {s : State} {x : Xid} {c : Cell} {p : XpCtx} (hcur : s.cur = .xp x) (hc : s.cell? x.cell = some c)
    (hp : s.xp? x = some p) (hn : xa f p ≠ 0) (hfull : 4 ≤ p.loops.length) : exec (.xloop f) s = .next (xpStop s x xpLoop 0) := by
  refine (onXp_next _ hcur hc hp).trans ?_
  simp only [ra_eq_xa, if_neg hn, ge_iff_le, if_pos hfull]

/-- XLOOP whose end word can be fetched opens its loop if that word is XLEND, and else stops. -/
theorem xloop_opens {f : Xp} {s : State} {x : Xid} {c : Cell} {p : XpCtx} (hcur : s.cur = .xp x) (hc : s.cell? x.cell = some c)
    (hp : s.xp? x = some p) (hn : xa f p ≠ 0) (hroom : p.loops.length < 4) (hlow : 0 ≤ xpTarget f p) {a : Access} {b : List Byte}
    (hcode : codeBytes s (.xp x) c.kernel c.ctx c.code (8 * (xpTarget f p).toNat) 8 = (.ok a, b)) :
    exec (.xloop f) s = .next (
      let s1 := markFetch s c.ctx c.code (8 * (xpTarget f p).toNat) 8
      if b.getD 0 0 = 0x11 then
        xpNext (s1.modXp x (fun q => { q with loops := ⟨xa f p, p.xpc + 1, (xpTarget f p).toNat⟩ :: q.loops })) x
      else xpStop s1 x xpLoop (faultAddr (mkRef (refIndex c.code) 0) (8 * xpTarget f p))) := by
  refine (onXp_next _ hcur hc hp).trans ?_
  have hend : (b.getD 0 0).toNat = 0x11 ↔ b.getD 0 0 = 0x11 := by rw [← BitVec.toNat_inj]; rfl
  simp only [ra_eq_xa, if_neg hn, ge_iff_le, if_neg (Nat.not_le.mpr hroom), hcode, byteField_first, ne_eq, hend,
    decide_eq_false (Int.not_lt.mpr hlow), Bool.false_or, decide_not, Bool.not_eq_true', decide_eq_false_iff_not, ite_not]

/-- XLEND outside a loop stops. -/
theorem xlend_outside {f : Xp} {s : State} {x : Xid} {c : Cell} {p : XpCtx} (hcur : s.cur = .xp x) (hc : s.cell? x.cell = some c)
    (hp : s.xp? x = some p) (hloops : p.loops = []) : exec (.xlend f) s = .next (xpStop s x xpLoop 0) := by
  refine (onXp_next _ hcur hc hp).trans ?_
  simp only [hloops]

/-- XLEND closes its loop after the last pass, and else begins the next one. -/
theorem xlend_inside {f : Xp} {s : State} {x : Xid} {c : Cell} {p : XpCtx} (hcur : s.cur = .xp x) (hc : s.cell? x.cell = some c)
    (hp : s.xp? x = some p) {l : Loop} {rest : List Loop} (hloops : p.loops = l :: rest) : exec (.xlend f) s = .next (
      if l.count = 1 then s.modXp x (fun q => { q with loops := rest, xpc := q.xpc + 1 })
      else s.modXp x (fun q => { q with loops := { l with count := l.count - 1 } :: rest, xpc := l.start })) := by
  refine (onXp_next _ hcur hc hp).trans ?_
  simp only [hloops, xpNext, xpGo, modXp_modXp]

end Sys2Proof.Proofs
end

section
/-! PROOFS. What leaves every transfer context as it is. -/
namespace Sys2Proof.Proofs
open Sys2Proof Sys2Proof.Machine Sys2Proof.Claims

/-! ## Transfer contexts as a state shows them

A memory write of the device's own, a fault record, a report and a kernel's ending touch no transfer context. What a context reads as depends on
the cells' numbers, kernels and contexts alone (`cellXps`); a stop asks besides which kernels there are (`xpScene`). -/

/-- Each cell's number, kernel and transfer contexts. -/
def cellXps (s : State) : List (Nat × Nat × List XpCtx) := s.cells.map (fun c => (c.id, c.kernel, c.xps))
/-- Those and the kernels. -/
def xpScene (s : State) : List (Nat × Nat × List XpCtx) × List Kernel := (cellXps s, s.kernels)

theorem cellXps_of_scene {s t : State} (h : xpScene t = xpScene s) : cellXps t = cellXps s := congrArg Prod.fst h

theorem find_cellXps (s : State) (id : Nat) :
    (cellXps s).find? (fun y => y.1 == id) = (s.cell? id).map (fun c => (c.id, c.kernel, c.xps)) := by
  rw [cellXps, List.find?_map]
  rfl

theorem xp_eq_find (s : State) (x : Xid) : s.xp? x
    = ((cellXps s).find? (fun y => y.1 == x.cell)).bind (fun y => if x.ctx = 0 then none else y.2.2[x.ctx - 1]?) := by
  rw [find_cellXps, State.xp?]
  cases s.cell? x.cell <;> rfl

/-- A context reads the same in states with the same `cellXps`. -/
theorem xp_of_cellXps {s t : State} (h : cellXps t = cellXps s) (x : Xid) : t.xp? x = s.xp? x := by
  rw [xp_eq_find, xp_eq_find, h]

theorem cell_of_cellXps {s t : State} (h : cellXps t = cellXps s) {id : Nat} {c : Cell} (hc : s.cell? id = some c) :
    ∃ c', t.cell? id = some c' ∧ c'.kernel = c.kernel := by
  have hmap : (t.cell? id).map (fun c => (c.id, c.kernel, c.xps)) = some (c.id, c.kernel, c.xps) := by
    rw [← find_cellXps, h, find_cellXps, hc]
    rfl
  obtain ⟨c', hc', heq⟩ := Option.map_eq_some_iff.mp hmap
  exact ⟨c', hc', congrArg (fun y => y.2.1) heq⟩

theorem foldl_keeps {α β γ : Type} (g : α → γ) (f : α → β → α) (h : ∀ a b, g (f a b) = g a) (l : List β) (a : α) :
    g (l.foldl f a) = g a := by
  induction l generalizing a with
  | nil => rfl
  | cons b l ih => rw [List.foldl_cons, ih, h]

/-- A change of every cell that keeps number, kernel and contexts. -/
theorem cellXps_mapCells (s : State) (f : Cell → Cell) (hf : ∀ c, (f c).id = c.id ∧ (f c).kernel = c.kernel ∧ (f c).xps = c.xps) :
    cellXps { s with cells := s.cells.map f } = cellXps s := by
  rw [cellXps, List.map_map]
  refine List.map_congr_left (fun c _ => ?_)
  obtain ⟨hid, hkernel, hxps⟩ := hf c
  simp only [Function.comp, hid, hkernel, hxps]

theorem cellXps_modCell (s : State) (id : Nat) (f : Cell → Cell)
    (hf : ∀ c, (f c).id = c.id ∧ (f c).kernel = c.kernel ∧ (f c).xps = c.xps) : cellXps (s.modCell id f) = cellXps s := by
  refine cellXps_mapCells s _ (fun c => ?_)
  split
  · exact hf c
  · exact ⟨rfl, rfl, rfl⟩

@[simp] theorem cellXps_modSquad (s : State) (cell sq : Nat) (f : Squad → Squad) : cellXps (s.modSquad cell sq f) = cellXps s :=
  cellXps_modCell s cell _ (fun _ => ⟨rfl, rfl, rfl⟩)

@[simp] theorem cellXps_modThread (s : State) (t : Tid) (f : Thread → Thread) : cellXps (s.modThread t f) = cellXps s :=
  cellXps_modSquad s t.cell t.squad _

@[simp] theorem cellXps_modKernel (s : State) (id : Nat) (f : Kernel → Kernel) : cellXps (s.modKernel id f) = cellXps s := rfl
@[simp] theorem cellXps_modCtx (s : State) (id : Nat) (f : Context → Context) : cellXps (s.modCtx id f) = cellXps s := rfl
@[simp] theorem cellXps_emit (s : State) (o : Output) : cellXps (s.emit o) = cellXps s := rfl

/-! ### Memory and links -/

@[simp] theorem xpScene_markPages (s : State) (write : Bool) (ps : List (Nat × Nat)) : xpScene (markPages s write ps) = xpScene s := by
  induction ps generalizing s with
  | nil => rfl
  | cons p ps ih => exact (ih _).trans rfl

@[simp] theorem xpScene_noteCode (s : State) (rd : Loc → Option Byte) (ls : List Loc) : xpScene (noteCode s rd ls) = xpScene s := rfl

@[simp] theorem xpScene_keepOld (s s' : State) (ls : List Loc) : xpScene (keepOld s s' ls) = xpScene s' := rfl

@[simp] theorem xpScene_writeLocRaw (s : State) (l : Loc) (b : Byte) : xpScene (writeLocRaw s l b) = xpScene s := by
  cases l <;> rfl

@[simp] theorem xpScene_fireBlock (s : State) (block : Nat) : xpScene (fireBlock s block) = xpScene s := by
  refine Prod.ext ?_ ?_
  · unfold fireBlock
    dsimp only
    split
    · exact cellXps_mapCells s _ (fun _ => ⟨rfl, rfl, rfl⟩)
    · rfl
  · unfold fireBlock
    dsimp only
    split <;> rfl

@[simp] theorem xpScene_writeHome (s : State) (ws : List (Loc × Byte)) : xpScene (writeHome s ws) = xpScene s := by
  unfold writeHome
  rw [foldl_keeps xpScene _ (fun s b => xpScene_fireBlock s b), xpScene_keepOld,
    foldl_keeps xpScene (fun (s : State) (w : Loc × Byte) => writeLocRaw s w.1 w.2) (fun s w => xpScene_writeLocRaw s w.1 w.2), xpScene_noteCode]

@[simp] theorem xpScene_dropLines (s : State) (hs : List Nat) (p : Nat → Bool) : xpScene (dropLines s hs p) = xpScene s := rfl

@[simp] theorem xpScene_homeWrite (s : State) (cell : Option Nat) (a : Access) (data : List Byte) :
    xpScene (homeWrite s cell a data) = xpScene s := by
  cases cell with
  | none => simp only [homeWrite, xpScene_markPages, xpScene_writeHome]
  | some k =>
    simp only [homeWrite, xpScene_markPages, dropWords, xpScene_dropLines, xpScene_writeHome]
    exact Prod.ext (cellXps_modCell s k _ (fun _ => ⟨rfl, rfl, rfl⟩)) rfl

@[simp] theorem xpScene_firstTouch (s : State) (root page : Nat) : xpScene (firstTouch s root page) = xpScene s := by
  unfold firstTouch
  split
  · rfl
  · split
    · rfl
    · split <;> rfl

@[simp] theorem xpScene_trySend (s : State) (id : Nat) : xpScene (trySend s id) = xpScene s := by
  unfold trySend
  dsimp only
  split
  · rfl
  · split
    · rfl
    · split <;> rfl

@[simp] theorem xpScene_noteRemote (s : State) (peer pctx pidx off : Nat) (data : List Byte) :
    xpScene (noteRemote s peer pctx pidx off data) = xpScene s := rfl

@[simp] theorem xpScene_sendRemote (s : State) (peer pctx pidx off : Nat) (op : PeerOp) (use : RemoteUse) :
    xpScene (sendRemote s peer pctx pidx off op use) = xpScene s :=
  (xpScene_trySend _ _).trans (by cases op <;> rfl)

@[simp] theorem xpScene_askPeer (s : State) (who : Asker) (a : Access) (op : PeerOp) : xpScene (askPeer s who a op) = xpScene s := by
  unfold askPeer
  dsimp only
  split
  · split
    · rfl
    · exact (xpScene_sendRemote ..).trans rfl
  · rfl

@[simp] theorem xpScene_dropAsks (s : State) (who : Asker) : xpScene (dropAsks s who) = xpScene s := by
  unfold dropAsks
  split <;> rfl

/-! ### Fault records and the error log -/

@[simp] theorem xpScene_report (s : State) (src kind addr : Nat) : xpScene (report s src kind addr) = xpScene s := by
  unfold report
  dsimp only
  generalize (if kind = 1 && decide (src < 144) then s.core? src else none) = core
  cases core <;> dsimp only <;> split <;> rfl

/-- The state that a write which may have to wait leaves has the scene of s. -/
def sentKeeps (s : State) : Sent → Prop
  | .waits t => xpScene t = xpScene s
  | .done t => xpScene t = xpScene s
  | .bad _ => True

theorem putFor_keeps (s : State) (who : Asker) (cell : Option Nat) (a : Access) (data : List Byte) :
    sentKeeps s (putFor s who cell a data) := by
  unfold putFor
  split
  · cases answerOf s who a (.write data) with
    | unasked => exact xpScene_askPeer s who a _
    | open' => exact rfl
    | data _ => exact xpScene_dropAsks s who
    | bad _ => exact trivial
  · exact xpScene_homeWrite s cell a data

theorem tryDev_keeps (s : State) (w : DevWrite) : sentKeeps s (tryDev s w) := by
  unfold tryDev
  cases checkBuffer s w.ctx needStoreImm w.idx w.off w.data.length w.align with
  | ok a => exact putFor_keeps s _ _ a _
  | waits root page => exact xpScene_firstTouch s root page
  | bad _ _ => exact trivial

@[simp] theorem xpScene_failDev (s : State) (w : DevWrite) : xpScene (failDev s w) = xpScene s := by
  unfold failDev
  split
  · exact xpScene_report ..
  · rfl

@[simp] theorem xpScene_deviceWrite (s : State) (w : DevWrite) : xpScene (deviceWrite s w) = xpScene s := by
  unfold deviceWrite
  dsimp only
  split
  · rfl
  · have hkeeps := tryDev_keeps s { w with id := s.nextId }
    cases h : tryDev s { w with id := s.nextId } with
    | done t => rw [h] at hkeeps; exact hkeeps
    | waits t => rw [h] at hkeeps; exact hkeeps
    | bad _ => exact xpScene_failDev ..

@[simp] theorem xpScene_writeRecord (s : State) (ctx : Nat) (r : FaultRec) : xpScene (writeRecord s ctx r) = xpScene s := by
  unfold writeRecord writeRecordFor
  split
  · rfl
  · exact (xpScene_deviceWrite ..).trans rfl

@[simp] theorem xpScene_xpRecord (s : State) (x : Xid) (source code : Nat) (addr : Dword) (pc : Nat) (progress : Dword) :
    xpScene (xpRecord s x source code addr pc progress) = xpScene s := by
  unfold xpRecord
  split
  · rfl
  · exact xpScene_writeRecord ..

/-! ### Endings of kernels and contexts -/

@[simp] theorem cellXps_tellKernel (s : State) (id : Nat) : cellXps (tellKernel s id) = cellXps s := by
  unfold tellKernel
  split <;> rfl

@[simp] theorem cellXps_kernelRecord (s : State) (k : Kernel) (code : Nat) : cellXps (kernelRecord s k code) = cellXps s :=
  cellXps_of_scene (xpScene_writeRecord ..)

@[simp] theorem cellXps_endKernel (fuel : Nat) (s : State) (id : Nat) (st : KState) (code : Nat) :
    cellXps (endKernel fuel s id st code) = cellXps s := by
  induction fuel generalizing s id st code with
  | zero => rfl
  | succ fuel ih =>
    unfold endKernel
    cases s.kernel? id with
    | none => rfl
    | some k =>
      dsimp only
      split
      · rfl
      · have hrecord : ∀ t : State, cellXps t = cellXps s →
            cellXps (if st = .complete then t else kernelRecord t k code) = cellXps s := by
          intro t ht
          rw [apply_ite cellXps, cellXps_kernelRecord, ite_self, ht]
        rw [apply_ite cellXps, foldl_keeps cellXps _ ?consumer, ite_self]
        case consumer =>
          intro t c
          split
          · exact ih ..
          · split
            · rw [ih, cellXps_tellKernel, cellXps_modKernel]
            · rw [cellXps_tellKernel, cellXps_modKernel]
        split
        · split <;> exact hrecord _ (cellXps_tellKernel _ id)
        · exact hrecord _ (cellXps_tellKernel _ id)

@[simp] theorem cellXps_mirror (s : State) (q : Queue) (off : Nat) (data : List Byte) : cellXps (mirror s q off data) = cellXps s :=
  cellXps_of_scene (xpScene_deviceWrite ..)

@[simp] theorem cellXps_setQState (s : State) (qid : Nat) (st : QState) : cellXps (setQState s qid st) = cellXps s := by
  unfold setQState
  split
  · rfl
  · split
    · rfl
    · exact (cellXps_mirror ..).trans rfl

@[simp] theorem cellXps_endContextWork (s : State) (ctx : Nat) : cellXps (endContextWork s ctx) = cellXps s := by
  unfold endContextWork
  refine (foldl_keeps cellXps _ (fun t k => cellXps_endKernel ..) _ _).trans ?_
  exact foldl_keeps cellXps _ (fun t i => cellXps_setQState t i .stopped) _ s

@[simp] theorem cellXps_faultContext (s : State) (ctx : Nat) : cellXps (faultContext s ctx) = cellXps s := by
  unfold faultContext
  split
  · rfl
  · split
    · have hreport : cellXps (report s 0x17F 3 ctx) = cellXps s := cellXps_of_scene (xpScene_report ..)
      rw [cellXps_endContextWork, cellXps_modCtx]
      split
      · rw [cellXps_emit, cellXps_emit, hreport]
      · exact hreport
    · rfl

/-! ### Traps of threads -/

@[simp] theorem cellXps_machineCheck (s : State) (cell sq : Nat) (lanes : BitVec 32) (pc : Word) (info : Nat) (progress : Dword) :
    cellXps (machineCheck s cell sq lanes pc info progress) = cellXps s := by
  unfold machineCheck
  split
  · rw [cellXps_faultContext, cellXps_modSquad]
    exact cellXps_of_scene (xpScene_writeRecord ..)
  · rfl

@[simp] theorem cellXps_settleSquad (s : State) (cell sq : Nat) : cellXps (settleSquad s cell sq) = cellXps s := by
  unfold settleSquad
  split
  · dsimp only
    split
    · rfl
    · rw [foldl_keeps cellXps _ (fun t r => cellXps_machineCheck ..), cellXps_modSquad]
  · rfl

@[simp] theorem cellXps_settleNested (s : State) (cell : Nat) : cellXps (settleNested s cell) = cellXps s := by
  unfold settleNested
  split
  · exact foldl_keeps cellXps _ (fun t i => cellXps_settleSquad t cell i) _ s
  · rfl

@[simp] theorem cellXps_raiseAt (s : State) (issue : Nat) (t : Tid) (c : Cause) (addr : Dword) (info : Nat) (progress : Dword) :
    cellXps (raiseAt s issue t c addr info progress) = cellXps s := by
  unfold raiseAt
  split
  · dsimp only
    split <;> rw [cellXps_modSquad, cellXps_modThread]
  · rfl

@[simp] theorem cellXps_raisePc (s : State) (t : Tid) (c : Cause) (info : Nat) : cellXps (raisePc s t c info) = cellXps s :=
  cellXps_raiseAt ..

@[simp] theorem cellXps_raiseXp (s : State) (cell ctxNo code : Nat) : cellXps (raiseXp s cell ctxNo code) = cellXps s := by
  unfold raiseXp
  split
  · rfl
  · dsimp only
    split
    · rfl
    · exact cellXps_modSquad ..

@[simp] theorem cellXps_orphanWaiters (s : State) (x : Xid) : cellXps (orphanWaiters s x) = cellXps s := by
  unfold orphanWaiters
  split
  · rfl
  · dsimp only
    split
    · rfl
    · rw [cellXps_settleNested, foldl_keeps cellXps _ (by intro t y; exact cellXps_raisePc ..)]
      rfl

end Sys2Proof.Proofs
end

section
/-! PROOFS. Stops and the end of a transfer context (R266, R267). -/
namespace Sys2Proof.Proofs
open Sys2Proof Sys2Proof.Machine Sys2Proof.Claims

/-! ## Stops (R267) -/

/-- A cell whose context is changed keeps its kernel and its squads. -/
theorem cell_modXp {s : State} {x : Xid} {c : Cell} (f : XpCtx → XpCtx) (hc : s.cell? x.cell = some c) :
    ∃ c', (s.modXp x f).cell? x.cell = some c' ∧ c'.kernel = c.kernel ∧ c'.squads = c.squads := by
  refine ⟨_, cell_modCell_same s x.cell _ (by intro c; split <;> rfl) hc, ?_, ?_⟩ <;> split <;> rfl

theorem kernel_modXp (s : State) (x : Xid) (f : XpCtx → XpCtx) (id : Nat) : (s.modXp x f).kernel? id = s.kernel? id := rfl

/-- A stop of a context in a cell with squads leaves it STOPPED at its word. -/
theorem xp_xpStopAt {s : State} {x : Xid} {c : Cell} {p : XpCtx} {code pc low : Nat} {addr : Dword} (hc : s.cell? x.cell = some c)
    (hp : s.xp? x = some p) (hsquads : ∀ k, s.kernel? c.kernel = some k → k.xpOnly = false) :
    (xpStopAt s x code addr pc low).xp? x = some { p with state := .stopped, code := code, waitOn := .none } := by
  unfold xpStopAt
  dsimp only
  generalize hrecord : xpRecord s x 1 code addr pc (dword (low % 2 ^ 32 + pc % 2 ^ 32 * 2 ^ 32)) = t
  have hscene : xpScene t = xpScene s := hrecord ▸ xpScene_xpRecord ..
  have hxps : cellXps t = cellXps s := cellXps_of_scene hscene
  obtain ⟨c1, hc1, hk1⟩ := cell_of_cellXps hxps hc
  obtain ⟨c2, hc2, hk2, -⟩ := cell_modXp (fun p => { p with state := .stopped, code := code, waitOn := .none }) hc1
  have hkernel : t.kernel? c2.kernel = s.kernel? c.kernel := by
    rw [hk2, hk1, State.kernel?, State.kernel?]
    exact congrArg (List.find? _) (congrArg Prod.snd hscene)
  have honly : ((s.kernel? c.kernel).map (·.xpOnly)).getD false = false := by
    cases h : s.kernel? c.kernel with
    | none => rfl
    | some k => exact hsquads k h
  simp only [hc2, kernel_modXp, hkernel, honly]
  rw [if_neg (by decide), xp_of_cellXps (cellXps_raiseXp ..), xp_modXp, xp_of_cellXps hxps, hp]
  rfl

/-! ## The end of a context (R266) -/

/-- XEXIT before PENDMX is empty. -/
theorem settleExit_waits {s : State} {x : Xid} {p : XpCtx} (hp : s.xp? x = some p) (hpend : p.pendmx ≠ []) : settleExit s x = s := by
  simp [settleExit, hp, hpend]

/-- XEXIT with PENDMX empty: the context is EXITED, and what waits on its queues is orphaned. -/
theorem settleExit_exits {s : State} {x : Xid} {p : XpCtx} (hp : s.xp? x = some p) (hexit : p.exiting = true) (hpend : p.pendmx = []) :
    settleExit s x = orphanWaiters (s.modXp x (fun p => { p with state := .exited, exiting := false, waitOn := .none })) x := by
  simp [settleExit, hp, hexit, hpend]

/-- Without a STALLED thread in the cell nothing is orphaned. -/
theorem orphanWaiters_none {s : State} {x : Xid} {c : Cell} (hc : s.cell? x.cell = some c)
    (hrun : ∀ q ∈ c.squads, ∀ th ∈ q.threads, th.state ≠ .stalled) : orphanWaiters s x = s := by
  unfold orphanWaiters
  rw [hc]
  dsimp only
  refine if_pos ?_
  rw [List.isEmpty_iff, List.flatMap_eq_nil_iff]
  intro y hy
  rw [List.filterMap_eq_nil_iff]
  intro th hth
  exact if_neg (hrun y.2 (List.of_mem_zip hy).2 th hth)

/-- XEXIT with PENDMX empty exits at once. -/
theorem xexit_exits {f : Xp} {s : State} {x : Xid} {c : Cell} {p : XpCtx} (hcur : s.cur = .xp x) (hc : s.cell? x.cell = some c)
    (hp : s.xp? x = some p) (hpend : p.pendmx = []) : exec (.xexit f) s
      = .next (orphanWaiters (s.modXp x (fun q => { q with state := .exited, exiting := false, waitOn := .none })) x) := by
  refine (onXp_next _ hcur hc hp).trans ?_
  rw [settleExit_exits (p := { p with exiting := true }) (by rw [xp_modXp, hp]; rfl) rfl hpend, modXp_modXp]

/-- Settles O15: branches and loops by their equations, and the stop and the exit by what a record, a trap and a kernel's ending leave of
the contexts (`cellXps`). -/
theorem transferControl : Obligations.TransferControl := by
  refine ⟨fun f => ⟨?xb, ?xbeq, ?xbne, ?xblt, ?xbge, ?xloop, ?xlend, ?xtrap, ?xexit⟩, ?stop⟩
  case xb => exact branchesX_of_xpBranch (fun _ => rfl) (fun _ => by simp)
  case xbeq => exact branchesX_of_xpBranch (fun _ => rfl) (fun _ => by simp)
  case xbne => exact branchesX_of_xpBranch (fun _ => rfl) (fun _ => by simp)
  case xblt => exact branchesX_of_xpBranch (fun _ => rfl) (xpBelow_iff f)
  case xbge => exact branchesX_of_xpBranch (fun _ => rfl) (fun p => by rw [← xpBelow_iff, Bool.not_eq_true', Bool.not_eq_true])
  case xloop =>
    intro s x c p hcur hc hp
    refine ⟨xloop_skips hcur hc hp, xloop_full hcur hc hp,
      fun hn hroom hlow a b hcode => ⟨fun hend => ?_, fun hend => ?_⟩⟩
    · refine (xloop_opens hcur hc hp hn hroom hlow hcode).trans ?_
      rw [if_pos hend, xpNext, modXp_modXp]
      rfl
    · refine (xloop_opens hcur hc hp hn hroom hlow hcode).trans ?_
      rw [if_neg hend]
      rfl
  case xlend =>
    intro s x c p hcur hc hp
    refine ⟨xlend_outside hcur hc hp, fun l rest hloops => ⟨fun hlast => ?_, fun hmore => ?_⟩⟩
    · rw [xlend_inside hcur hc hp hloops, if_pos hlast]
    · rw [xlend_inside hcur hc hp hloops, if_neg hmore]
  case xtrap =>
    intro s x c p hcur hc hp
    exact onXp_next _ hcur hc hp
  case xexit =>
    intro s x c p hcur hc hp
    refine ⟨fun hpend hrun => ?_, fun hpend => ?_, fun hpend => ?_⟩
    · obtain ⟨c', hc', -, hsquads⟩ := cell_modXp (fun q => { q with state := .exited, exiting := false, waitOn := .none }) hc
      exact (xexit_exits hcur hc hp hpend).trans (by rw [orphanWaiters_none hc' (by rwa [hsquads])])
    · refine ⟨_, xexit_exits hcur hc hp hpend, ?_⟩
      rw [xp_of_cellXps (cellXps_orphanWaiters ..), xp_modXp, hp]
      rfl
    · have hexiting : (s.modXp x (fun q => { q with exiting := true })).xp? x = some { p with exiting := true } := by
        rw [xp_modXp, hp]
        rfl
      refine ⟨_, onXp_next _ hcur hc hp, ?_⟩
      rw [settleExit_waits hexiting hpend, hexiting]
  case stop =>
    intro s x c p code pc low addr hc hp hsquads
    exact xp_xpStopAt hc hp hsquads

end Sys2Proof.Proofs
end
